-- ==== Sys2Proof/Word.lean ====
section
/-! DEFINITION. The word types of the module and their plainest arithmetic.

Register contents, fields of descriptors and frames are bit strings of the stated width, little-endian
when they span bytes (00_scope R8). Counts, resource numbers and dictionary values are `Nat`; the width of a
dictionary value is that of its entry's type (17 R354). -/

namespace Sys2Proof

/-- One byte of a memory, a frame or a value. -/
abbrev Byte := BitVec 8

/-- The bits of an FP32 value (04 R69) or of any 32-bit word. -/
abbrev Word32 := BitVec 32

/-- The bits of a 64-bit word: a culture-table word, a draw (05 R94, R99). -/
abbrev Word64 := BitVec 64

/-- `2^n` as a natural number. -/
abbrev pow2 (n : Nat) : Nat := 2 ^ n

/-- The value of bits [msb:lsb] of `w` (00 R8). -/
abbrev bitsOf (w msb lsb : Nat) : Nat := (w >>> lsb) % 2 ^ (msb + 1 - lsb)

/-- Bit `i` of `w`. -/
abbrev bitOf (w i : Nat) : Bool := w.testBit i

/-- The smallest number of `d`-sized pieces that cover `n`. -/
abbrev ceilDiv (n d : Nat) : Nat := (n + d - 1) / d

end Sys2Proof
end

