-- ==== Sys2Proof/Syntax.lean ====
section
/-! DEFINITION. The commands of the module: one constructor of `Instr` per row of spec/opcode_table.json, with the
operands the manual gives the row, and the records those operands are made of.

A command that is a dictionary write of its own row carries `sess`, the session under which the write reaches the
ordering point of 17 R356 (0: the host role, 17 R357). What only the outside can know when a command happens
(a measured rate, a temperature, whether a residue check failed, which tokens the sampling tiles produced, what a
remote module answered) is an operand (log entry 8). -/

namespace Sys2Proof

/-! ### Tiles -/

/-- A tile descriptor of 64 bytes, its fields by name (03 R46). -/
structure TileDesc where
  kind : Nat
  role : Nat
  program : Nat
  clearing : Nat
  flags : Nat
  wcet : Nat
  fmtA : Nat
  fmtB : Nat
  fmtOut : Nat
  counters : Nat
  waitValue : Nat
  k : Nat
  aAddr : Nat
  bAddr : Nat
  outAddr : Nat
  auxAddr : Nat
  strideA : Nat
  strideB : Nat
  strideOut : Nat
  rsv : Nat
  tileId : Nat
  args : Nat
deriving DecidableEq, Repr

/-- The class in which a tile is picked (03 R52). -/
inductive TileClass where
  | compute
  | move
deriving DecidableEq, Repr

/-- What the codes and checkers find while a tile runs (03 R68, 05 R105, 20 R420 to R421, 11 R245, R248). -/
inductive RunOut where
  /-- no check failed -/
  | ok
  /-- so many words of the scratchpad, side memory or culture table were corrected -/
  | wordFixed (count : Nat := 1)
  /-- a tier-1 or tier-2 line of the tile's transfer was returned corrected -/
  | lineFixed (line : Nat)
  /-- the first execution failed a residue check and the second passed -/
  | residueOnce
  /-- both executions failed a residue check -/
  | residueTwice
  /-- a scratchpad or side-memory word at this byte offset of the cell failed its code -/
  | scratchLost (off : Nat)
  /-- a word of the grove's culture table had a double-bit error, and the execution after its rewrite had none -/
  | tableWord (word : Nat)
  /-- a word of the grove's culture table had a double-bit error in the execution after its rewrite too -/
  | tableTwice (word : Nat)
  /-- a tier-1 or tier-2 line of the tile's transfer failed its memory code -/
  | lineLost (line : Nat)
  /-- a cellar line did not land within CELLAR_LATE_US -/
  | lineLate (line : Nat)
deriving DecidableEq, Repr

/-- A request that reaches an arbiter (13 R281, R284, R287): its input, the clearing it serves, and its lock flag. -/
structure ArbAsk where
  input : Nat
  clearing : Nat
  lock : Bool
deriving DecidableEq, Repr

/-- One break point of an arbiter (13 R283, R285): which arbiter, by group index and number in its group, the beats
since its last break point, the requests the sampling took, at a gated arbiter the service slot by number, its clearing
and the one that may borrow it (R268, R287), and whether resolving the samples outlasted the allowance (R282). Which
requests meet in a beat is time (13 R289), so it is an operand (log entry 17). -/
structure ArbRound where
  group : Nat
  unit : Nat
  gap : Nat
  asks : List ArbAsk
  slot : Nat
  borrower : Nat
  slow : Bool
  slotNo : Nat := 0
deriving DecidableEq, Repr

/-- What a tile's run meets: what its checks find, the beats the array was held (03 R59), the beats a move took (12 R262),
and the break points of the arbiters its traffic passes (13 R281 to R287). -/
structure RunEnv where
  found : RunOut
  held : Nat := 0
  took : Nat := 0
  arb : List ArbRound := []
deriving DecidableEq, Repr

/-! ### Plans (12 R256, R270; 17 R373): what the assembled image says. Its byte layout is the planner's
(00 scope), so PLAN_PART carries its content (log entry 5). -/

/-- A tile program the image carries (03 R475). -/
structure ProgImage where
  index : Nat
  bytes : List Byte
deriving DecidableEq, Repr

/-- One length bucket: how many 256-position classes it covers and how many sequences it holds (08 R163). -/
structure Bucket where
  classes : Nat
  cap : Nat
deriving DecidableEq, Repr

/-- A shard descriptor (10 R214). -/
structure ShardDesc where
  unit : Nat
  shard : Nat
  srcModule : Nat
  dstModule : Nat
  dstClearing : Nat
  last : Bool
  isLocal : Bool
  length : Nat
  srcOffset : Nat
  dstOffset : Nat
deriving DecidableEq, Repr

/-- One position of the membership (15 R330): replica, position in it, module and clearing that hold it. -/
structure Member where
  replica : Nat
  position : Nat
  modNo : Nat
  clearing : Nat
deriving DecidableEq, Repr

/-- What a plan says of one clearing it names. Cells are keyed grove * 256 + logical cell. -/
structure PlanClearing where
  n : Nat
  role : Nat
  accMode : Nat
  spread : Nat
  discipline : Nat
  deadlines : Bool
  /-- B and N of each kind of step that carries deadlines (12 R270) -/
  stepKinds : List (Nat × Nat)
  /-- recorded G of the compute and of the move class, by cell (12 R263, R272) -/
  gMax : List (Nat × Nat)
  gMove : List (Nat × Nat)
  counters : List (Nat × Nat)
  chain : List (Nat × Nat)
  claimCells : List Nat
  shares : List (Nat × Nat)
  /-- picks on the critical path of a step, by cell (20 R431) -/
  picks : List (Nat × Nat)
  weight : Nat
  kvWidth : Nat
  kvFormat : Nat
  kvLayers : Nat
  kvHeads : Nat
  kvSlots : Nat
  /-- first block, in each stack of the region, of the key-value pool and of the turning units' area (07 R136, 10 R212) -/
  kvBlock : Nat
  turnBlock : Nat
  spreadMods : List Nat
  chunk : Nat
  prefillTotal : Nat
  maxPos : Nat
  maxStale : Nat
  vatNo : Nat
  buckets : List Bucket
  /-- the curd buffer: module, press clearing, region offset and bytes -/
  curdModule : Nat
  curdClearing : Nat
  curdOffset : Nat
  curdBytes : Nat
  hasTaster : Bool
  batch : Nat
  units : List Nat
  /-- WEIGHT_READ tiles of a step, by unit (10 R217) -/
  unitReads : List Nat
  sources : List Nat
  /-- shard descriptors of 32 bytes (10 R214) -/
  shards : List (List Byte)
  /-- region offsets of the mask records of a press (09 R189) -/
  masks : List Nat
  ckptBlocks : List Nat
  ckptShard : Nat
  ckptShards : Nat
  replica : Nat
  members : List Member
  collMods : List (Nat × List Nat)
deriving DecidableEq, Repr

/-- The content of a plan image. -/
structure PlanImage where
  generation : Nat
  scaleId : Nat
  job : Nat
  shape : Nat
  arbLimits : List (Nat × Nat)
  micro : List Nat
  programs : List ProgImage
  clearings : List PlanClearing
deriving DecidableEq, Repr

/-! ### Outside readings and messages -/

/-- The host's bytes of one submission slot as they stand when the sweep reads it (17 R370, R371). -/
structure SlotWrite where
  slot : Nat
  bytes : List Byte
deriving DecidableEq, Repr

/-- A frame on the field network (17 R362). -/
structure FieldFrame where
  dst : Nat
  src : Nat
  etherType : Nat
  payload : List Byte
deriving DecidableEq, Repr

/-- What a cable's CMIS memory declares (14 R305, 21 R458, R460). -/
structure Cable where
  vendor : List Byte
  part : List Byte
  serial : List Byte
  lenDm : Nat
  delayPs : Nat
  powerMw : Nat
  /-- CMIS media type: copper cable, else towards an optical module (14 R304, R305) -/
  copper : Bool := true
deriving DecidableEq, Repr

/-- What a port's training and identity exchange meet (14 R305, 19 R417). -/
structure PortEnv where
  cable : Option Cable
  trained : Bool
  badLane : Option Nat
deriving DecidableEq, Repr

/-- The identity a peer sends (14 R305 step 3, 19 R417). -/
structure Ident where
  peerModule : Nat
  peerPort : Nat
  idCert : List Byte
  attestCert : List Byte
  nonce : List Byte
  signature : List Byte
deriving DecidableEq, Repr

/-- A physical cell that start-up's grove self-test finds bad, or its measured margin in 0.01 % (20 R433, R434). -/
structure CellTestResult where
  grove : Nat
  phys : Nat
  failed : Bool
  margin : Nat
deriving DecidableEq, Repr

/-- One built-in function as the firmware has it: the steps behind its cubic and its first record in the built-in region
(06 R125). -/
structure SfnEntry where
  ad08 : Bool
  code : Nat
  finish : List Byte
  base : Nat
deriving DecidableEq, Repr

/-- The built-in region of every cell's segment table memory, 64 KiB, a byte that is not listed being 0, with the built-in
functions that use it (06 R125). -/
structure SfnImage where
  region : List Byte := []
  entries : List SfnEntry := []
deriving DecidableEq, Repr

/-- What start-up finds outside the state: the order of 21 R452 and the failures of 21 R453. -/
structure StartEnv where
  inputMv : Nat
  romOk : Bool
  selfTestOk : Bool
  fieldId : Nat
  hbmBad : List Nat
  cellarBad : List Nat
  cells : List CellTestResult
  plateTag : Option (List Byte)
  harnessTag : Option (List Byte)
  ports : List PortEnv
  peers : List (Nat × Ident)
  /-- the tile programs of the firmware image (03 R475) -/
  programs : List ProgImage
  /-- the built-in functions' tables of the firmware image (06 R125) -/
  sfn : SfnImage
  ms : Nat
deriving DecidableEq, Repr

/-- A cause of OFF (21 R445). -/
inductive OffCause where
  | pwrEn
  | inputCut
  | junction125
deriving DecidableEq, Repr

/-- One token a vat step sampled for a sequence slot (08 R162 order 9), with the time of the step's end. -/
structure TokenOut where
  slot : Nat
  token : Nat
  logprob : Nat
deriving DecidableEq, Repr

/-- What the start of a vat or taster step is given: the sequences forked by it, REQ_TAG of the admitted request and
slot of its parent (07 R149); and for a curd buffer on another module, the places that module reserved, by REQ_TAG (08
R175), and the PENDING records of its ready list, each its offset in the region and its bytes (08 R176). -/
structure StepIn where
  forks : List (Nat × Nat) := []
  places : List (Nat × Nat) := []
  records : List (Nat × List Byte) := []
deriving DecidableEq, Repr

/-- A fault a step found for the sequence of a slot: 11h KV_PAGE_LOST with the page, 13h LATE, 14h LOST,
15h REMOTE_TIMEOUT (08 R170). -/
structure SeqFault where
  slot : Nat
  code : Nat
  page : Nat
  byCode : Bool
deriving DecidableEq, Repr

/-- A flit (14 R296) as it reaches the receiver: its header's fields, its reserved bits together (from SRC, FTYPE, LINES,
HOPS and CLEAR, in that order from bit 0 on), its FCRC, its payload, and how many codewords the port corrected and could not
correct since the last one. -/
structure Flit where
  portSet : Nat
  dest : Nat
  src : Nat
  op : Nat
  vc : Nat
  lines : Nat
  expressDone : Bool
  hops : Nat
  clearing : Nat
  job : Nat
  target : Nat
  lseq : Nat
  lack : Nat
  credits : Nat
  creditVc : Nat
  tag : Nat
  lineIdx : Nat
  payload : List Byte
  rsv : Nat
  fcrc : Nat
  fecFixed : Nat := 0
  fecLost : Nat := 0
deriving DecidableEq, Repr

/-- A chunk's transfer line (14 R296), its 64 bytes, with the source module, the job and the destination clearing of its
flit. -/
structure ChunkLine where
  src : Nat
  job : Nat
  clearing : Nat
  line : List Byte
deriving DecidableEq, Repr

/-- What the leader's check of one generation's shards finds (15 R328). -/
structure GenCheck where
  present : Bool := false
  generation : Nat := 0
  step : Nat := 0
  version : Nat := 0
  vatStep : Nat := 0
  scaleId : Nat := 0
  planShape : Nat := 0
  missing : Option Nat := none
  mismatch : Option Nat := none
  corrupt : Option Nat := none
deriving DecidableEq, Repr

/-- What a restore or a rejoin loads into a press clearing (15 R329): its shard's blocks by list position, the forward
copies its backward copies are made from (both offsets and the bytes), and the bytes of the CURRENT turning source with
their offsets. -/
structure ShardLoad where
  clearing : Nat
  blocks : List (Nat × List Byte) := []
  copies : List (Nat × Nat × Nat) := []
  source : List (Nat × List Byte) := []
deriving DecidableEq, Repr

/-- What a leader finds of the other modules when it has to choose: the checks of the newer and of the older generation
(15 R328), and the spare modules whose link ports are UP and that hold a press clearing of the job with its plan accepted
(15 R336). -/
structure LeadEnv where
  newer : GenCheck := {}
  older : GenCheck := {}
  usable : List Nat := []
deriving DecidableEq, Repr

/-- What a snapshot failed of (11 R253). -/
inductive SnapCause where
  | unreachable
  /-- this line of the block being copied failed its code -/
  | badRead (line : Nat)
deriving DecidableEq, Repr

/-- What an understory segment ends in (20 R438 to R441). -/
inductive SegOut where
  /-- the segment completed; its reads corrected this many words, and these failed their code: logical cell, byte offset -/
  | done (fixed : Nat) (lost : List (Nat × Nat) := [])
  /-- a candidate became READY and the segment was abandoned -/
  | abandoned
  /-- the segment completed its pass and the pass found this block faulty -/
  | fault (block : Nat)
  /-- the segment measured this margin, in 0.01 % -/
  | margin (m : Nat)
deriving DecidableEq, Repr

/-- An Ethernet frame on a gateway port that is no protocol datagram (14 R304). -/
inductive GwFrame where
  /-- a Neighbor Solicitation for this address -/
  | solicit (addr : List Byte)
  /-- a pause or priority flow control frame -/
  | pause
  /-- anything else -/
  | other
deriving DecidableEq, Repr

/-- What a bulk-transfer datagram does: it brings data, or asks for the drain of a generation (15 R326). -/
inductive GwOp where
  | data
  | drain (gen : Nat)
deriving DecidableEq, Repr

/-- A bulk-transfer datagram (19 R410) with the addresses of its frame (14 R304): destination MAC and IPv6 address, UDP
port, VLAN identifier (0 untagged) and frame length. -/
structure GwDatagram where
  mac : Nat
  vlan : Nat
  addr : List Byte
  udpPort : Nat
  frameBytes : Nat
  session : Nat
  transfer : Nat
  number : Nat
  op : GwOp
  clearing : Nat
  tier : Nat
  offset : Nat
  sealedData : List Byte
  tag : List Byte
deriving DecidableEq, Repr

/-- A triggered-operation descriptor (14 R307). -/
structure TrigDesc where
  top : Nat
  tflags : Nat
  trig : Nat
  threshold : Nat
  step : Nat
  coll : Nat
  dstModule : Nat
  dstClearing : Nat
  portSet : Nat
  chunk : Nat
  length : Nat
  src : Nat
  dst : Nat
  dstTrig : Nat
  signal : Nat
  srcAck : Nat
  opId : Nat
  rsvSet : Bool
deriving DecidableEq, Repr

/-- The commands: one constructor per row of spec/opcode_table.json, in the table's order. An operand with a default is what
other modules, or the firmware's own request, add to the row: by default nothing. -/
inductive Instr where
  | start (env : StartEnv)
  | powerOff (cause : OffCause)
  | moduleReset (sess : Nat)
  | hold (sess : Nat)
  | holdDone
  | resume (sess : Nat)
  | capControlTick (mv ma w : Nat)
  | thermalWarn (g : Nat) (mC : Int)
  | thermalTrip (die : Nat) (mC : Int)
  | thermRelease (temps : List (Nat × Int))
  | thermalHotTimeout (die : Nat) (mC : Int)
  | coolantLow (flow : Nat) (tin tout : Int)
  | rateMeasure (die beats : Nat)
  | regRefill (n res dir : Nat)
  | perstAssert
  | perstRelease
  | sweep (writes : List SlotWrite)
  | planPart (slot : Nat) (image : PlanImage)
  | planIncomplete (planId : Nat)
  | vatRequest (slot : Nat)
  | cancel (slot : Nat)
  | pause (slot : Nat)
  | reward (slot : Nat)
  | planWithdraw (slot : Nat)
  | dictSlotRead (slot : Nat)
  | dictSlotWrite (slot : Nat) (plan : Option Nat := none)
  | registerWrite (sess idx sub : Nat) (v : List Byte)
  | read (fr : FieldFrame)
  | write (fr : FieldFrame)
  | segRead (fr : FieldFrame)
  | segWrite (fr : FieldFrame)
  | abort (fr : FieldFrame)
  | transferTimeout (idx sub sess : Nat)
  | bar0Write (off : Nat) (v : List Byte)
  | apertureLoad (sess : Nat)
  | apertureCommit (sess : Nat)
  | evAckedWrite (v : Nat)
  | ringConsumedWrite (ring v : Nat)
  | store (sess : Nat)
  | resetDefaults (sess : Nat)
  | storeDone
  | fwStageDataWrite (sess : Nat) (v : List Byte)
  | erase (sess : Nat)
  | verify (sess : Nat)
  | select (sess : Nat)
  | restore (sess n : Nat) (newer older : GenCheck)
  | restoreOlder (sess n : Nat) (newer older : GenCheck)
  | restoreDone (n : Nat) (blocks : List (Nat × List Byte)) (bad : Option Nat := none) (told : Option GenCheck := none)
    (more : List ShardLoad := []) (epoch : Option Nat := none)
  | arbClear (sess : Nat)
  | healthClear (sess n : Nat)
  | cellarTtlEnableWrite (sess v : Nat)
  | attestReportRead (sess : Nat)
  | sessionOpenManager (sess : Nat) (v : List Byte)
  | sessionOpenTenant (sess : Nat) (v : List Byte)
  | commission (sess : Nat) (v : List Byte)
  | close (sess : Nat) (v : List Byte)
  | sessionTimeout (session : Nat)
  | keyWrappedWrite (sess n : Nat) (v : List Byte)
  | keyOpeningDone (n : Nat)
  | cryptoError
  | create (sess n : Nat)
  | clearingCreated (n : Nat)
  | resize (sess n : Nat)
  | destroy (sess n : Nat)
  | clearingDestroyed (n : Nat)
  | microprogWrite (sess entry sub : Nat) (v : List Byte)
  | mpTableWrite (sess : Nat) (v : List Byte)
  | microprogLoaded (entry : Nat)
  | quotaScrubDone (n : Nat)
  | gwDatagram (port : Nat) (d : GwDatagram)
  | tileLoad (g c : Nat) (desc : List Byte)
  | tilePick (g c : Nat) (cls : TileClass)
  | matmul (g c : Nat) (o : RunEnv)
  | splitSum (g c : Nat) (o : RunEnv)
  | convert (g c : Nat) (o : RunEnv)
  | rmsNorm (g c : Nat) (o : RunEnv)
  | rmsNormBwd (g c : Nat) (o : RunEnv)
  | softmax (g c : Nat) (o : RunEnv)
  | softmaxBwd (g c : Nat) (o : RunEnv)
  | rowVariance (g c : Nat) (o : RunEnv)
  | funcApply (g c : Nat) (o : RunEnv)
  | mask (g c : Nat) (o : RunEnv)
  | rawWords (g c : Nat) (o : RunEnv)
  | updateP1 (g c : Nat) (o : RunEnv)
  | updateP2 (g c : Nat) (o : RunEnv)
  | updateScalars (g c : Nat) (o : RunEnv)
  | precondPrep (g c : Nat) (o : RunEnv)
  | precondChol (g c : Nat) (o : RunEnv)
  | precondMm (g c : Nat) (o : RunEnv)
  | precondAffine (g c : Nat) (o : RunEnv)
  | move (g c : Nat) (o : RunEnv)
  | pageGather (g c : Nat) (o : RunEnv)
  | pageAppend (g c : Nat) (o : RunEnv)
  | weightRead (g c : Nat) (o : RunEnv)
  | sideSave (g c : Nat) (o : RunEnv)
  | sideLoad (g c : Nat) (o : RunEnv)
  | tierMove (g c : Nat) (o : RunEnv)
  | triggerPost (g c : Nat) (o : RunEnv)
  | counterSignal (g c ctr src : Nat)
  | remoteReply (tag : Nat) (lines : List (Nat × List Byte)) (foreign : Bool) (lost : List Nat := [])
  | remoteTimeout (tag : Nat)
  | remoteReadServe (f : Flit) (asker : Nat := 0)
  | remoteWriteServe (f : Flit) (asker : Nat := 0)
  | lockOverrun (group unit input : Nat)
  | cellarLate (n slot line : Nat)
  | cellarGroupFailed (group : Nat)
  | vatStepStart (n : Nat) (io : StepIn := {})
  | vatStepEnd (n : Nat) (toks : List TokenOut) (faults : List SeqFault)
  | pressBatchTake (n : Nat)
  | pauseExpired (n tag : Nat)
  | stepBoundary (n : Nat) (ended : Bool) (lineOk : Bool)
  | cultureFillDone (g : Nat) (crcOk : Bool)
  | claimTaken (n g : Nat) (ns : Nat)
  | claimHoldExpire (n : Nat)
  | claimReleased (n : Nat)
  | multiplexSwitch (g phys : Nat)
  | versionProduced (n : Nat)
  | landingReserve (n : Nat)
  | shardSend (n unit shard : Nat) (dst : Nat := 0) (granted : Bool := false) (again : Bool := false)
  | shardLanded (n unit shard : Nat) (data : List Byte) (bad : Bool)
  | frontStart (n : Nat) (reports : List Bool)
  | unitReplace (n : Nat) (others : Bool := false)
  | turnSourceCurrent (n : Nat) (others : Bool := false)
  | vatLoad (n version : Nat)
  | loadDone (n : Nat)
  | snapshotOpen (n : Nat)
  | blockCopied (ch : Nat)
  | snapshotFailed (ch : Nat) (cause : SnapCause)
  | portBringup (p : Nat) (env : PortEnv)
  | identReceive (p : Nat) (id : Ident)
  | laneFailure (p lane : Nat)
  | flitReceive (p : Nat) (f : Flit)
  | transitForward (p : Nat) (f : Flit)
  | trigPost (die n : Nat) (d : List Byte)
  | chunkArrive (die : Nat) (l : ChunkLine) (dst : Nat) (data : List Byte) (asker : Nat := 0)
  | chunkAck (die : Nat) (l : ChunkLine)
  | chunkRetry (die : Nat) (l : ChunkLine) (undelivered : Bool)
  | collFail (n coll status : Nat) (opId : Nat) (line : Option ChunkLine := none)
  | collTimeout (n coll : Nat) (missing : Option Nat := none)
  | shardVerified (n : Nat) (ok : Bool) (slot : Option Nat := none)
  | ckptComplete (n : Nat) (copiesOk : Bool) (others : List (Nat × List Byte)) (told : Option GenCheck := none)
    (vatSteps : List Nat := [])
  | heartbeat (n src epoch : Nat)
  | heartbeatMiss (n modNo : Nat) (env : LeadEnv := {})
  | failureReport (n modNo epoch : Nat) (env : LeadEnv := {})
  | shrink (n epoch : Nat) (drop : List Nat) (failed : List Nat := [])
  | shrinkResume (n : Nat) (totals : Bool := false) (usable : List Nat := []) (reports : List (Nat × Bool) := [])
    (sent : List (Nat × List Byte) := []) (epoch : Option Nat := none)
  | shrinkLimit (n : Nat) (env : LeadEnv := {})
  | stepTimeReport (n : Nat) (reports : List (Nat × Nat)) (env : LeadEnv := {}) (epoch : Option Nat := none)
  | rejoinReady (n modNo : Nat) (rejoin : List Member := []) (epoch : Option Nat := none)
  | rejoinDone (n : Nat) (blocks : List (Nat × List Byte)) (more : List ShardLoad := []) (epoch : Option Nat := none)
  | understorySegment (g phys : Nat) (o : SegOut)
  | testOverdue (g phys : Nat)
  | spareIn (g : Nat) (spareOk : Bool)
  | remargin (g : Nat) (margins : List (Nat × Nat))
  | ckptDrainEnd (n : Nat)
  | gatewayFrame (p : Nat) (f : GwFrame)
  | pcieLinkDown
deriving DecidableEq, Repr

end Sys2Proof
end

