-- ==== Sys2Proof/Machine/Float.lean ====
section
/-! DEFINITION. The number formats of 04 R69 to R72, exact arithmetic on their values, IEEE rounding to nearest even,
and the conversions of R79 to R81.

A finite value is held exactly as sign, significand and exponent of two, so a product or a sum has no error before
its one rounding (R76). -/

namespace Sys2Proof.Machine

/-- A value of a format: NaN, an infinity, or sign, significand `m` and exponent `e` of `m * 2^e`. -/
inductive FV where
  | nan
  | inf (neg : Bool)
  | fin (neg : Bool) (m : Nat) (e : Int)
deriving DecidableEq, Repr

/-- A format's encoding (04 R69). `nanKind`: 0 no NaN, 1 exponent all ones, 2 every bit below the sign one. -/
structure FFmt where
  width : Nat
  expBits : Nat
  fracBits : Nat
  bias : Nat
  infs : Bool
  nanKind : Nat
  nanCode : Nat
  topM : Nat
  topE : Int
deriving DecidableEq, Repr

/-- FP32, code 00h. -/
def fp32 : FFmt := ⟨32, 8, 23, 127, true, 1, 0x7FC00000, 0xFFFFFF, 104⟩
/-- BF16, code 01h. -/
def bf16 : FFmt := ⟨16, 8, 7, 127, true, 1, 0x7FC0, 255, 120⟩
/-- IEEE binary16, code 02h. -/
def half : FFmt := ⟨16, 5, 10, 15, true, 1, 0x7E00, 2047, 5⟩
/-- MXFP8 E4M3 element, code 10h. -/
def e4m3 : FFmt := ⟨8, 4, 3, 7, false, 2, 0x7F, 14, 5⟩
/-- MXFP8 E5M2 element, code 11h. -/
def e5m2 : FFmt := ⟨8, 5, 2, 15, true, 1, 0x7E, 7, 13⟩
/-- MXFP6 E3M2 element, code 12h. -/
def e3m2 : FFmt := ⟨6, 3, 2, 3, false, 0, 0, 7, 2⟩
/-- MXFP6 E2M3 element, code 13h. -/
def e2m3 : FFmt := ⟨6, 2, 3, 1, false, 0, 0, 15, -1⟩
/-- MXFP4 E2M1 element, code 14h. -/
def e2m1 : FFmt := ⟨4, 2, 1, 1, false, 0, 0, 3, 1⟩

/-- The format of a code (03 R47, 04 R69). -/
def fmtOf (code : Nat) : Option FFmt :=
  match code with
  | 0x00 => some fp32
  | 0x01 => some bf16
  | 0x02 => some half
  | 0x10 => some e4m3
  | 0x11 => some e5m2
  | 0x12 => some e3m2
  | 0x13 => some e2m3
  | 0x14 => some e2m1
  | _ => none

/-- Whether a format code is an MX format: elements in blocks of 32 under a shared scale (04 R70). -/
def isMx (code : Nat) : Bool := 0x10 ≤ code && code ≤ 0x14

/-- The digit 1 to 7 a target format has among the conversion counters (04 R88); 0 for FP32. -/
def fmtDigit (code : Nat) : Nat :=
  match code with
  | 0x01 => 1
  | 0x02 => 2
  | 0x10 => 3
  | 0x11 => 4
  | 0x12 => 5
  | 0x13 => 6
  | 0x14 => 7
  | _ => 0

/-- `n * 2^k` for an exponent of either sign, dropping bits below the last place. -/
def shiftBy (n : Nat) (k : Int) : Nat :=
  match k with
  | .ofNat j => n <<< j
  | .negSucc j => n >>> (j + 1)

/-- The value an encoding stands for (04 R69, R71). -/
def FFmt.decode (f : FFmt) (bits : Nat) : FV :=
  let s := bits.testBit (f.width - 1)
  let ones := pow2 f.expBits - 1
  let ex := (bits >>> f.fracBits) % pow2 f.expBits
  let fr := bits % pow2 f.fracBits
  if ex == 0 then .fin s fr (1 - (f.bias : Int) - f.fracBits)
  else if f.nanKind == 1 && ex == ones then (if fr == 0 then .inf s else .nan)
  else if f.nanKind == 2 && ex == ones && fr == pow2 f.fracBits - 1 then .nan
  else .fin s (pow2 f.fracBits + fr) ((ex : Int) - f.bias - f.fracBits)

/-- The sign bit of a format. -/
def FFmt.signBit (f : FFmt) (s : Bool) : Nat := if s then pow2 (f.width - 1) else 0

/-- The encoding of a value the format holds exactly; a NaN is the canonical one (04 R72). -/
def FFmt.encode (f : FFmt) (x : FV) : Nat :=
  match x with
  | .nan => f.nanCode
  | .inf s => f.signBit s + (pow2 f.expBits - 1) * pow2 f.fracBits
  | .fin s m e =>
    if m == 0 then f.signBit s
    else
      let n := Nat.log2 m
      let lead : Int := n + e
      if 1 - (f.bias : Int) ≤ lead then
        f.signBit s + ((lead + f.bias).toNat) * pow2 f.fracBits
          + (shiftBy m ((f.fracBits : Int) - n) - pow2 f.fracBits)
      else f.signBit s + shiftBy m (e - (1 - (f.bias : Int) - f.fracBits))

/-- The exponent of one unit in the last place of a format at a magnitude `m * 2^e`. -/
def FFmt.ulpExp (f : FFmt) (m : Nat) (e : Int) : Int :=
  max ((Nat.log2 m : Int) + e - f.fracBits) (1 - (f.bias : Int) - f.fracBits)

/-- A magnitude rounded to the nearest even multiple of `2^u`, as the number of units. -/
def roundUnits (m : Nat) (e u : Int) : Nat :=
  if u ≤ e then shiftBy m (e - u)
  else
    let d := (u - e).toNat
    let q := m >>> d
    let r := m % pow2 d
    let h := pow2 (d - 1)
    if h < r || (r == h && q % 2 == 1) then q + 1 else q

/-- `a * 2^ea` compared with `b * 2^eb`: whether it is at least that. -/
def geDy (a : Nat) (ea : Int) (b : Nat) (eb : Int) : Bool :=
  if ea ≤ eb then shiftBy b (eb - ea) ≤ a else b ≤ shiftBy a (ea - eb)

/-- A value rounded once to a format with infinities, to nearest even (04 R76, R77). -/
def FFmt.round (f : FFmt) (x : FV) : FV :=
  match x with
  | .fin s m e =>
    if m == 0 then .fin s 0 0
    else
      let u := f.ulpExp m e
      let q := roundUnits m e u
      if q != 0 && geDy q u (f.topM + 1) f.topE then .inf s else .fin s q u
  | y => y

namespace FV

/-- The negation. -/
def neg : FV → FV
  | .nan => .nan
  | .inf s => .inf (!s)
  | .fin s m e => .fin (!s) m e

/-- The magnitude. -/
def abs : FV → FV
  | .nan => .nan
  | .inf _ => .inf false
  | .fin _ m e => .fin false m e

/-- The sign, with NaN taken as positive. -/
def isNeg : FV → Bool
  | .nan => false
  | .inf s => s
  | .fin s _ _ => s

/-- Finite. -/
def isFin : FV → Bool
  | .fin .. => true
  | _ => false

/-- A zero of either sign. -/
def isZero : FV → Bool
  | .fin _ m _ => m == 0
  | _ => false

/-- The exact product; zero times an infinity is NaN. -/
def mul : FV → FV → FV
  | .fin s m e, .fin t n d => .fin (s != t) (m * n) (e + d)
  | .nan, _ => .nan
  | _, .nan => .nan
  | .inf s, y => if y.isZero then .nan else .inf (s != y.isNeg)
  | x, .inf t => if x.isZero then .nan else .inf (x.isNeg != t)

/-- The exact sum; an exact zero sum is +0 except that of two negative zeros (04 R77). -/
def add : FV → FV → FV
  | .fin s m e, .fin t n d =>
    let k := min e d
    let a := shiftBy m (e - k)
    let b := shiftBy n (d - k)
    if s == t then .fin s (a + b) k
    else if a == b then .fin false 0 0
    else if b < a then .fin s (a - b) k
    else .fin t (b - a) k
  | .nan, _ => .nan
  | _, .nan => .nan
  | .inf s, .inf t => if s == t then .inf s else .nan
  | .inf s, _ => .inf s
  | _, .inf t => .inf t

/-- `x < y`; false when either is NaN. -/
def lt : FV → FV → Bool
  | .nan, _ => false
  | _, .nan => false
  | .inf s, .inf t => s && !t
  | .inf s, _ => s
  | _, .inf t => !t
  | .fin s m e, .fin t n d =>
    if m == 0 && n == 0 then false
    else if m == 0 then !t
    else if n == 0 then s
    else if s && !t then true
    else if !s && t then false
    else if s then !geDy n d m e
    else !geDy m e n d

/-- `x ≤ y`; false when either is NaN. -/
def le (x y : FV) : Bool :=
  match x, y with
  | .nan, _ => false
  | _, .nan => false
  | a, b => !lt b a

/-- The quotient carried far enough that one rounding of it is the rounding of the exact quotient. -/
def divApprox : FV → FV → FV
  | .nan, _ => .nan
  | _, .nan => .nan
  | .inf _, .inf _ => .nan
  | .inf s, y => .inf (s != y.isNeg)
  | x, .inf t => .fin (x.isNeg != t) 0 0
  | .fin s m e, .fin t n d =>
    if n == 0 then (if m == 0 then .nan else .inf (s != t))
    else
      let k := 64 + Nat.log2 n
      let q := (m <<< k) / n
      let sticky := if (m <<< k) % n == 0 then 0 else 1
      .fin (s != t) (2 * q + sticky) (e - d - k - 1)

end FV

/-- The integer square root, one bit of the result per step from bit `b - 1`. -/
def isqrt : Nat → Nat → Nat → Nat
  | 0, _, r => r
  | b + 1, n, r =>
    let c := r + pow2 b
    isqrt b n (if c * c ≤ n then c else r)

/-- The square root carried far enough that one rounding of it is the rounding of the exact root. -/
def FV.sqrtApprox : FV → FV
  | .nan => .nan
  | .inf s => if s then .nan else .inf false
  | .fin s m e =>
    if m == 0 then .fin s 0 0
    else if s then .nan
    else
      let odd := e % 2 != 0
      let m' := (if odd then 2 * m else m) <<< 80
      let e' := (if odd then e - 1 else e) - 80
      let r := isqrt (Nat.log2 m' / 2 + 2) m' 0
      let sticky := if r * r == m' then 0 else 1
      .fin false (2 * r + sticky) (e' / 2 - 1)

/-! ### FP32 operations on encodings (04 R72: every lane operation rounds to nearest even) -/

/-- The value of FP32 bits. -/
def f32 (b : Nat) : FV := fp32.decode (b % pow2 32)

/-- The FP32 bits of a value after one rounding. -/
def toF32 (x : FV) : Nat := fp32.encode (fp32.round x)

/-- FP32 addition. -/
def fadd (a b : Nat) : Nat := toF32 (FV.add (f32 a) (f32 b))
/-- FP32 subtraction. -/
def fsub (a b : Nat) : Nat := toF32 (FV.add (f32 a) (FV.neg (f32 b)))
/-- FP32 multiplication. -/
def fmul (a b : Nat) : Nat := toF32 (FV.mul (f32 a) (f32 b))
/-- FP32 fused multiply-add: `a * b + c` with one rounding. -/
def ffma (a b c : Nat) : Nat := toF32 (FV.add (FV.mul (f32 a) (f32 b)) (f32 c))
/-- FP32 division. -/
def fdiv (a b : Nat) : Nat := toF32 (FV.divApprox (f32 a) (f32 b))
/-- FP32 square root. -/
def fsqrt (a : Nat) : Nat := toF32 (FV.sqrtApprox (f32 a))
/-- FP32 `a < b`. -/
def flt (a b : Nat) : Bool := FV.lt (f32 a) (f32 b)
/-- The FP32 bits with the sign cleared, a NaN canonical (04 R72). -/
def fabs (a : Nat) : Nat := toF32 (FV.abs (f32 a))
/-- The FP32 bits with the sign changed, a NaN canonical (04 R72). -/
def fneg (a : Nat) : Nat := toF32 (FV.neg (f32 a))
/-- An integer as FP32. -/
def f32OfNat (n : Nat) : Nat := toF32 (.fin false n 0)

/-! ### Conversions out of FP32 (04 R79 to R81) -/

/-- What a converted value counts as beside CONVERTED (04 R89). -/
inductive ConvClass where
  | plain
  | overflow
  | vanished
  | nonfinite
deriving DecidableEq, Repr

/-- Units of a stochastically rounded magnitude: `r` random bits `d` (04 R81). -/
def stochUnits (r : Nat) (draw m : Nat) (e u : Int) : Nat :=
  if u ≤ e then shiftBy m (e - u)
  else
    let d := (u - e).toNat
    let q := m >>> d
    let lead := shiftBy (m % pow2 d) ((r : Int) + 1 - d)
    let t := lead / 2 + lead % 2
    if pow2 r ≤ t + draw % pow2 r then q + 1 else q

/-- A value converted into format `f`: `draw` is none under round to nearest even and the element's draw under
stochastic rounding with `r` bits; `mx` says that an overflow saturates (04 R80). -/
def convertTo (f : FFmt) (mx : Bool) (r : Nat) (draw : Option Nat) (x : FV) : Nat × ConvClass :=
  match x with
  | .nan => (f.nanCode, .nonfinite)
  | .inf s => (f.encode (.inf s), .nonfinite)
  | .fin s m e =>
    if m == 0 then (f.signBit s, .plain)
    else if geDy m e (2 * f.topM + 1) (f.topE - 1) then
      (if mx then f.encode (.fin s f.topM f.topE) else f.encode (.inf s), .overflow)
    else
      let u := f.ulpExp m e
      let q := match draw with
        | none => roundUnits m e u
        | some d => stochUnits r d m e u
      let tooLarge := q != 0 && !geDy f.topM f.topE q u
      let y := if tooLarge then FV.fin s f.topM f.topE else FV.fin s q u
      let small := q == 0 || !geDy q u 1 (1 - (f.bias : Int))
      (f.encode y, if small then .vanished else .plain)

/-- The random bits of one stochastic rounding into a format (04 R73: SR_BITS_WIDE, SR_BITS_FP4). -/
def srBits (code : Nat) : Nat := if code == 0x14 then 3 else 4

/-- The `emax` of 04 R79, step 4. -/
def mxEmax (code : Nat) : Int :=
  match code with
  | 0x10 => 8
  | 0x11 => 15
  | 0x12 => 4
  | _ => 2

/-- The floor of the base-2 logarithm of a finite non-zero magnitude; none otherwise. -/
def FV.log2 : FV → Option Int
  | .fin _ m e => if m == 0 then none else some ((Nat.log2 m : Int) + e)
  | _ => none

/-- The largest of the logarithms of a list of values; none when all are zero. -/
def maxLog2 (xs : List FV) : Option Int :=
  xs.foldl (fun a x => match a, x.log2 with
    | none, l => l
    | some v, none => some v
    | some v, some l => some (max v l)) none

/-- One group of 32 values converted into an MX format: the scale code, the element codes, and what each counts as
(04 R79, R80). `draws` gives each element's draw, none under round to nearest even. -/
def convertMx (code : Nat) (f : FFmt) (draws : Nat → Option Nat) (xs : List FV) :
    Nat × List (Nat × ConvClass) :=
  if xs.any fun x => !x.isFin then
    (0xFF, xs.map fun x => (f.signBit x.isNeg, .nonfinite))
  else
    match maxLog2 xs with
    | none => (0, xs.map fun x => (f.signBit x.isNeg, .plain))
    | some l =>
      let sx := max (l - mxEmax code) (-127)
      ((sx + 127).toNat,
        (xs.zip (List.range xs.length)).map fun p =>
          let x := match p.1 with
            | .fin s m e => FV.fin s m (e - sx)
            | y => y
          convertTo f true (srBits code) (draws p.2) x)

/-- The FP32 value of an MX element under scale code `sc` (04 R70, R87). -/
def mxValue (f : FFmt) (sc bits : Nat) : FV :=
  if sc == 0xFF then .nan
  else match f.decode bits with
    | .fin s m e =>
      if m == 0 then .fin s 0 0
      else if 128 ≤ (Nat.log2 m : Int) + e + sc - 127 then .inf s
      else .fin s m (e + sc - 127)
    | y => y

/-- The exact value of an MX element under scale code `sc`, as a product uses it (04 R76). -/
def mxExact (f : FFmt) (sc bits : Nat) : FV :=
  if sc == 0xFF then .nan
  else match f.decode bits with
    | .fin s m e => .fin s m (e + sc - 127)
    | y => y

/-! ### Accumulation (04 R76 to R78) -/

/-- One accumulator: its value and whether it saturated. -/
structure Accum where
  v : FV := .fin false 0 0
  sat : Bool := false
deriving DecidableEq, Repr

/-- One product added to an accumulator with one rounding, in FP32 or, in half width, in binary16 with saturation. -/
def Accum.step (halfWidth : Bool) (a : Accum) (p : FV) : Accum :=
  let s := FV.add a.v p
  if halfWidth then
    match half.round s with
    | .inf n =>
      if a.v.isFin && p.isFin then { v := .fin n 65504 0, sat := true } else { a with v := .inf n }
    | y => { a with v := y }
  else { a with v := fp32.round s }

end Sys2Proof.Machine
end

