-- ==== Sys2Proof/Config.lean ====
section
/-! DEFINITION. What the manual leaves open: the free values and the uninterpreted standard algorithms.

Every constant here is opaque: nothing in Lean evaluates it or proves a value of it, so a statement holds
whatever the value is. Log entries 9, 10, 16 and 17 name them. -/

namespace Sys2Proof.Config

/-- A value the manual leaves undefined, fresh for every value of the state's counter `free` (log entry 16). -/
opaque freeValue : Nat → Nat

/-- The segment a micro-program's RANGE names for an input that has no reduced argument (06 R127; log entry 9). -/
opaque unstatedStep : List Nat → Nat

/-- ML-KEM-1024 decapsulation under a private key (19 R401), FIPS 203; log entry 10. -/
opaque kemSecret : List Byte → List Byte → List Byte

/-- The public part of an ML-KEM-1024 private key (19 R401). -/
opaque kemPublic : List Byte → List Byte

/-- The public part of an SLH-DSA private key of a parameter set: 0 SLH-DSA-SHA2-128s, 1 SLH-DSA-SHA2-128f (19 R401). -/
opaque slhPublic : Nat → List Byte → List Byte

/-- An SLH-DSA signature (FIPS 205) of a parameter set by a private key over a message. -/
opaque slhSign : Nat → List Byte → List Byte → List Byte

/-- What stands in a signature's place when the key that would make it is zeroised: the manual does not say (19 R416,
R419; log entry 10). -/
opaque unkeyedSignature : List Byte → List Byte

/-- SLH-DSA verification of a signature over a message under a public key (19 R412, R417). -/
opaque slhVerify : List Byte → List Byte → List Byte → Bool

/-- AES-256-GCM opening (19 R402, R409, R410): key, nonce, associated data, ciphertext, tag. -/
opaque gcmOpen : List Byte → List Byte → List Byte → List Byte → List Byte → Option (List Byte)

/-- AES-256-GCM sealing (19 R410): key, nonce, associated data, plaintext; ciphertext and tag. -/
opaque gcmSeal : List Byte → List Byte → List Byte → List Byte → List Byte × List Byte

/-- Output `n` of the DRBG after start number `starts` (19 R401), `len` bytes. -/
opaque drbg : (starts n len : Nat) → List Byte

/-- The number of the boot-ROM hash that a digest equals, when the boot ROM holds it (19 R401, R412). -/
opaque romKeyIndex : List Byte → Option Nat

end Sys2Proof.Config
end

