-- ==== Sys2Proof/Machine/Names.lean ====
section
/-! DEFINITION. The names of statuses and events the module uses (17 R360), one constructor each.

A name is carried as a 32-bit code, the first four bytes of the SHA-256 digest of its spelling
(`Sys2Proof.Machine.Name.code`, in Machine/Bytes.lean). -/

namespace Sys2Proof.Machine

/-- A status or event name of the manual (17 R360). -/
inductive Name where
  | ok
  | accModeMismatch
  | arbLimitMismatch
  | cablePower
  | cableUnknown
  | cancelled
  | capUnreachable
  | cellarGroupFailed
  | cellCrowded
  | cellMultiplexed
  | cellRetired
  | channelDegraded
  | chunkCorrupt
  | chunkUndelivered
  | ckptBusy
  | ckptComplete
  | ckptDomain
  | ckptFailed
  | ckptFallback
  | ckptSkipped
  | claimConflict
  | claimReleased
  | claimShort
  | claimTaken
  | clearingsExist
  | clearingAbsent
  | clearingBusy
  | clearingCreated
  | clearingDestroyed
  | clearingExists
  | clearingIncomplete
  | clearingInUse
  | clearingRefused
  | collFailed
  | collTimeout
  | commissionFull
  | coolantLow
  | copierShort
  | countersShort
  | counterSaturated
  | cryptoError
  | cryptoUnavailable
  | cultureConflict
  | cultureFillFailed
  | deadlineMissed
  | deadlineUnreachable
  | dieFault
  | entryAbsent
  | entryReadOnly
  | evlogGone
  | fieldIdInvalid
  | floorLowered
  | fwFallback
  | fwUnverified
  | groveFailed
  | healthInvalid
  | healthSampleLost
  | healthTrip
  | hwFault
  | identityTags
  | identMismatch
  | jobFailed
  | keyAbsent
  | keyBinding
  | keyRefused
  | keyStale
  | keyTenantConflict
  | kvEvicted
  | kvPageLost
  | kvPoolBusy
  | kvPoolQuota
  | kvSpreadMismatch
  | laneSpared
  | late
  | loadDone
  | loadFailed
  | lost
  | managerAbsent
  | managerCommissioned
  | marginLow
  | memoryLost
  | microprogAbsent
  | microprogBusy
  | microprogInvalid
  | moduleHeld
  | moduleRun
  | neighbourChanged
  | neighbourNew
  | notHeld
  | notLeader
  | noSeed
  | outputReady
  | pauseExpired
  | pauseLost
  | pauseRefused
  | planAccepted
  | planClearing
  | planForeign
  | planIncomplete
  | planPartConflict
  | planStopped
  | planWithdrawn
  | programConflict
  | quotaBusy
  | quotaInUse
  | quotaShort
  | regBudget
  | regOvercommit
  | rejoinDone
  | rejoinNoSpare
  | remapFull
  | remargin
  | remoteForeign
  | remoteTimeout
  | reqAccepted
  | reqEnded
  | reqInvalid
  | reqUnknown
  | reservedSet
  | restoreNone
  | rewardRefused
  | ringShort
  | roleDenied
  | scoreFailed
  | scratchForeign
  | scratchLost
  | sessionsFull
  | sessionProof
  | sessionReplay
  | sessionTag
  | sessionUnknown
  | shardCorrupt
  | shardForeign
  | shardMismatch
  | shardMissing
  | shareBudget
  | shareLow
  | shrinkDone
  | signalForeign
  | singularClamped
  | slotCrc
  | slotDone
  | slotInvalid
  | slotRefused
  | snapshotFailed
  | spareInDone
  | stackDegraded
  | startFailed
  | storeBusy
  | storeDefaults
  | storeDone
  | storeRecordSkipped
  | straggler
  | tagCrc
  | tagInvalid
  | tagMissing
  | testOverdue
  | thermalTrip
  | thermalTripped
  | thermalWarn
  | tierForeign
  | tileBanks
  | tileFlags
  | tileFormat
  | tileOverlap
  | tileRole
  | tileTooLong
  | tileWcetBad
  | transferBusy
  | transferKind
  | transferOrder
  | transposeFormat
  | trigExhausted
  | trigInvalid
  | turnBusy
  | turnDisciplineMismatch
  | turnDone
  | turnFailed
  | turnPoolQuota
  | turnPoolSmall
  | typeMismatch
  | understoryFail
  | updateSkipped
  | valueRange
  | versionSuperseded
  | wallConflict
deriving DecidableEq, Repr

/-- The name as the manual spells it, in ASCII capitals with underscores (17 R360). -/
def Name.spelling : Name → String
  | .ok => "OK"
  | .accModeMismatch => "ACC_MODE_MISMATCH"
  | .arbLimitMismatch => "ARB_LIMIT_MISMATCH"
  | .cablePower => "CABLE_POWER"
  | .cableUnknown => "CABLE_UNKNOWN"
  | .cancelled => "CANCELLED"
  | .capUnreachable => "CAP_UNREACHABLE"
  | .cellarGroupFailed => "CELLAR_GROUP_FAILED"
  | .cellCrowded => "CELL_CROWDED"
  | .cellMultiplexed => "CELL_MULTIPLEXED"
  | .cellRetired => "CELL_RETIRED"
  | .channelDegraded => "CHANNEL_DEGRADED"
  | .chunkCorrupt => "CHUNK_CORRUPT"
  | .chunkUndelivered => "CHUNK_UNDELIVERED"
  | .ckptBusy => "CKPT_BUSY"
  | .ckptComplete => "CKPT_COMPLETE"
  | .ckptDomain => "CKPT_DOMAIN"
  | .ckptFailed => "CKPT_FAILED"
  | .ckptFallback => "CKPT_FALLBACK"
  | .ckptSkipped => "CKPT_SKIPPED"
  | .claimConflict => "CLAIM_CONFLICT"
  | .claimReleased => "CLAIM_RELEASED"
  | .claimShort => "CLAIM_SHORT"
  | .claimTaken => "CLAIM_TAKEN"
  | .clearingsExist => "CLEARINGS_EXIST"
  | .clearingAbsent => "CLEARING_ABSENT"
  | .clearingBusy => "CLEARING_BUSY"
  | .clearingCreated => "CLEARING_CREATED"
  | .clearingDestroyed => "CLEARING_DESTROYED"
  | .clearingExists => "CLEARING_EXISTS"
  | .clearingIncomplete => "CLEARING_INCOMPLETE"
  | .clearingInUse => "CLEARING_IN_USE"
  | .clearingRefused => "CLEARING_REFUSED"
  | .collFailed => "COLL_FAILED"
  | .collTimeout => "COLL_TIMEOUT"
  | .commissionFull => "COMMISSION_FULL"
  | .coolantLow => "COOLANT_LOW"
  | .copierShort => "COPIER_SHORT"
  | .countersShort => "COUNTERS_SHORT"
  | .counterSaturated => "COUNTER_SATURATED"
  | .cryptoError => "CRYPTO_ERROR"
  | .cryptoUnavailable => "CRYPTO_UNAVAILABLE"
  | .cultureConflict => "CULTURE_CONFLICT"
  | .cultureFillFailed => "CULTURE_FILL_FAILED"
  | .deadlineMissed => "DEADLINE_MISSED"
  | .deadlineUnreachable => "DEADLINE_UNREACHABLE"
  | .dieFault => "DIE_FAULT"
  | .entryAbsent => "ENTRY_ABSENT"
  | .entryReadOnly => "ENTRY_READ_ONLY"
  | .evlogGone => "EVLOG_GONE"
  | .fieldIdInvalid => "FIELD_ID_INVALID"
  | .floorLowered => "FLOOR_LOWERED"
  | .fwFallback => "FW_FALLBACK"
  | .fwUnverified => "FW_UNVERIFIED"
  | .groveFailed => "GROVE_FAILED"
  | .healthInvalid => "HEALTH_INVALID"
  | .healthSampleLost => "HEALTH_SAMPLE_LOST"
  | .healthTrip => "HEALTH_TRIP"
  | .hwFault => "HW_FAULT"
  | .identityTags => "IDENTITY_TAGS"
  | .identMismatch => "IDENT_MISMATCH"
  | .jobFailed => "JOB_FAILED"
  | .keyAbsent => "KEY_ABSENT"
  | .keyBinding => "KEY_BINDING"
  | .keyRefused => "KEY_REFUSED"
  | .keyStale => "KEY_STALE"
  | .keyTenantConflict => "KEY_TENANT_CONFLICT"
  | .kvEvicted => "KV_EVICTED"
  | .kvPageLost => "KV_PAGE_LOST"
  | .kvPoolBusy => "KV_POOL_BUSY"
  | .kvPoolQuota => "KV_POOL_QUOTA"
  | .kvSpreadMismatch => "KV_SPREAD_MISMATCH"
  | .laneSpared => "LANE_SPARED"
  | .late => "LATE"
  | .loadDone => "LOAD_DONE"
  | .loadFailed => "LOAD_FAILED"
  | .lost => "LOST"
  | .managerAbsent => "MANAGER_ABSENT"
  | .managerCommissioned => "MANAGER_COMMISSIONED"
  | .marginLow => "MARGIN_LOW"
  | .memoryLost => "MEMORY_LOST"
  | .microprogAbsent => "MICROPROG_ABSENT"
  | .microprogBusy => "MICROPROG_BUSY"
  | .microprogInvalid => "MICROPROG_INVALID"
  | .moduleHeld => "MODULE_HELD"
  | .moduleRun => "MODULE_RUN"
  | .neighbourChanged => "NEIGHBOUR_CHANGED"
  | .neighbourNew => "NEIGHBOUR_NEW"
  | .notHeld => "NOT_HELD"
  | .notLeader => "NOT_LEADER"
  | .noSeed => "NO_SEED"
  | .outputReady => "OUTPUT_READY"
  | .pauseExpired => "PAUSE_EXPIRED"
  | .pauseLost => "PAUSE_LOST"
  | .pauseRefused => "PAUSE_REFUSED"
  | .planAccepted => "PLAN_ACCEPTED"
  | .planClearing => "PLAN_CLEARING"
  | .planForeign => "PLAN_FOREIGN"
  | .planIncomplete => "PLAN_INCOMPLETE"
  | .planPartConflict => "PLAN_PART_CONFLICT"
  | .planStopped => "PLAN_STOPPED"
  | .planWithdrawn => "PLAN_WITHDRAWN"
  | .programConflict => "PROGRAM_CONFLICT"
  | .quotaBusy => "QUOTA_BUSY"
  | .quotaInUse => "QUOTA_IN_USE"
  | .quotaShort => "QUOTA_SHORT"
  | .regBudget => "REG_BUDGET"
  | .regOvercommit => "REG_OVERCOMMIT"
  | .rejoinDone => "REJOIN_DONE"
  | .rejoinNoSpare => "REJOIN_NO_SPARE"
  | .remapFull => "REMAP_FULL"
  | .remargin => "REMARGIN"
  | .remoteForeign => "REMOTE_FOREIGN"
  | .remoteTimeout => "REMOTE_TIMEOUT"
  | .reqAccepted => "REQ_ACCEPTED"
  | .reqEnded => "REQ_ENDED"
  | .reqInvalid => "REQ_INVALID"
  | .reqUnknown => "REQ_UNKNOWN"
  | .reservedSet => "RESERVED_SET"
  | .restoreNone => "RESTORE_NONE"
  | .rewardRefused => "REWARD_REFUSED"
  | .ringShort => "RING_SHORT"
  | .roleDenied => "ROLE_DENIED"
  | .scoreFailed => "SCORE_FAILED"
  | .scratchForeign => "SCRATCH_FOREIGN"
  | .scratchLost => "SCRATCH_LOST"
  | .sessionsFull => "SESSIONS_FULL"
  | .sessionProof => "SESSION_PROOF"
  | .sessionReplay => "SESSION_REPLAY"
  | .sessionTag => "SESSION_TAG"
  | .sessionUnknown => "SESSION_UNKNOWN"
  | .shardCorrupt => "SHARD_CORRUPT"
  | .shardForeign => "SHARD_FOREIGN"
  | .shardMismatch => "SHARD_MISMATCH"
  | .shardMissing => "SHARD_MISSING"
  | .shareBudget => "SHARE_BUDGET"
  | .shareLow => "SHARE_LOW"
  | .shrinkDone => "SHRINK_DONE"
  | .signalForeign => "SIGNAL_FOREIGN"
  | .singularClamped => "SINGULAR_CLAMPED"
  | .slotCrc => "SLOT_CRC"
  | .slotDone => "SLOT_DONE"
  | .slotInvalid => "SLOT_INVALID"
  | .slotRefused => "SLOT_REFUSED"
  | .snapshotFailed => "SNAPSHOT_FAILED"
  | .spareInDone => "SPARE_IN_DONE"
  | .stackDegraded => "STACK_DEGRADED"
  | .startFailed => "START_FAILED"
  | .storeBusy => "STORE_BUSY"
  | .storeDefaults => "STORE_DEFAULTS"
  | .storeDone => "STORE_DONE"
  | .storeRecordSkipped => "STORE_RECORD_SKIPPED"
  | .straggler => "STRAGGLER"
  | .tagCrc => "TAG_CRC"
  | .tagInvalid => "TAG_INVALID"
  | .tagMissing => "TAG_MISSING"
  | .testOverdue => "TEST_OVERDUE"
  | .thermalTrip => "THERMAL_TRIP"
  | .thermalTripped => "THERMAL_TRIPPED"
  | .thermalWarn => "THERMAL_WARN"
  | .tierForeign => "TIER_FOREIGN"
  | .tileBanks => "TILE_BANKS"
  | .tileFlags => "TILE_FLAGS"
  | .tileFormat => "TILE_FORMAT"
  | .tileOverlap => "TILE_OVERLAP"
  | .tileRole => "TILE_ROLE"
  | .tileTooLong => "TILE_TOO_LONG"
  | .tileWcetBad => "TILE_WCET_BAD"
  | .transferBusy => "TRANSFER_BUSY"
  | .transferKind => "TRANSFER_KIND"
  | .transferOrder => "TRANSFER_ORDER"
  | .transposeFormat => "TRANSPOSE_FORMAT"
  | .trigExhausted => "TRIG_EXHAUSTED"
  | .trigInvalid => "TRIG_INVALID"
  | .turnBusy => "TURN_BUSY"
  | .turnDisciplineMismatch => "TURN_DISCIPLINE_MISMATCH"
  | .turnDone => "TURN_DONE"
  | .turnFailed => "TURN_FAILED"
  | .turnPoolQuota => "TURN_POOL_QUOTA"
  | .turnPoolSmall => "TURN_POOL_SMALL"
  | .typeMismatch => "TYPE_MISMATCH"
  | .understoryFail => "UNDERSTORY_FAIL"
  | .updateSkipped => "UPDATE_SKIPPED"
  | .valueRange => "VALUE_RANGE"
  | .versionSuperseded => "VERSION_SUPERSEDED"
  | .wallConflict => "WALL_CONFLICT"

end Sys2Proof.Machine
end

