-- ==== Sys2Proof/Machine/Bytes.lean ====
section
/-! DEFINITION. Byte order, bit fields, checks and digests shared by every structure of the module: little-endian
fields (00 R8), CRC-32C, SHA-256, HMAC and HKDF (19 R401), and the code of a name (17 R360). -/

namespace Sys2Proof.Machine

/-- A number read from bytes, little-endian (00 R8). -/
def leNat : List Byte → Nat
  | [] => 0
  | b :: bs => b.toNat + 256 * leNat bs

/-- The `w` bytes of a number, little-endian (00 R8). -/
def leBytes : Nat → Nat → List Byte
  | 0, _ => []
  | w + 1, v => BitVec.ofNat 8 v :: leBytes w (v / 256)

/-- `n` zero bytes. -/
def zeros (n : Nat) : List Byte := List.replicate n 0

/-- The `n` bytes of `b` from offset `off`, zeros where `b` is shorter. -/
def slice (b : List Byte) (off n : Nat) : List Byte :=
  let p := (b.drop off).take n
  p ++ zeros (n - p.length)

/-- The little-endian field of `n` bytes at offset `off`. -/
def field (b : List Byte) (off n : Nat) : Nat := leNat ((b.drop off).take n)

/-- `b` with `v` written over its bytes from `off`; `b` is extended with zeros where it ends earlier. -/
def overwrite (b : List Byte) (off : Nat) (v : List Byte) : List Byte :=
  slice b 0 off ++ v ++ b.drop (off + v.length)

/-- The bytes of an ASCII word of the manual. -/
def ascii (t : String) : List Byte := t.toList.map fun c => BitVec.ofNat 8 c.toNat

/-- Whether every byte is zero. -/
def allZero (b : List Byte) : Bool := b.all (· == 0)

/-- One bit of the CRC-32C register. -/
def crcBit (c : Nat) : Nat := if c.testBit 0 then (c >>> 1) ^^^ 0x82F63B78 else c >>> 1

/-- CRC-32C of a byte string: reflected Castagnoli polynomial, initial value and final exclusive-or all ones. -/
def crc32c (b : List Byte) : Nat :=
  (b.foldl (fun c x =>
    crcBit (crcBit (crcBit (crcBit (crcBit (crcBit (crcBit (crcBit (c ^^^ x.toNat))))))))) 0xFFFFFFFF) ^^^ 0xFFFFFFFF

/-! ### SHA-256 (FIPS 180-4) -/

/-- The number a big-endian byte string writes. -/
def beNat (b : List Byte) : Nat := b.foldl (fun a x => a * 256 + x.toNat) 0

/-- The `w` bytes of a number, big-endian. -/
def beBytes (w v : Nat) : List Byte := (leBytes w v).reverse

/-- A 32-bit rotation to the right. -/
def rotr (x n : Nat) : Nat := (x >>> n) ||| ((x <<< (32 - n)) % pow2 32)

/-- The eight 32-bit words of a 256-bit number, the most significant first. -/
def eightWords (x : Nat) : List Nat := (List.range 8).map fun i => x >>> (32 * (7 - i)) % pow2 32

/-- The round constants, eight to a number: the first 32 bits of the fraction of the cube root of each of the first 64
primes (`test_sha_constants` computes them from the primes). -/
def shaK : List Nat :=
  ([0x428a2f9871374491b5c0fbcfe9b5dba53956c25b59f111f1923f82a4ab1c5ed5,
    0xd807aa9812835b01243185be550c7dc372be5d7480deb1fe9bdc06a7c19bf174,
    0xe49b69c1efbe47860fc19dc6240ca1cc2de92c6f4a7484aa5cb0a9dc76f988da,
    0x983e5152a831c66db00327c8bf597fc7c6e00bf3d5a7914706ca635114292967,
    0x27b70a852e1b21384d2c6dfc53380d13650a7354766a0abb81c2c92e92722c85,
    0xa2bfe8a1a81a664bc24b8b70c76c51a3d192e819d6990624f40e3585106aa070,
    0x19a4c1161e376c082748774c34b0bcb5391c0cb34ed8aa4a5b9cca4f682e6ff3,
    0x748f82ee78a5636f84c878148cc7020890befffaa4506cebbef9a3f7c67178f2]).flatMap eightWords

/-- The initial digest value: the same of the square roots of the first eight primes. -/
def shaInit : List Nat := eightWords 0x6a09e667bb67ae853c6ef372a54ff53a510e527f9b05688c1f83d9ab5be0cd19

/-- `n` further words of the message schedule; the words so far are held newest first. -/
def shaSchedule : Nat → List Nat → List Nat
  | 0, r => r
  | n + 1, r =>
    let a := r.getD 1 0
    let b := r.getD 14 0
    let s1 := rotr a 17 ^^^ rotr a 19 ^^^ (a >>> 10)
    let s0 := rotr b 7 ^^^ rotr b 18 ^^^ (b >>> 3)
    shaSchedule n (((s1 + r.getD 6 0 + s0 + r.getD 15 0) % pow2 32) :: r)

/-- One round over the working variables `a` to `h`. -/
def shaRound (v : List Nat) (kw : Nat × Nat) : List Nat :=
  match v with
  | [a, b, c, d, e, f, g, h] =>
    let s1 := rotr e 6 ^^^ rotr e 11 ^^^ rotr e 25
    let ch := (e &&& f) ^^^ ((e ^^^ 0xFFFFFFFF) &&& g)
    let t1 := h + s1 + ch + kw.1 + kw.2
    let s0 := rotr a 2 ^^^ rotr a 13 ^^^ rotr a 22
    let maj := (a &&& b) ^^^ (a &&& c) ^^^ (b &&& c)
    [(t1 + s0 + maj) % pow2 32, a, b, c, (d + t1) % pow2 32, e, f, g]
  | w => w

/-- One block of 64 bytes into the digest. -/
def shaBlock (h : List Nat) (blk : List Byte) : List Nat :=
  let w0 := (List.range 16).map fun i => beNat ((blk.drop (4 * i)).take 4)
  let w := (shaSchedule 48 w0.reverse).reverse
  let v := (shaK.zip w).foldl shaRound h
  (h.zip v).map fun p => (p.1 + p.2) % pow2 32

/-- `n` blocks of a padded message. -/
def shaBlocks : Nat → List Nat → List Byte → List Nat
  | 0, h, _ => h
  | n + 1, h, b => shaBlocks n (shaBlock h (b.take 64)) (b.drop 64)

/-- SHA-256 of a byte string, 32 bytes. -/
def sha256 (m : List Byte) : List Byte :=
  let k := (119 - m.length % 64) % 64
  let p := m ++ [0x80] ++ zeros k ++ beBytes 8 (8 * m.length)
  ((shaBlocks (p.length / 64) shaInit p).map (beBytes 4)).flatten

/-- HMAC-SHA-256. -/
def hmac (key m : List Byte) : List Byte :=
  let k0 := if key.length > 64 then sha256 key else key
  let k := slice k0 0 64
  sha256 (k.map (· ^^^ 0x5c) ++ sha256 (k.map (· ^^^ 0x36) ++ m))

/-- The expansion step of HKDF: `n` further blocks, numbered from `i`. -/
def hkdfBlocks : Nat → List Byte → List Byte → List Byte → Nat → List Byte
  | 0, _, _, _, _ => []
  | n + 1, prk, info, t, i =>
    let t' := hmac prk (t ++ info ++ [BitVec.ofNat 8 i])
    t' ++ hkdfBlocks n prk info t' (i + 1)

/-- HKDF-Expand with SHA-256 (RFC 5869). -/
def hkdfExpand (prk info : List Byte) (len : Nat) : List Byte :=
  (hkdfBlocks (ceilDiv len 32) prk info [] 1).take len

/-- HKDF-SHA-256 (RFC 5869); an empty salt is 32 zero bytes. -/
def hkdf (ikm salt info : List Byte) (len : Nat) : List Byte :=
  hkdfExpand (hmac (if salt.isEmpty then zeros 32 else salt) ikm) info len

/-- The 32-bit code a status or event name is carried as (17 R360); OK is 0. -/
def Name.code : Name → Nat
  | .ok => 0
  | n => leNat ((sha256 (ascii n.spelling)).take 4)

/-- The bytes form valid UTF-8 (00 R11): no overlong form, no surrogate, nothing above U+10FFFF. -/
def utf8Valid : Nat → List Byte → Bool
  | 0, b => b.isEmpty
  | _ + 1, [] => true
  | n + 1, b :: bs =>
    let x := b.toNat
    let cont (k : Nat) := ((bs.take k).length == k) && (bs.take k).all fun c => c.toNat / 64 == 2
    let y := (bs.headD 0).toNat
    if x < 0x80 then utf8Valid n bs
    else if 0xC2 ≤ x && x ≤ 0xDF then cont 1 && utf8Valid n (bs.drop 1)
    else if 0xE0 ≤ x && x ≤ 0xEF then
      cont 2 && !(x == 0xE0 && y < 0xA0) && !(x == 0xED && 0x9F < y) && utf8Valid n (bs.drop 2)
    else if 0xF0 ≤ x && x ≤ 0xF4 then
      cont 3 && !(x == 0xF0 && y < 0x90) && !(x == 0xF4 && 0x8F < y) && utf8Valid n (bs.drop 3)
    else false

/-- The transpose of a block of 32 × 32 elements of `w` bytes. -/
def transposeBlock (w : Nat) (b : List Byte) : List Byte :=
  (List.range 32).flatMap fun c => (List.range 32).flatMap fun r => slice b ((32 * r + c) * w) w

/-- Lines delivered by the transposing read path (03 R66). -/
def transposed (w : Nat) (b : List Byte) : List Byte :=
  (List.range (b.length / (1024 * w))).flatMap fun i => transposeBlock w (slice b (1024 * w * i) (1024 * w))

end Sys2Proof.Machine
end

