-- ==== Sys2Proof/Machine/Entries.lean ====
section
/-! DEFINITION. The Oxolaord dictionary's entries (18 R389): position, type, access code, read class, the clearing a
position belongs to, the values accepted, persistence and default, one row per entry of the manual's tables. -/

namespace Sys2Proof.Machine

/-- Data types (00 R11); STR and BLOB with their stated maximum. -/
inductive Ty where
  | u8
  | u16
  | u32
  | u64
  | i32
  | f32
  | bool
  | enum8
  | str (max : Nat)
  | blob (max : Nat)
deriving DecidableEq, Repr

/-- Access codes (00 R12). -/
inductive Acc where
  | ro
  | rw
  | wm
  | wt
  | wh
deriving DecidableEq, Repr

/-- Read classes (18 R385); `evlog` is R393's own rule. -/
inductive Cls where
  | all
  | clr
  | mgr
  | none
  | evlog
deriving DecidableEq, Repr

/-- How a position selects a clearing (18 R385): not at all, by index, by clearing block, by sub-index. -/
inductive Sel where
  | no
  | idx
  | sub
deriving DecidableEq, Repr

/-- The values a write may carry (17 R359, orders 6 and 7). -/
inductive Rng where
  /-- every value of the type -/
  | any
  /-- a stated range; outside it VALUE_RANGE -/
  | range (lo hi : Nat)
  /-- listed codes; any other RESERVED_SET -/
  | codes (l : List Nat)
  /-- bits from this one up are reserved -/
  | bits (n : Nat)
  /-- a multiple, up to a largest value; otherwise VALUE_RANGE -/
  | mult (m max : Nat)
deriving DecidableEq, Repr

/-- One row of the dictionary map: indices `base + stride * i` for `i < count`, sub-indices `subLo` to `subHi`. -/
structure Entry where
  name : String
  base : Nat
  stride : Nat
  count : Nat
  subLo : Nat
  subHi : Nat
  ty : Ty
  acc : Acc
  cls : Cls
  sel : Sel
  rng : Rng
  persist : Bool
  dflt : Nat
deriving DecidableEq, Repr

/-- A constant or state read by everyone, at one index. -/
def Entry.plain (name : String) (idx lo hi : Nat) (ty : Ty) (dflt : Nat) : Entry :=
  ⟨name, idx, 1, 1, lo, hi, ty, .ro, .all, .no, .any, false, dflt⟩

/-- A module-wide entry the manager (or `acc`) writes, read by everyone. -/
def Entry.set (name : String) (idx sub : Nat) (ty : Ty) (acc : Acc) (rng : Rng) (persist : Bool) (dflt : Nat) : Entry :=
  ⟨name, idx, 1, 1, sub, sub, ty, acc, .all, .no, rng, persist, dflt⟩

/-- An entry of clearing `n` at index `base + n`. -/
def Entry.clr (name : String) (base lo hi : Nat) (ty : Ty) (acc : Acc) (rng : Rng) (dflt : Nat) : Entry :=
  ⟨name, base, 1, 64, lo, hi, ty, acc, .clr, .idx, rng, false, dflt⟩

/-- An entry of clearing `n` at sub-index `n` of `count` indices. -/
def Entry.bySub (name : String) (base count : Nat) (ty : Ty) (acc : Acc) (rng : Rng) (dflt : Nat) : Entry :=
  ⟨name, base, 1, count, 0, 63, ty, acc, .clr, .sub, rng, false, dflt⟩

/-- An entry of clearing `n`'s block at 2000h + 10h * n + k (12 R255). -/
def Entry.block (name : String) (k lo hi : Nat) (ty : Ty) (acc : Acc) (cls : Cls) (rng : Rng) (dflt : Nat) : Entry :=
  ⟨name, 0x2000 + k, 16, 64, lo, hi, ty, acc, cls, .idx, rng, false, dflt⟩

/-- An entry of port `p`'s block at 5000h + 10h * p + k (14 R314). -/
def Entry.port (name : String) (k sub : Nat) (ty : Ty) (acc : Acc) (cls : Cls) (rng : Rng) (persist : Bool)
    (dflt : Nat) : Entry :=
  ⟨name, 0x5000 + k, 16, 32, sub, sub, ty, acc, cls, .no, rng, persist, dflt⟩

/-- An entry the manager alone reads, over `count` indices. -/
def Entry.mgr (name : String) (base count lo hi : Nat) (ty : Ty) (dflt : Nat) : Entry :=
  ⟨name, base, 1, count, lo, hi, ty, .ro, .mgr, .no, .any, false, dflt⟩

/-- Rows of `entries1`. -/
def entries1a : List Entry :=
  [ .plain "PART_NUMBER" 0x1000 1 1 (.str 16) 0,
    .plain "GENERATION" 0x1000 2 2 .u8 2,
    .plain "SCALE_ID" 0x1000 3 3 .u32 0x0016A054,
    .plain "FIELD_MAC" 0x1001 1 1 .u64 0,
    .plain "FIELD_NODE" 0x1001 2 2 .u8 0,
    .plain "SERIAL" 0x1002 1 1 (.str 16) 0,
    .plain "MFG_WEEK" 0x1002 2 2 .u16 0,
    .set "MODULE_NUMBER" 0x1003 1 .u16 .wh (.bits 14) true 0,
    .plain "MODULE_COORD" 0x1003 2 2 .u32 0,
    .plain "GROVES" 0x1010 1 1 .u8 0x10,
    .plain "CELLS_ACTIVE" 0x1010 2 2 .u16 0x100,
    .plain "CELLS_PHYSICAL" 0x1010 3 3 .u16 0x110,
    .plain "SCRATCH_BYTES" 0x1010 4 4 .u32 0x100000,
    .plain "SIDE_BYTES" 0x1010 5 5 .u32 0x10000,
    .plain "CMD_SLOTS" 0x1010 6 6 .u8 8,
    .plain "TILE_BEATS_MAX" 0x1010 7 7 .u16 0x1000,
    .plain "HBM_STACKS" 0x1010 8 8 .u8 0xC,
    .plain "HBM_STACK_BYTES" 0x1010 9 9 .u64 0x1000000000,
    .plain "CELLAR_CHANNELS" 0x1010 0xA 0xA .u8 0x20,
    .plain "CELLAR_BYTES" 0x1010 0xB 0xB .u64 0x20000000000 ]

/-- Rows of `entries1`. -/
def entries1b : List Entry :=
  [ .plain "LINK_PORTS" 0x1010 0xC 0xC .u8 0x20,
    .plain "TORUS_PORTS" 0x1010 0xD 0xD .u8 0x18,
    .plain "TORUS_SHAPE" 0x1010 0xE 0xE .u32 0x08081010,
    .plain "FOREST_MAX" 0x1010 0xF 0xF .u16 0x4000,
    .plain "CLEARINGS_MAX" 0x1010 0x10 0x10 .u8 0x40,
    .plain "SUBMIT_SLOTS" 0x1010 0x11 0x11 .u8 0x40,
    .plain "SUBMIT_SLOT_BYTES" 0x1010 0x12 0x12 .u32 0x10000,
    .plain "HUB_SRAM_BYTES" 0x1010 0x13 0x13 .u32 0x4000000,
    .plain "CULTURE_WORDS" 0x1010 0x14 0x14 .u16 0x2000,
    .plain "MICROPROG_ENTRIES" 0x1010 0x15 0x15 .u8 0x40,
    .plain "KV_PAGE_TOKENS" 0x1010 0x16 0x16 .u16 0x100 ]

/-- Rows of `entries1`. -/
def entries1c : List Entry :=
  [ .plain "POWER_STATE" 0x1100 1 1 .enum8 0,
    .set "POWER_CMD" 0x1100 2 .enum8 .wm (.codes [1, 2]) false 0,
    .set "POWER_CAP_W" 0x1100 3 .u16 .wm (.range 1200 2600) true 0xA28,
    .plain "INPUT_MV" 0x1100 4 4 .u32 0,
    .plain "INPUT_MA" 0x1100 5 5 .u32 0,
    .plain "INPUT_W" 0x1100 6 6 .u16 0,
    .plain "ENERGY_J" 0x1100 7 7 .u64 0,
    .plain "CAP_LIMITED_MS" 0x1100 8 8 .u64 0,
    .plain "SUPPLY_MV" 0x1101 1 0x10 .u16 0,
    .plain "FLOOR_RATE" 0x1110 1 0x19 .u16 0x4B0,
    .plain "FLOOR_EPOCH" 0x1111 1 0x19 .u32 0,
    .plain "RATE_NOW" 0x1112 1 0x19 .u16 0,
    .plain "BEATS_ELAPSED" 0x1113 1 0x19 .u64 0,
    .plain "RATE_MAX" 0x1114 1 1 .u16 0x802,
    .plain "TEMP_JUNCTION" 0x1120 1 0x19 .i32 0,
    .plain "COOLANT_IN" 0x1121 1 1 .i32 0,
    .plain "COOLANT_OUT" 0x1121 2 2 .i32 0,
    .plain "COOLANT_FLOW" 0x1121 3 3 .u32 0,
    .set "THERM_WARN_C" 0x1122 1 .u8 .wm (.range 85 105) true 0x69,
    .plain "THERM_TRIP_C" 0x1122 2 2 .u8 0x73 ]

/-- Rows of `entries1`. -/
def entries1d : List Entry :=
  [ .set "AGEING_POLICY" 0x1130 1 .enum8 .wh (.codes [0, 1, 2, 3]) true 3,
    .set "MARGIN_THRESHOLD" 0x1130 2 .u8 .wh (.range 2 30) true 8,
    .plain "MARGIN_MIN" 0x1131 1 0x10 .u16 0,
    .plain "START_PHASE" 0x1200 1 1 .enum8 0,
    .plain "START_MS" 0x1200 2 2 .u32 0,
    .set "MODULE_RESET" 0x1200 3 .enum8 .wm (.codes [1]) false 0,
    .plain "FW_ACTIVE" 0x1201 1 1 .enum8 0,
    .plain "FW_VERSION_A" 0x1201 2 2 .u32 0,
    .plain "FW_VERSION_B" 0x1201 3 3 .u32 0,
    .plain "FW_IMAGE_MAX" 0x1201 4 4 .u32 0x1000000 ]

/-- Rows of `entries1`. -/
def entries1e : List Entry :=
  [ .set "FW_STAGE_OFFSET" 0x1202 1 .u32 .wh (.mult 65536 0xFF0000) false 0,
    .set "FW_STAGE_DATA" 0x1202 2 (.blob 65536) .wh .any false 0,
    .set "FW_STAGE_CMD" 0x1202 3 .enum8 .wh (.codes [1, 2, 3]) false 0,
    .plain "FW_STAGE_STATUS" 0x1202 4 4 .u32 0,
    .set "STORE_CMD" 0x1210 1 .enum8 .wm (.codes [1, 2]) false 0,
    .plain "STORE_STATE" 0x1210 2 2 .enum8 0,
    .plain "STORE_LOADED" 0x1210 3 3 .enum8 0xFF,
    .plain "STORE_SEQ" 0x1210 4 4 .u32 0,
    .plain "STORE_WRITES" 0x1210 5 5 .u32 0,
    .plain "STORE_SKIPPED" 0x1210 6 6 .u32 0,
    .plain "BANK_BYTES" 0x1210 7 7 .u32 0x100000 ]

/-- Identity, scale table, power, thermal, ageing, start-up, firmware, banks (01 R23, R24; 02 R31; 18 R390 to R392;
17 R384). -/
def entries1 : List Entry := entries1a ++ entries1b ++ entries1c ++ entries1d ++ entries1e

/-- Rows of `entries2`. -/
def entries2a : List Entry :=
  [ .block "CLEAR_STATE" 0 1 1 .enum8 .ro .all .any 0,
    .block "CLEAR_KIND" 0 2 2 .enum8 .wm .clr (.codes [0, 1]) 0,
    .block "TENANT" 0 3 3 .u32 .wm .clr .any 0,
    .block "JOB" 0 4 4 .u32 .wm .clr .any 0,
    .block "JOB_ROLE" 0 5 5 .enum8 .wm .clr (.codes [0, 1, 2, 3]) 0,
    .block "SHARE_WEIGHT" 0 6 6 .u8 .wm .clr (.range 1 255) 1,
    .block "PRIORITY" 0 7 7 .u8 .wm .clr (.range 0 3) 0,
    .block "CLAIM_HOLD_US" 0 8 8 .u32 .wm .clr (.range 10 1000000) 0x3E8,
    .block "CELL_COUNT" 0 9 9 .u16 .ro .clr .any 0,
    .block "CLAIMED_CELLS" 0 0xA 0xA .u16 .ro .clr .any 0,
    .block "CLAIMABLE" 0 0xB 0xB .bool .ro .clr .any 0,
    .block "CELL_MAP" 1 1 0x10 (.blob 32) .wm .clr .any 32,
    .block "CLAIM_MAP" 2 1 0x10 (.blob 32) .wm .clr .any 32,
    .block "CLEAR_CMD" 0xF 1 1 .enum8 .wm .clr (.codes [1, 2, 3]) 0,
    .plain "REG_PERIOD_BEATS" 0x2400 1 1 .u16 0x400,
    .plain "REG_SHARE_UNIT" 0x2400 2 2 .u16 0x1000,
    .set "REG_DEPTH" 0x2400 3 .u8 .wm (.range 1 16) true 2,
    .plain "SPILL_ALLOWANCE" 0x2400 4 4 .u16 0x100,
    .clr "REG_SHARE" 0x2410 1 5 .u16 .wm (.range 0 4096) 0,
    .clr "REG_SHARE" 0x2410 0x20 0x3F .u16 .wm (.range 0 4096) 0 ]

/-- Rows of `entries2`. -/
def entries2b : List Entry :=
  [ .bySub "REG_MODE" 0x2450 1 .enum8 .wm (.codes [0, 1]) 0,
    .clr "REG_BYTES" 0x2460 1 5 .u64 .ro .any 0,
    .clr "REG_BYTES" 0x2460 0x20 0x3F .u64 .ro .any 0,
    .clr "REG_BORROWED" 0x24A0 1 5 .u64 .ro .any 0,
    .clr "REG_BORROWED" 0x24A0 0x20 0x3F .u64 .ro .any 0,
    .plain "ROLE_CHANGE_BEATS" 0x3000 1 1 .u16 0x60,
    .plain "PROGRAM_LOAD_MAX" 0x3000 2 2 .u16 0x108,
    .plain "SR_BITS_WIDE" 0x3000 3 3 .u8 4,
    .plain "SR_BITS_FP4" 0x3000 4 4 .u8 3,
    .plain "UPDATE_OPS_MAX" 0x3000 5 5 .u8 0x10,
    .plain "PRECOND_DIM" 0x3000 6 6 .u16 0x80,
    .mgr "CELL_ROLE" 0x3010 16 0 255 .u64 0 ]

/-- Rows of `entries2`. -/
def entries2c : List Entry :=
  [ .bySub "ACC_MODE" 0x3020 1 .enum8 .wt (.codes [0, 1]) 0,
    .bySub "ROUND_MODE" 0x3021 1 .enum8 .wt (.codes [0, 1]) 0,
    .bySub "SFN_SET" 0x3022 1 .enum8 .wt (.codes [0, 1]) 0,
    .bySub "TRAIN_MASKS" 0x3023 1 .enum8 .wt (.codes [0, 1]) 0,
    .plain "FILL_TIME_MAX" 0x3100 1 1 .u16 0x96,
    .plain "DRAWS_PER_BEAT" 0x3100 2 2 .u8 0x80,
    .bySub "CULTURE_SEED" 0x3110 1 .u64 .wt .any 0,
    .plain "TABLE_STATE" 0x3120 1 0x10 .enum8 0,
    .mgr "TABLE_CRC" 0x3121 1 1 0x10 .u32 0,
    .mgr "TABLE_HOLDERS" 0x3122 1 1 0x10 .u64 0,
    .mgr "TABLE_FILLS" 0x3123 1 1 0x10 .u32 0,
    .plain "SFN_STEPS_MAX" 0x3200 1 1 .u8 0x18,
    .plain "SFN_LATENCY" 0x3200 2 2 .u8 0x18,
    .plain "MP_RECORDS" 0x3200 3 3 .u16 0x800,
    .set "MP_TABLE" 0x3201 1 (.blob 65536) .wm .any true 65536,
    ⟨"MP_STEPS", 0x3240, 1, 64, 1, 1, .blob 96, .wm, .all, .no, .any, true, 96⟩,
    ⟨"MP_TABLE_BASE", 0x3240, 1, 64, 2, 2, .u16, .wm, .all, .no, .any, true, 0⟩,
    ⟨"MP_TABLE_LEN", 0x3240, 1, 64, 3, 3, .u16, .wm, .all, .no, .any, true, 0⟩,
    ⟨"MP_STATE", 0x3240, 1, 64, 4, 4, .enum8, .ro, .all, .no, .any, false, 0⟩,
    ⟨"MP_CLAMPED", 0x3240, 1, 64, 5, 5, .bool, .ro, .all, .no, .any, false, 0⟩ ]

/-- Rows of `entries2`. -/
def entries2d : List Entry :=
  [ ⟨"MP_CRC", 0x3240, 1, 64, 6, 6, .u32, .ro, .all, .no, .any, false, 0⟩ ]

/-- Clearing blocks, regulators, roles, modes, culture table, micro-program store (12 R255, R265; 03 R45; 04 R73;
05 R98; 06 R128, R132; 09 R188, R207). -/
def entries2 : List Entry := entries2a ++ entries2b ++ entries2c ++ entries2d

/-- Rows of `entries3`. -/
def entries3a : List Entry :=
  [ .plain "HBM_BLOCK_BYTES" 0x4000 1 1 .u32 0x200000,
    .plain "HBM_QUOTA_UNIT" 0x4000 2 2 .u32 0x1800000,
    .plain "CELLAR_QUOTA_UNIT" 0x4000 3 3 .u32 0x800000,
    .plain "HBM_ASSIGNABLE" 0x4000 4 4 .u64 0xBFE8000000,
    .plain "CELLAR_ASSIGNABLE" 0x4000 5 5 .u64 0x1FFFE000000,
    .plain "SPILL_PER_CELL" 0x4000 6 6 .u32 0x110000,
    .set "MEMORY_ENCRYPT" 0x4000 7 .enum8 .wm (.codes [0, 1]) true 1,
    .plain "MOVE_LINES_MAX" 0x4000 8 8 .u16 0x800,
    .plain "COPY_BLOCK_US_MAX" 0x4000 9 9 .u16 0xC,
    .plain "HBM_REMAP_USED" 0x4010 1 0xC .u16 0,
    .plain "HBM_CORRECTED" 0x4011 1 0xC .u64 0,
    .plain "HBM_UNCORRECTED" 0x4012 1 0xC .u64 0,
    .clr "SCRATCH_GRANULES" 0x4040 1 1 .u8 .wm (.range 0 64) 0,
    .clr "SIDE_GRANULES" 0x4040 2 2 .u8 .wm (.range 0 16) 0,
    .clr "HBM_BYTES" 0x4040 3 3 .u64 .wm (.mult 0x1800000 0xFFFFFFFFFFFFFFFF) 0,
    .clr "CELLAR_BYTES" 0x4040 4 4 .u64 .wm (.mult 0x800000 0xFFFFFFFFFFFFFFFF) 0,
    .clr "JOB_WINDOW_HBM" 0x4040 5 5 .u64 .wt (.mult 0x200000 0xFFFFFFFFFFFFFFFF) 0,
    .clr "JOB_WINDOW_CELLAR" 0x4040 6 6 .u64 .wt (.mult 0x200000 0xFFFFFFFFFFFFFFFF) 0,
    .clr "SPILL_BYTES" 0x4040 7 7 .u64 .ro .any 0,
    .clr "COPY_STALLS" 0x4040 8 8 .u64 .ro .any 0 ]

/-- Rows of `entries3`. -/
def entries3b : List Entry :=
  [ .clr "COPY_STALL_MAX" 0x4040 9 9 .u32 .ro .any 0,
    .clr "CELLAR_LATE" 0x4040 0xA 0xA .u64 .ro .any 0,
    .clr "CELLAR_LOST" 0x4040 0xB 0xB .u64 .ro .any 0,
    .clr "MEMORY_LOST" 0x4040 0xC 0xC .u64 .ro .any 0 ]

/-- Rows of `entries3`. -/
def entries3c : List Entry :=
  [ .clr "CKPT_PERIOD" 0x4080 1 1 .u32 .wt .any 0,
    .clr "BUDDY_EVEN_MODULE" 0x4080 2 2 .u16 .wm (.bits 14) 0,
    .clr "BUDDY_EVEN_CLEARING" 0x4080 3 3 .u8 .wm (.bits 6) 0,
    .clr "BUDDY_EVEN_OFFSET" 0x4080 4 4 .u64 .wm (.mult 0x200000 0xFFFFFFFFFFFFFFFF) 0,
    .clr "BUDDY_EVEN_DOMAIN" 0x4080 5 5 .u32 .wm .any 0,
    .clr "BUDDY_ODD_MODULE" 0x4080 6 6 .u16 .wm (.bits 14) 0,
    .clr "BUDDY_ODD_CLEARING" 0x4080 7 7 .u8 .wm (.bits 6) 0,
    .clr "BUDDY_ODD_OFFSET" 0x4080 8 8 .u64 .wm (.mult 0x200000 0xFFFFFFFFFFFFFFFF) 0,
    .clr "BUDDY_ODD_DOMAIN" 0x4080 9 9 .u32 .wm .any 0,
    .clr "CKPT_SLOT_BYTES" 0x4080 0xA 0xA .u64 .wm (.mult 0x200000 0xFFFFFFFFFFFFFFFF) 0,
    .clr "CKPT_STATE" 0x4080 0xB 0xB .enum8 .ro .any 0,
    .clr "CKPT_GEN_WRITING" 0x4080 0xC 0xC .u32 .ro .any 0,
    .clr "CKPT_GEN_COMPLETE" 0x4080 0xD 0xD .u32 .ro .any 0,
    .clr "CKPT_STEP_COMPLETE" 0x4080 0xE 0xE .u64 .ro .any 0,
    .clr "CKPT_TAKEN" 0x4080 0x10 0x10 .u64 .ro .any 0,
    .clr "CKPT_FAILS" 0x4080 0x11 0x11 .u64 .ro .any 0,
    .clr "CKPT_SKIPPED" 0x4080 0x12 0x12 .u64 .ro .any 0,
    .clr "CKPT_LAST_NS" 0x4080 0x13 0x13 .u64 .ro .any 0,
    .plain "COPIER_CHANNELS" 0x40C0 1 1 .u8 4,
    .mgr "COPIER_STATE" 0x40C1 1 1 4 .enum8 0 ]

/-- Rows of `entries3`. -/
def entries3d : List Entry :=
  [ .mgr "COPIER_CLEARING" 0x40C2 1 1 4 .u8 0xFF,
    .mgr "COPIER_BLOCKS_LEFT" 0x40C3 1 1 4 .u32 0,
    .plain "SHARD_HDR_BYTES" 0x40D0 1 1 .u8 0x40,
    .plain "MANIFEST_ENTRY_BYTES" 0x40D0 2 2 .u8 0x20,
    .plain "MANIFEST_REGION" 0x40D0 3 3 .u32 0x200000 ]

/-- Rows of `entries3`. -/
def entries3e : List Entry :=
  [ .plain "KV_DESC_BYTES" 0x4100 1 1 .u8 0x20,
    .plain "KV_WALK_BEATS" 0x4100 2 2 .u8 8,
    .plain "KV_HASH_INPUT" 0x4100 3 3 .u16 0x420,
    .clr "KV_POOL_PAGES" 0x4140 1 1 .u32 .wt .any 0,
    .clr "KV_WIDTH" 0x4140 2 2 .u16 .ro .any 0,
    .clr "KV_FORMAT" 0x4140 3 3 .enum8 .ro .any 1,
    .clr "KV_LAYERS" 0x4140 4 4 .u16 .ro .any 0,
    .clr "KV_HEADS" 0x4140 5 5 .u16 .ro .any 0,
    .clr "KV_SPREAD" 0x4140 6 6 .enum8 .wt (.codes [0, 1]) 0,
    .clr "KV_SPREAD_MEMBERS" 0x4140 7 7 .u8 .wt (.range 1 16) 1,
    .clr "KV_SPREAD_INDEX" 0x4140 8 8 .u8 .wt .any 0,
    .clr "KV_SEQ_SLOTS" 0x4140 9 9 .u16 .ro .any 0,
    .clr "KV_LOW_WATER" 0x4140 0xA 0xA .u32 .wt .any 0,
    .clr "KV_PAGE_BYTES" 0x4140 0xB 0xB .u64 .ro .any 0,
    .clr "KV_FREE" 0x4140 0xC 0xC .u32 .ro .any 0,
    .clr "KV_ACTIVE" 0x4140 0xD 0xD .u32 .ro .any 0,
    .clr "KV_SHARED" 0x4140 0xE 0xE .u32 .ro .any 0,
    .clr "KV_PREFIX_HITS to KV_HELD" 0x4140 0x10 0x15 .u64 .ro .any 0,
    .set "CELLAR_LATE_US" 0x4C00 1 .u16 .wm (.range 10 1000) true 0x32,
    .plain "CELLAR_PIECE" 0x4C00 2 2 .u16 0x1000 ]

/-- Rows of `entries3`. -/
def entries3f : List Entry :=
  [ .plain "CELLAR_GROUP_STATE" 0x4C01 1 4 .enum8 0,
    .set "CELLAR_TTL_ENABLE" 0x4C10 1 .bool .wm (.codes [0, 1]) true 1,
    .set "CELLAR_TTL" 0x4C10 2 .u32 .wm (.range 1 86400) true 0xE10,
    .plain "PAUSED_IMAGES" 0x4C10 3 3 .u32 0,
    .plain "PAUSE_EXPIRIES" 0x4C10 4 4 .u64 0,
    .plain "CELLAR_CORRECTED" 0x4C20 1 0x20 .u64 0,
    .plain "CELLAR_UNCORRECTED" 0x4C21 1 0x20 .u64 0,
    .plain "CELLAR_REMAP_USED" 0x4C22 1 0x20 .u16 0 ]

/-- Tiers, copier, checkpoints, key-value pool, cellar (11 R240, R247, R254; 15 R340; 07 R160; 08 R181). -/
def entries3 : List Entry := entries3a ++ entries3b ++ entries3c ++ entries3d ++ entries3e ++ entries3f

/-- Rows of `entries4`. -/
def entries4a : List Entry :=
  [ .port "PORT_MODE" 0 1 .enum8 .wh .all (.codes [0, 1, 2, 3, 4]) true 1,
    .port "PORT_STATE" 0 2 .enum8 .ro .all .any false 0,
    .port "LANE_SPARED" 0 3 .u8 .ro .all .any false 0xFF,
    .port "PEER_MODULE" 0 4 .u16 .ro .all .any false 0,
    .port "PEER_PORT" 0 5 .u8 .ro .all .any false 0,
    .port "PEER_ID" 0 6 (.blob 32) .ro .all .any false 32,
    .port "PEER_EXPECTED" 0 7 (.blob 32) .wm .all .any true 32,
    .port "CABLE_LEN" 0 8 .u16 .ro .all .any false 0,
    .port "CABLE_VENDOR" 0 9 (.str 16) .ro .all .any false 0,
    .port "CABLE_PN" 0 0xA (.str 16) .ro .all .any false 0,
    .port "CABLE_SN" 0 0xB (.str 16) .ro .all .any false 0,
    .port "TRANSIT_SHARE" 0 0xC .u16 .wm .all (.range 0 4096) true 0,
    .port "FEC_CORRECTED" 1 1 .u64 .ro .mgr .any false 0,
    .port "FEC_UNCORRECTED" 1 2 .u64 .ro .mgr .any false 0,
    .port "FLIT_REPLAYS" 1 3 .u64 .ro .mgr .any false 0,
    .port "RETRAINS" 1 4 .u32 .ro .mgr .any false 0,
    .port "TRANSIT_BYTES" 1 5 .u64 .ro .mgr .any false 0,
    .port "ROUTE_DROPS" 1 6 .u64 .ro .mgr .any false 0,
    .port "GW_MAC" 2 1 .u64 .wm .all (.bits 48) true 0,
    .port "GW_IPV6" 2 2 (.blob 16) .wm .all .any true 16 ]

/-- Rows of `entries4`. -/
def entries4b : List Entry :=
  [ .port "GW_UDP_PORT" 2 3 .u16 .wm .all .any true 0,
    .port "GW_VLAN" 2 4 .u16 .wm .all (.bits 12) true 0,
    .port "GW_AUTH_FAIL" 2 5 .u64 .ro .all .any false 0,
    .port "GW_PAUSE_RX" 2 6 .u64 .ro .all .any false 0 ]

/-- Rows of `entries4`. -/
def entries4c : List Entry :=
  [ .plain "TRIG_COUNTERS" 0x5200 1 1 .u16 0x400,
    .plain "TRIG_SLOTS" 0x5200 2 2 .u16 0x1000,
    .plain "CHUNK_BYTES" 0x5200 3 3 .u32 0x8000,
    .plain "CHUNK_RETRIES" 0x5200 4 4 .u8 3,
    .set "COLL_TIMEOUT_MS" 0x5200 5 .u16 .wm (.range 10 60000) true 0x3E8,
    .plain "ROUTE_HOP_MAX" 0x5200 6 6 .u8 0x1F,
    ⟨"ROUTE_TABLE", 0x5210, 1, 4, 1, 1, .blob 32768, .wh, .mgr, .no, .any, true, 32768⟩,
    .clr "TRIG_COUNTER_QUOTA" 0x5220 1 1 .u16 .wm .any 0,
    .clr "TRIG_SLOT_QUOTA" 0x5220 2 2 .u16 .wm .any 0,
    .clr "COLL_FAILS to CHUNKS_DUPLICATE" 0x5220 3 7 .u64 .ro .any 0,
    .plain "QUANTUM_BEATS" 0x6000 1 1 .u16 0x200,
    .plain "PICK_MAX_BEATS" 0x6000 2 2 .u16 0x1168,
    .plain "PARK_BEATS" 0x6000 3 3 .u8 0x40,
    .set "REMOTE_TIMEOUT_US" 0x6000 4 .u16 .wm (.range 10 10000) true 0x64,
    .bySub "BEATS_USED" 0x6001 16 .u64 .ro .any 0,
    .bySub "CELL_BEATS" 0x6011 16 (.blob 2048) .ro .any 2048,
    .bySub "CLAIMS, PREEMPTED" 0x6021 2 .u64 .ro .any 0,
    .bySub "CLAIM_NS_MAX" 0x6023 1 .u32 .ro .any 0,
    .bySub "REMOTE_PARKS to WCST_NS" 0x6024 4 .u64 .ro .any 0 ]

/-- Rows of `entries4`. -/
def entries4d : List Entry :=
  [ .clr "TURN_DISCIPLINE" 0x6040 1 1 .enum8 .wt (.codes [0, 1]) 0,
    .clr "TURN_POOL_BYTES" 0x6040 2 2 .u64 .wt (.mult 0x1800000 0xFFFFFFFFFFFFFFFF) 0,
    .clr "TURN_STATE" 0x6040 3 3 .enum8 .ro .any 0,
    .clr "VERSION_NOW" 0x6040 4 4 .u8 .ro .any 0,
    .clr "VERSION_NEWEST" 0x6040 5 5 .u8 .ro .any 0,
    .clr "FRONT_UNIT" 0x6040 6 6 .u16 .ro .any 0,
    .clr "UNITS_STAGED" 0x6040 7 7 .u16 .ro .any 0,
    .clr "TURNINGS to DRAIN_STEPS" 0x6040 8 0xD .u64 .ro .any 0,
    .clr "PRESS_STEPS to PIVOTS_CLAMPED" 0x6080 1 8 .u64 .ro .any 0,
    .clr "TENSOR_CLAMPED" 0x6080 0x10 0x10 (.blob 16384) .ro .any 16384,
    .clr "VAT_STEPS to VAT_RESUMES" 0x60C0 1 0xA .u64 .ro .any 0,
    .plain "ARB_LOCK_MAX" 0x6100 1 1 .u8 0x10,
    .plain "ARB_ALLOW_SHARE" 0x6100 2 2 .u8 0x1E,
    .set "ARB_CLEAR" 0x6100 3 .enum8 .wm (.codes [1]) false 0 ]

/-- Links, collectives, scheduling, turning, press and vat counters, arbiters (14 R314, R315; 12 R264, R279; 10 R227;
09 R207; 08 R182; 13 R290). -/
def entries4 : List Entry := entries4a ++ entries4b ++ entries4c ++ entries4d

/-- The arbiter groups' indices (13 R290). -/
def arbRows (base count : Nat) : List Entry :=
  [ .mgr "GRANTS" base count 1 7 .u64 0,
    .mgr "WAITS" base count 0x11 0x17 .u64 0,
    .mgr "LONGEST_WAIT" base count 0x21 0x27 .u32 0,
    ⟨"WAIT_LIMIT", base, 1, count, 0x31, 0x37, .u8, .wh, .mgr, .no, .any, true, 0⟩,
    .mgr "FORCED_WINS to SLOW_RESOLVE" base count 0x40 0x42 .u64 0 ]

/-- Rows of `entries5`. -/
def entries5a : List Entry :=
  [ .plain "HEALTH_MONITORS" 0x7000 1 1 .u8 8,
    .plain "HEALTH_WORDS" 0x7000 2 2 .u8 0x10,
    .plain "HEALTH_CLASSES" 0x7000 3 3 .u8 0x10,
    .clr "CONVERTED" 0x7010 1 7 .u64 .ro .any 0,
    .clr "OVERFLOWED" 0x7010 0x11 0x17 .u64 .ro .any 0,
    .clr "VANISHED" 0x7010 0x21 0x27 .u64 .ro .any 0,
    .clr "NONFINITE_IN" 0x7010 0x31 0x37 .u64 .ro .any 0,
    .clr "HALF_SAT, ACC_NONFINITE" 0x7010 0x40 0x41 .u64 .ro .any 0,
    .clr "CLASS counters" 0x7050 0x10 0x4F .u64 .ro .any 0,
    .clr "HEALTH_LINE" 0x7090 1 1 .u64 .wt (.bits 36) 0,
    .clr "HEALTH_CLEAR" 0x7090 2 2 .enum8 .wt (.codes [1]) 0,
    .clr "HEALTH_SAMPLE" 0x7090 3 3 (.blob 64) .ro .any 64,
    .clr "HEALTH_TRIPS" 0x7090 4 4 .u64 .ro .any 0 ]

/-- Rows of `entries5`. -/
def entries5b : List Entry :=
  ((List.range 8).map fun m =>
    let k := 16 * (m + 1)
    [ Entry.clr "MON_SOURCE" 0x7090 k k .u32 .wt .any 0,
      Entry.clr "MON_THRESHOLD" 0x7090 (k + 1) (k + 1) .f32 .wt .any 0,
      Entry.clr "MON_WINDOW" 0x7090 (k + 2) (k + 2) .u8 .wt (.range 1 64) 1,
      Entry.clr "MON_TRIP_COUNT" 0x7090 (k + 3) (k + 3) .u8 .wt (.range 1 64) 1,
      Entry.clr "MON_EMA_SHIFT" 0x7090 (k + 4) (k + 4) .u8 .wt (.range 1 16) 4,
      Entry.clr "MON_STATE" 0x7090 (k + 5) (k + 5) .enum8 .ro .any 0,
      Entry.clr "MON_BASELINE, MON_LAST" 0x7090 (k + 6) (k + 7) .f32 .ro .any 0,
      Entry.clr "MON_TRIPS" 0x7090 (k + 8) (k + 8) .u32 .ro .any 0 ]).flatten

/-- Rows of `entries5`. -/
def entries5c : List Entry :=
  [ .plain "EVLOG_ENTRIES" 0x7100 1 1 .u16 0x1000,
    .plain "EVLOG_NEWEST" 0x7100 2 2 .u32 0,
    .set "EVLOG_SELECT" 0x7100 3 .u32 .rw .any false 0,
    ⟨"EVLOG_RECORD", 0x7100, 1, 1, 4, 4, .blob 64, .ro, .evlog, .no, .any, false, 0⟩,
    .plain "ID_KEY_HASH" 0x8000 1 1 (.blob 32) 0,
    .plain "ID_CERT" 0x8000 2 2 (.blob 16384) 0,
    .plain "ATTEST_CERT" 0x8000 3 3 (.blob 16384) 0,
    .plain "KEM_CERT" 0x8000 4 4 (.blob 16384) 0,
    .set "ATTEST_NONCE" 0x8001 1 (.blob 32) .rw .any false 32,
    .plain "ATTEST_REPORT" 0x8001 2 2 (.blob 24576) 0,
    .set "SESSION_OPEN" 0x8002 1 (.blob 4096) .rw .any false 0,
    .plain "SESSION_REPLY" 0x8002 2 2 (.blob 4096) 0,
    .plain "SESSIONS_MAX" 0x8002 3 3 .u8 0x40,
    .plain "SESSIONS_OPEN" 0x8002 4 4 .u8 0,
    .plain "CRYPTO_STATE" 0x8003 1 1 .enum8 0,
    ⟨"KEY_WRAPPED", 0x8040, 1, 64, 1, 1, .blob 2048, .wm, .none, .idx, .any, false, 0⟩,
    .clr "KEY_STATE" 0x8040 2 2 .enum8 .ro .any 0 ]

/-- Rows of `entries5`. -/
def entries5d : List Entry :=
  [ .set "UNDERSTORY_ENABLE" 0x9000 1 .bool .wm (.codes [0, 1]) true 1,
    .set "UNDERSTORY_PERIOD_S" 0x9000 2 .u16 .wm (.range 60 3600) true 0x258,
    .plain "SPARE_CELLS" 0x9000 3 3 .u8 0x10,
    ⟨"CELLS_HEALTHY", 0x9010, 1, 16, 1, 1, .u16, .ro, .all, .no, .any, false, 0x110⟩,
    ⟨"SPARES_LEFT", 0x9010, 1, 16, 2, 2, .u8, .ro, .all, .no, .any, false, 0x10⟩,
    ⟨"CELLS_MULTIPLEXED", 0x9010, 1, 16, 3, 3, .u16, .ro, .all, .no, .any, false, 0⟩,
    ⟨"RESIDUE_RETRIES", 0x9010, 1, 16, 4, 4, .u64, .ro, .all, .no, .any, false, 0⟩,
    ⟨"CELLS_RETIRED", 0x9010, 1, 16, 5, 5, .u16, .ro, .all, .no, .any, false, 0⟩,
    ⟨"SECDED_CORRECTED", 0x9010, 1, 16, 6, 6, .u64, .ro, .all, .no, .any, false, 0⟩,
    ⟨"SECDED_UNCORRECTED", 0x9010, 1, 16, 7, 7, .u64, .ro, .all, .no, .any, false, 0⟩,
    ⟨"TEST_AGE_MAX", 0x9010, 1, 16, 8, 8, .u32, .ro, .all, .no, .any, false, 0⟩,
    ⟨"TEST_AGE", 0x9010, 1, 16, 9, 9, .blob 1088, .ro, .all, .no, .any, false, 1088⟩,
    ⟨"SPAREIN_QUEUE", 0x9010, 1, 16, 0xA, 0xA, .u8, .ro, .all, .no, .any, false, 0⟩,
    .clr "JOB_LEADER" 0x9080 1 1 .u16 .ro .any 0,
    .clr "JOB_EPOCH" 0x9080 2 2 .u32 .ro .any 0,
    .clr "REPLICAS" 0x9080 3 3 .u16 .ro .any 0,
    .clr "MIN_REPLICAS" 0x9080 4 4 .u16 .wt (.range 1 4096) 1,
    .clr "REPLICA_INDEX" 0x9080 5 5 .u16 .ro .any 0,
    .clr "REPLICAS_LIVE" 0x9080 6 6 (.blob 512) .ro .any 512,
    .clr "STRAGGLER_FACTOR" 0x9080 7 7 .u16 .wt (.range 0x180 0x1000) 0x200 ]

/-- Rows of `entries5`. -/
def entries5e : List Entry :=
  [ .clr "STRAGGLER_STEPS" 0x9080 8 8 .u8 .wt (.range 2 100) 5,
    .clr "SPARE_LIST" 0x9080 9 9 (.blob 512) .wm .any 512,
    .clr "RECOVERY_STATE" 0x9080 0xA 0xA .enum8 .ro .any 0,
    .clr "NESTED_FAULTS" 0x9080 0xB 0xB .u8 .ro .any 0,
    .clr "RECOVERY_CMD" 0x9080 0xC 0xC .enum8 .wm (.codes [1, 2]) 0,
    .clr "PRESS_STEP_NS" 0x9080 0xD 0xD .u64 .ro .any 0,
    .clr "SHRINKS, RESTORES, REJOINS" 0x9080 0xE 0x10 .u32 .ro .any 0,
    .set "FAILURE_DOMAIN" 0x90C0 1 .u32 .wm .any true 0,
    .plain "SHRINK_LIMIT_S" 0x90C0 2 2 .u8 0x14,
    .plain "NESTED_MAX" 0x90C0 3 3 .u8 4,
    .set "HEARTBEAT_MS" 0x90C0 4 .u16 .wm (.range 10 1000) true 0x64,
    .set "HEARTBEAT_MISS" 0x90C0 5 .u8 .wm (.range 2 20) true 5 ]

/-- Rows of `entries5`. -/
def entries5f : List Entry :=
  [ .set "SWEEP_PERIOD_US" 0xA000 1 .u8 .wm (.range 1 100) true 2,
    .plain "SWEEPS to SLOTS_REFUSED" 0xA000 2 5 .u64 0,
    .set "PLAN_ASSEMBLY_S" 0xA000 6 .u8 .wm (.range 1 255) true 0x3C,
    .plain "MODULE_TIME" 0xA001 1 1 .u64 0,
    .plain "EV_ENTRIES" 0xA002 1 1 .u16 0x4000,
    .plain "EV_LOST_TOTAL" 0xA002 2 2 .u64 0,
    .plain "HOST_RB_STATE" 0xA002 3 3 .bool 0,
    .set "APERTURE_INDEX" 0xA010 1 .u16 .rw .any false 0,
    .set "APERTURE_SUB" 0xA010 2 .u8 .rw .any false 0,
    .set "APERTURE_LEN" 0xA010 3 .u32 .rw (.range 0 65536) false 0,
    .set "APERTURE_CMD" 0xA010 4 .enum8 .rw (.codes [1, 2]) false 0,
    .plain "APERTURE_STATUS" 0xA010 5 5 .u32 0,
    .plain "BAR0_LAST_STATUS" 0xA011 1 1 .u32 0,
    .plain "BAR0_REFUSED" 0xA011 2 2 .u64 0 ]

/-- Run health, event log, security, understory, recovery, host path (16; 04 R88; 18 R393 to R395; 15 R341; 17 R383). -/
def entries5 : List Entry := entries5a ++ entries5b ++ entries5c ++ entries5d ++ entries5e ++ entries5f

/-- Every entry of the dictionary map (18 R389). -/
def entryTable : List Entry :=
  entries1 ++ entries2 ++ entries3 ++ entries4 ++ arbRows 0x6110 0x54 ++ arbRows 0x6170 0x20 ++ entries5

/-- Whether a row holds the position. -/
def Entry.has (e : Entry) (idx sub : Nat) : Bool :=
  e.base ≤ idx && (idx - e.base) % e.stride == 0 && (idx - e.base) / e.stride < e.count
    && e.subLo ≤ sub && sub ≤ e.subHi

/-- The part of the map in which an index's rows stand. -/
def entriesFrom (idx : Nat) : List Entry :=
  if idx < 0x2000 then entries1 else if idx < 0x4000 then entries2 else if idx < 0x5000 then entries3
  else if idx < 0x6110 then entries4 else if idx < 0x6170 then arbRows 0x6110 0x54 else if idx < 0x7000 then arbRows 0x6170 0x20
  else entries5

/-- The entry at a position (18 R388); none where the map lists nothing. -/
def entryAt (idx sub : Nat) : Option Entry := (entriesFrom idx).find? fun e => e.has idx sub

/-- The clearing a position belongs to (18 R385). -/
def Entry.clearing (e : Entry) (idx sub : Nat) : Option Nat :=
  match e.sel with
  | .no => none
  | .idx => some ((idx - e.base) / e.stride)
  | .sub => some sub

/-- The width in bytes of a scalar type (17 R354); none for STR and BLOB. -/
def Ty.width : Ty → Option Nat
  | .u8 => some 1
  | .bool => some 1
  | .enum8 => some 1
  | .u16 => some 2
  | .u32 => some 4
  | .i32 => some 4
  | .f32 => some 4
  | .u64 => some 8
  | .str _ => none
  | .blob _ => none

/-- The key of a position in the state's maps. -/
abbrev keyOf (idx sub : Nat) : Nat := idx * 256 + sub

/-- Which arbiter a group index is (13 R280, R290): 0 bank port, 1 ring bridge, 2 memory bridge, 3 channel queue,
4 to memory bridges, 5 to the link die, 6 to the hub, 7 cellar channel, 8 link egress. -/
def arbKind (idx : Nat) : Option Nat :=
  if 0x6110 ≤ idx && idx ≤ 0x611F then some 0
  else if 0x6120 ≤ idx && idx ≤ 0x613F then some 1
  else if 0x6140 ≤ idx && idx ≤ 0x614F then some 2
  else if 0x6150 ≤ idx && idx ≤ 0x6153 then some 3
  else if 0x6154 ≤ idx && idx ≤ 0x6157 then some 4
  else if 0x6158 ≤ idx && idx ≤ 0x615B then some 5
  else if 0x615C ≤ idx && idx ≤ 0x615F then some 6
  else if 0x6160 ≤ idx && idx ≤ 0x6163 then some 7
  else if 0x6170 ≤ idx && idx ≤ 0x618F then some 8
  else none

/-- The default WAIT_LIMIT of input `i` of an arbiter kind (13 R280); 0 where the arbiter has no such input. -/
def arbLimit (kind i : Nat) : Nat :=
  match kind with
  | 0 => [255, 64, 32, 32, 16, 1].getD i 0
  | 1 => [16, 255].getD i 0
  | 2 => [16, 255].getD i 0
  | 3 => if i < 6 then 16 else 0
  | 4 => if i == 0 || i == 1 || i == 6 then 16 else 0
  | 5 => if i == 0 || (2 ≤ i && i ≤ 6) then 16 else 0
  | 6 => if 1 ≤ i && i ≤ 6 then 16 else 0
  | 7 => if i < 6 then 16 else 0
  | 8 => if i < 4 then 16 else 0
  | _ => 0

/-- The default of a scalar position. -/
def scalarDefault (idx sub : Nat) : Nat :=
  match arbKind idx with
  | some k => if 0x31 ≤ sub && sub ≤ 0x37 then arbLimit k (sub - 0x31) else 0
  | none =>
    if 0x5000 ≤ idx && idx < 0x5200 && idx % 16 == 0 && sub == 1 then (if (idx - 0x5000) / 16 < 24 then 1 else 0)
    else match entryAt idx sub with
      | some e => e.dflt
      | none => 0

/-- The default of a STR or BLOB position: PART_NUMBER's text, the routing table's 00FFh entries (14 R315), otherwise
as many zero bytes as the map's "all zero" has. -/
def blobDefault (idx sub : Nat) : List Byte :=
  if idx == 0x1000 then "CN-AD16-A54".toList.map fun c => BitVec.ofNat 8 c.toNat
  else if 0x5210 ≤ idx && idx ≤ 0x5213 then (List.replicate 16384 [0xFF, 0x00]).flatten
  else match entryAt idx sub with
    | some e => List.replicate e.dflt 0
    | none => []

end Sys2Proof.Machine
end

