-- ==== Sys2Proof/Machine/State.lean ====
section
/-! DEFINITION. The state of the module: every register, buffer, counter, table and queue the manual gives it, as
plain data, and the state right after reset (21 R444: power OFF, nothing kept but flash and one-time storage).

The Oxolaord dictionary (18 R389) is held as three maps from `index * 256 + sub-index`: `dict`, the value accepted or
published last, which a read returns (17 R355); `force`, the value in force of an entry that takes effect at a step
boundary; `live`, the running count of a counter that is published at a boundary (04 R89). An entry that is not
listed has its default (Machine/Entries.lean). Resources of one kind are maps from their number (00 R10); a number
that is not listed has the record's default fields. -/

namespace Sys2Proof.Machine

/-- A map from numbers, its keys strictly rising. -/
abbrev Map (α : Type) := List (Nat × α)

/-- Byte-addressed storage in canonical form: addresses strictly rising, no entry equal to 0, which an unlisted
address reads as (log entry 3). -/
abbrev Mem := List Host.Cell

/-! ### Power, time, boot -/

/-- The power state (21 R444). -/
inductive Mode where
  | off
  | start
  | run
  | held
deriving DecidableEq, Repr

/-- Power, thermal and PCIe-link control state (21). -/
structure Power where
  mode : Mode := .off
  /-- a HOLD is accepted and cells still run (R446) -/
  holding : Bool := false
  /-- a RESUME is accepted behind that HOLD (18 R391) -/
  resumeNext : Bool := false
  /-- THERM_N is asserted (R451) -/
  thermN : Bool := false
  /-- module time of the last entry to HELD (R446, R451) -/
  heldAt : Nat := 0
  /-- CAP_UNREACHABLE posted for the excursion in progress (R449) -/
  capFlag : Bool := false
  /-- groves whose junction is above THERM_WARN_C (R450) -/
  warnGroves : List Nat := []
  /-- the coolant is below its bound and COOLANT_LOW posted (R464) -/
  coolFlag : Bool := false
  /-- PERST_N is asserted (17 R365) -/
  perst : Bool := true
  /-- the PCIe link is up (17 R365) -/
  linkUp : Bool := false
  /-- the endpoint answers configuration requests (21 R454) -/
  answers : Bool := false
  /-- a MODULE_RESET is accepted and takes effect 1 ms after (18 R392): its module time -/
  resetAt : Option Nat := none
  /-- MODULE_NUMBER changed in HELD and not yet in force (18 R390) -/
  numberNew : Bool := false
deriving DecidableEq, Repr

/-- What a boot selection record says (19 R414). -/
structure BootSel where
  seq : Nat
  image : Nat
  version : Nat
deriving DecidableEq, Repr

/-- A dictionary bank's bytes (17 R380): its header and its records; none where nothing was ever written. -/
structure Bank where
  bytes : List Byte := []
deriving DecidableEq, Repr

/-- The NOR flash devices: two banks, two firmware images, two boot selection records (17 R380, 19 R411, R414). -/
structure Flash where
  bank0 : Bank := {}
  bank1 : Bank := {}
  imageA : Mem := []
  imageB : Mem := []
  /-- the boot selection sector of each device: its record's 64 bytes, none where none was written -/
  sel0 : List Byte := []
  sel1 : List Byte := []
  /-- a STORE is being written: the bank and its content (R382) -/
  writing : Option (Nat × Bank) := none
  /-- the bank last loaded or written (R382) -/
  lastBank : Option Nat := none
  /-- VERIFY of the inactive image returned OK (18 R392) -/
  verified : Bool := false
deriving DecidableEq, Repr

/-- A key as one-time-programmable storage keeps it: encrypted under a secret, and so readable with that secret only (19
R401). The cipher is represented by its content and the secret that opens it (log entry 10). -/
structure AtRest where
  under : List Byte := []
  content : List Byte := []
deriving DecidableEq, Repr

/-- One-time-programmable storage (02 R31, 19 R401, R413, 20 R433). -/
structure Otp where
  /-- the 256-bit device secret, and the identity key's private part under it (19 R401) -/
  deviceSecret : List Byte := []
  identityKey : AtRest := {}
  /-- floor rates lowered so far, per die, in 10 M beats/s (20 R436) -/
  floorDrops : Map Nat := []
  rollback : Nat := 0
  revoked : List Nat := []
  /-- retired physical cells, grove * 512 + physical cell (20 R433) -/
  retired : List Nat := []
  /-- lowest supply each grove may take after re-margining, in steps above 700 mV (20 R436) -/
  supplySteps : Map Nat := []
  /-- delay settings applied (20 R436) -/
  delaySteps : Map Nat := []
  /-- manager keys written, under the device secret, newest first (19 R401, R409) -/
  managerKeys : List AtRest := []
  serial : List Byte := []
  mfgWeek : Nat := 0
  fieldMac : Nat := 0
  idCert : List Byte := []
  startCount : Nat := 0
  storeWrites : Nat := 0
deriving DecidableEq, Repr

/-! ### Events, slots, rings, transfers -/

/-- An event record (17 R376), its fields by name. -/
structure Ev where
  name : Name
  seq : Nat
  time : Nat
  clearing : Nat
  slot : Nat
  status : Name
  tag : Nat
  detail : List Byte
  long : Option (Nat × Nat)
  truncated : Bool
deriving DecidableEq, Repr

/-- A slot a sweep took: the supervisor's own copy (17 R371). -/
structure Taken where
  slot : Nat
  bytes : List Byte
  /-- module time at which the sweep read the slot (08 R180) -/
  readAt : Nat := 0
  /-- it passed the checks of R372 and its own kind's work is next -/
  checked : Bool := false
deriving DecidableEq, Repr

/-- An output ring (08 R172): its place in BAR2, its entries and counts. -/
structure Ring where
  clearing : Nat
  reqTag : Nat
  offset : Nat
  entries : Nat
  produced : Nat
  consumed : Nat
  ended : Bool
  status : Nat
  stopIndex : Nat
  notify : Nat
  /-- the entries written, by entry number -/
  data : Map (List Byte)
deriving DecidableEq, Repr

/-- An open segmented transfer (17 R363, R364). -/
structure Transfer where
  key : Nat
  sess : Nat
  writing : Bool
  expected : Nat
  total : Nat
  data : List Byte
  lastReply : Nat
deriving DecidableEq, Repr

/-- A plan under assembly (17 R373). -/
structure PlanAsm where
  planId : Nat
  clearing : Nat
  partCount : Nat
  imageBytes : Nat
  imageOffset : Nat
  /-- the parts that have arrived, by number -/
  parts : Map (List Byte)
  since : Nat
deriving DecidableEq, Repr

/-- A block of the ring pool holding a long event detail (17 R376). -/
structure DetailBlock where
  seq : Nat
  offset : Nat
  bytes : List Byte
deriving DecidableEq, Repr

/-- The hub SRAM and the host path (17). -/
structure Hub where
  /-- the 64 submission slots' bytes (R369, R370) -/
  slots : Map (List Byte) := []
  taken : List Taken := []
  /-- event ring records by record number (R376) -/
  evRing : Map Ev := []
  /-- the event log, newest first (18 R393) -/
  evLog : List Ev := []
  seq : Nat := 0
  produced : Nat := 0
  acked : Nat := 0
  lost : Nat := 0
  rings : Map Ring := []
  ringNext : Nat := 0
  details : List DetailBlock := []
  transfers : List Transfer := []
  aperture : List Byte := []
  plans : List PlanAsm := []
  sweepBusy : Bool := false
deriving DecidableEq, Repr

/-! ### Sessions and keys (19) -/

/-- Who makes an access (17 R357). -/
inductive Role where
  | host
  | manager
  | tenant (t : Nat)
deriving DecidableEq, Repr

/-- An open session (17 R358, 19 R405 to R408). -/
structure Session where
  num : Nat
  role : Role
  sk : List Byte
  counter : Nat
  lastReq : List Byte
  lastReply : List Byte
  /-- the event that answered the last request, when it came in a slot -/
  lastEv : Option Ev
  lastAt : Nat
  evSelect : Nat
  nonce : List Byte
deriving DecidableEq, Repr

/-- The security block's volatile state (19 R401). -/
structure Sec where
  sessions : List Session := []
  nextSession : Nat := 1
  /-- private parts of the attestation and the encapsulation key made at START; none once they are zeroised (R401, R419) -/
  attestKey : Option (List Byte) := none
  kemKey : Option (List Byte) := none
  /-- tenant keys K_T by tenant number -/
  tenantKeys : Map (List Byte) := []
  /-- clearing keys by clearing: salt and key (R404) -/
  clearingKeys : Map (List Byte) := []
  /-- wrapped keys being opened (R403): clearing, the 1,676 bytes -/
  opening : Map (List Byte) := []
  /-- the K_T opened for an absent clearing and not yet installed -/
  delivered : Map (List Byte) := []
  drbgCount : Nat := 0
  hostSelect : Nat := 0
  hostNonce : List Byte := List.replicate 32 0
  /-- accepted datagram numbers of bulk transfers: session * 2^32 + transfer -> numbers (R410), the highest first -/
  datagrams : Map (List Nat) := []
  /-- the next number of a datagram that this module sends in a transfer, under the same keys (R410) -/
  sendNext : Map Nat := []
deriving DecidableEq, Repr

/-! ### Groves and cells (03, 05, 20) -/

/-- The state of a tile slot (03 R50); an EMPTY slot is not listed. -/
inductive SlotSt where
  | loaded
  | ready
  | running
  | parked
  | done
deriving DecidableEq, Repr

/-- A command-queue slot of a cell (03 R50): the tile and its state. `chainHead` says that the tile opens a chain or
stands alone; `tries` counts timeouts and late reads (R278), `took` is the beats a move's present run took (R262), and
`since` the module time at which the tile was loaded or last picked. -/
structure TileSlot where
  desc : TileDesc
  st : SlotSt
  chainHead : Bool
  tries : Nat
  took : Nat := 0
  since : Nat := 0
  /-- when the tile came to wait for nothing but its unit's replacement (10 R218) -/
  barred : Option Nat := none
deriving DecidableEq, Repr

/-- A claim victim's parked context (12 R274): its slots, counters and deficits, and the granules it had. -/
structure Parked where
  claimant : Nat
  victim : Nat
  compute : Int
  move : Int
  slots : List TileSlot
  ctrs : List (Nat × Nat)
  scratch : List Nat
  side : List Nat
deriving DecidableEq, Repr

/-- One clearing's place in the rings of a cell (12 R261): its two deficits. -/
structure RingPlace where
  clearing : Nat
  compute : Int
  move : Int
deriving DecidableEq, Repr

/-- An entry of a feeder queue: 32 bytes of elements and its scale tag (03 R42, R58). -/
structure FeedEntry where
  data : List Byte
  scale : Nat
deriving DecidableEq, Repr

/-- The matrix array of a cell (03 R42): 32 row and 32 column feeder queues by number, the two FP32 accumulator registers
of each position and the accumulator buffer by position 32 i + j; a position not listed is +0. A tile's run begins and ends
with all of it empty (R61), so that between commands it is. -/
structure MatrixArray where
  rowQ : Map (List FeedEntry) := []
  colQ : Map (List FeedEntry) := []
  acc0 : Map Nat := []
  acc1 : Map Nat := []
  buffer : Map Nat := []
deriving DecidableEq, Repr

/-- A logical cell (03). A counter is (owner clearing, value), 16 of them; owner 64 is nobody. -/
structure Cell where
  role : Nat := 0
  /-- the tile program the cell holds: its index, and the program memory's bytes (R42, R44) -/
  program : Nat := 0
  progMem : List Byte := []
  lastClearing : Nat := 0
  roleChanges : Nat := 0
  /-- slots in load order, at most 8 (R50, R51) -/
  slots : List TileSlot := []
  /-- the warden's descriptors for the cell, held while every slot is occupied (R51) -/
  held : List TileDesc := []
  ctrs : List (Nat × Nat) := List.replicate 16 (64, 0)
  array : MatrixArray := {}
  /-- the page feeder queue of the move engine: at most 16 descriptors of 32 bytes (07 R138) -/
  pageQ : List (List Byte) := []
  /-- the clearings of the cell in the order they were assigned to it (12 R256) -/
  assigned : List Nat := []
  ring : List RingPlace := []
  computePtr : Nat := 64
  movePtr : Nat := 64
  scratchOwn : Map Nat := []
  sideOwn : Map Nat := []
  parked : List Parked := []
  /-- claims held on the cell: claimant clearing (R274) -/
  claimed : Option Nat := none
  /-- scratchpad and side-memory words that failed their code, by byte offset of the cell (20 R421) -/
  badWords : List Nat := []
  stopped : Bool := false
deriving DecidableEq, Repr

/-- A replacement under way or queued (20 R427, R428): the retired physical cell, the logical cell, urgent or not. -/
structure Repl where
  phys : Nat
  logical : Nat
  urgent : Bool
deriving DecidableEq, Repr

/-- A grove: its program store, culture table, cell map and test state (03 R475, 05, 20). -/
structure Grove where
  /-- tile programs by index, each with who names it: clearings of accepted plans, 64 the firmware -/
  progs : Map (List Byte) := []
  progUsers : Map (List Nat) := []
  /-- the seed the table holds or is being filled with (05 R94, R95) -/
  seed : Nat := 0
  tableState : Nat := 0
  fillTries : Nat := 0
  /-- the table memory is retired: FAILED for good (05 R105) -/
  tableRetired : Bool := false
  /-- words of the table that failed once (05 R105) -/
  badWords : List Nat := []
  /-- logical cells moved from their start-up place: logical -> physical (20 R424, R427) -/
  remap : Map Nat := []
  retired : List Nat := []
  failed : Bool := false
  busy : Option Repl := none
  queue : List Repl := []
  /-- spares on which a failed tile has still to run: spare -> the cell it first replaced (20 R430) -/
  proving : Map Nat := []
  /-- logical cells time-multiplexed: logical -> beats run in the present turn (20 R431) -/
  multi : Map Nat := []
  /-- for a host, the logical cell it runs now -/
  hosting : Map Nat := []
  /-- per physical cell: time of its last understory pass, segments of the pass in progress, failures, margin -/
  lastTest : Map Nat := []
  segments : Map Nat := []
  fails : Map Nat := []
  margins : Map Nat := []
  overdue : List Nat := []
  /-- per physical cell: the lines whose words failed, each with its module time, for the 24 h rule (20 R421) -/
  badAt : Map (List (Nat × Nat)) := []
  /-- the grove is being re-margined (20 R436) -/
  remargining : Bool := false
deriving DecidableEq, Repr

/-! ### Clearings -/

/-- A page record of a key-value pool (07 R146). -/
structure PageRec where
  st : Nat := 0
  full : Bool := false
  mixed : Bool := false
  indexed : Bool := false
  refs : Nat := 0
  pins : Nat := 0
  version : Nat := 0
  fill : Nat := 0
  lastMatch : Nat := 0
  /-- the block's hash, once it is known (R152) -/
  hash : List Byte := []
  /-- the tokens of a page homed on another member, as the ordered events give them (R145) -/
  toks : List Nat := []
deriving DecidableEq, Repr

/-- A vat request as accepted (08 R167). -/
structure Req where
  tag : Nat
  slot : Nat
  hostTag : Nat
  prompt : List Nat
  maxNew : Nat
  deadline : Nat
  resumeTag : Nat
  ttl : Nat
  pauseAtEnd : Bool
  toRing : Bool
  toCurd : Bool
  stopTokens : List Nat
  stopSeqs : List (List Nat)
  ringEntries : Nat
  notify : Nat
  ring : Option Nat
  hashes : List (List Byte)
  resumed : List Nat
  cancel : Bool
  pauseAsked : Bool
  invalid : Bool
  /-- the FLOOR_EPOCH values of the worst-case time its deadline was admitted by (02 R33) -/
  epochs : List (Nat × Nat) := []
  /-- slots and HOST_TAGs of the CANCEL and PAUSE commands that wait for the next step start (17 R374) -/
  cmds : List (Nat × Nat) := []
deriving DecidableEq, Repr

/-- A sequence in a slot of a vat (08): its request, its tokens (those before `start` are prompt), the positions
computed, its pages by position page, the pages a resume brought back (position page, positions), its bucket, its
curd record, whether it takes part in the step and with how many positions, and a fault found in the step. -/
structure Seqn where
  req : Req
  slot : Nat
  tokens : List Nat
  start : Nat
  pos : Nat
  pages : Map Nat
  kept : List (Nat × Nat)
  bucket : Nat
  curd : Option Nat
  active : Bool
  chunk : Nat
  fault : List Nat
  /-- positions PAGE_APPEND tiles have written in the step, by part of a slice: slice * 2, values + 1 (07 R142) -/
  appended : Map Nat := []
  /-- it took no part in the last step (R164, R171, R173) -/
  held : Bool := false
deriving DecidableEq, Repr

/-- A paused conversation's image in the cellar (08 R178, R180): how many tokens and block hashes it holds, the moved
position pages with their positions, its 2 MiB blocks of the clearing's tier-2 region, in which all of that lies, and its
end of life. -/
structure Paused where
  tag : Nat
  tokens : Nat
  hashes : Nat
  moved : List (Nat × Nat)
  versions : List Nat
  base : Nat
  blocks : Nat
  expires : Nat
  claimed : Bool
deriving DecidableEq, Repr

/-- A curd record (08 R174) of a buffer's directory: the record's bytes lie at `place` of the tier-1 region of the press
clearing `home` on module `modNo`, and nowhere else (01 R20). `head` is the 64-byte header as a writer on another module
keeps it to write it again; it is empty for a record here. -/
structure Curd where
  modNo : Nat
  home : Nat
  place : Nat
  reqTag : Nat
  writer : Nat
  bytes : Nat
  closed : Bool
  head : List Byte := []
deriving DecidableEq, Repr

/-- Vat and taster state of a clearing (08). -/
structure Vat where
  waiting : List Req := []
  seqs : List Seqn := []
  pages : Map PageRec := []
  paused : List Paused := []
  /-- sequences paused at their end or on command, waiting for position 4 of R149, and released ones whose references
  drop there -/
  toPause : List Seqn := []
  toDrop : List Seqn := []
  /-- the version the step in flight runs on (10 R218) -/
  ver : Nat := 0
  /-- blocks looked up at the step's start (07 R161) -/
  looked : Nat := 0
deriving DecidableEq, Repr

/-- Press state of a clearing (08 R174 to R176, 09, 10 R210). -/
structure Press where
  curds : Map Curd := []
  ready : List Nat := []
  batch : List Nat := []
  nextCurd : Nat := 0
  usedBytes : Nat := 0
  /-- where the next record is placed in the curd buffer if it fits there -/
  curdHead : Nat := 0
  /-- the press step has produced its version (10 R209) -/
  made : Bool := false
  current : Option Nat := none
  sending : Option Nat := none
  waiting : Option Nat := none
  /-- module times of production, and the places of the sources, by version (R210) -/
  producedAt : Map Nat := []
  sources : Map Nat := []
  /-- an UPDATE_SCALARS tile of the step wrote a non-finite line, and an UPDATE_P2 tile read one (09 R202) -/
  updateSkip : Bool := false
  skipRan : Bool := false
  /-- blocks with SINGULAR_CLAMPED set in the step, by tensor number (09 R207) -/
  clamped : Map Nat := []
  /-- the mask records in effect, by their offset in the region (09 R189) -/
  masks : Map (List Byte) := []
deriving DecidableEq, Repr

/-- A turning unit on a vat module (10 R212 to R217): its blocks in the unit table and those reserved for the version being
staged, as region blocks in the order of the image; landed shards, staged, replaced, refetches. -/
structure TUnit where
  home : List Nat := []
  stage : List Nat := []
  reserved : Bool := false
  /-- LOCAL shards written and not yet read back (R215, R221) -/
  written : List Nat := []
  landed : List Nat := []
  staged : Bool := false
  replaced : Bool := false
  /-- shards fetched again once (R222, R224) -/
  failedShards : List Nat := []
  /-- the version of the unit's home -/
  held : Nat := 0
  /-- shards of the home being fetched again, and those that were once (R224) -/
  refetch : List Nat := []
  refetched : List Nat := []
deriving DecidableEq, Repr

/-- Turning state of a vat clearing (10). -/
structure Turn where
  units : Map TUnit := []
  /-- the version being turned or loaded -/
  version : Nat := 0
  loading : Bool := false
  /-- some version was installed (R225) -/
  loaded : Bool := false
  frontStarted : Bool := false
  /-- failed after the front started: no step's body runs (R223) -/
  blocked : Bool := false
  draining : Bool := false
  /-- a step on the previous version is in flight (R219) -/
  oldStep : Bool := false
  /-- WEIGHT_READ tiles of the step in flight that have completed, by unit (R217) -/
  reads : Map Nat := []
  /-- the keeper has reported to the front leader (R216) -/
  reported : Bool := false
deriving DecidableEq, Repr

/-- A monitor's window and armed state beside its entries (16 R348, R349). -/
structure Monitor where
  /-- the tests of the last steps, newest first -/
  window : List Bool := []
  /-- samples seen since arming -/
  warm : Nat := 0
  /-- no sample has set the baseline yet -/
  fresh : Bool := true
  /-- consecutive false tests -/
  falses : Nat := 0
deriving DecidableEq, Repr

/-- A job checkpoint in progress on a writer (15 R316 to R326). -/
structure Ckpt where
  /-- a snapshot waits for a free channel (11 R249) -/
  wanted : Bool := false
  gen : Nat := 0
  step : Nat := 0
  version : Nat := 0
  vatStep : Nat := 0
  epoch : Nat := 0
  openedAt : Nat := 0
  channel : Option Nat := none
  verified : Bool := false
  drains : List Nat := []
  /-- the checkpoint is brought forward to the next boundary (15 R336) -/
  forward : Bool := false
  /-- block checks by position in the block list (15 R321) -/
  crcs : Map Nat := []
  /-- the newest complete generation, as its manifest names it (15 R323) -/
  last : Option GenCheck := none
  /-- the complete generation before it -/
  prev : Option GenCheck := none
deriving DecidableEq, Repr

/-- Recovery state of a press clearing (15 R330 to R336). -/
structure Recov where
  members : List Member := []
  dropped : List Nat := []
  failedMods : List Nat := []
  missed : Map Nat := []
  lastHeard : Map Nat := []
  slow : Map Nat := []
  shrinkAt : Option Nat := none
  totals : Bool := false
  /-- the TOTALS reports the leader has of the members (15 R333) -/
  told : List (Nat × Bool) := []
  rejoining : List Nat := []
  readyMods : List Nat := []
  hold : Bool := false
  discard : Bool := false
  /-- the generation a restore loads, and the older one it falls back on (15 R328, R329) -/
  chosen : Option GenCheck := none
  fallback : Option GenCheck := none
  /-- what waits for the next sweep: modules a failed collective named, and whether this module lost memory of the press
  region (15 R331) -/
  suspects : List Nat := []
  lostMem : Bool := false
  /-- modules this one has reported as failed -/
  reported : List Nat := []
deriving DecidableEq, Repr

/-- A clearing's state beside its dictionary entries (12). -/
structure Clearing where
  /-- a CREATE held for a key opening (19 R403) -/
  heldCreate : Bool := false
  /-- first 2 MiB block, in each stack, of the key-value pool and of the turning units' area (07 R136, 10 R212) -/
  kvBlock : Nat := 0
  turnBlock : Nat := 0
  plan : Option PlanClearing := none
  planId : Nat := 0
  planGen : Option PlanImage := none
  /-- groves on which the plan is stopped (03 R49) -/
  stopped : List Nat := []
  stepNo : Nat := 0
  inStep : Bool := false
  stepAt : Nat := 0
  /-- a vat or taster step has ended and its boundary is not reached yet -/
  due : Bool := false
  idleSince : Nat := 0
  /-- the plan checks that fail at present (04 R75, 07 R161, 10 R228, 13 R291) -/
  mismatch : List Name := []
  withdraw : Bool := false
  /-- the FLOOR_EPOCH values the last worst-case time used, by die (02 R33) -/
  floorEpochs : List (Nat × Nat) := []
  /-- cells added to an active clearing, granted at its next boundary (12 R259) -/
  addCells : Bool := false
  scrubbing : Bool := false
  scrubDone : Bool := false
  healthClear : Bool := false
  monWrite : List Nat := []
  monitors : Map Monitor := []
  vat : Vat := {}
  press : Press := {}
  turn : Turn := {}
  ckpt : Ckpt := {}
  recov : Recov := {}
deriving DecidableEq, Repr

/-! ### Memory devices, copier, links, triggers -/

/-- A stalled write (11 R251): its range of the region, when it stalled, and its bytes; none for a tile's write, whose tile
waits and writes when it is run again. -/
structure Stall where
  off : Nat
  len : Nat
  since : Nat
  data : List Byte
deriving DecidableEq, Repr

/-- A copier channel (11 R249 to R253). -/
structure Copier where
  clearing : Option Nat := none
  reserved : Option Nat := none
  /-- region blocks not yet COPIED, in the order of the block list -/
  blocks : List Nat := []
  redirected : List Nat := []
  stalled : List Stall := []
deriving DecidableEq, Repr

/-- A link port's layer state (14 R295 to R305). -/
structure Port where
  lanesFailed : List Nat := []
  expected : Nat := 0
  sent : Nat := 0
  acked : Nat := 0
  replays : Nat := 0
  /-- replay buffer: flits sent and not acknowledged (R298) -/
  replay : List Flit := []
  credits : Map Nat := []
  /-- flits that stand in the port's buffers, and freed buffers whose credits are not returned yet, by virtual channel
  (R297) -/
  held : Map Nat := []
  owed : Map Nat := []
  /-- flits of the module's own transfers that wait for the port, a credit or room for a replay, oldest first (R297,
  R300) -/
  queue : List Flit := []
  /-- the hash of a peer's identity key that was proven and is not the one expected (19 R417) -/
  proven : Option (List Byte) := none
  /-- lanes replaced by lane 8 so far (R295) -/
  spares : Nat := 0
  nonce : List Byte := []
  cable : Option Cable := none
deriving DecidableEq, Repr

/-- A posted triggered operation (14 R307, R308), or the held source of a chunk sent `attempt` times again. -/
structure Trig where
  clearing : Nat
  desc : TrigDesc
  attempt : Nat
  /-- the transfer tag of a held source's last transmission (R296) -/
  tag : Nat := 0
deriving DecidableEq, Repr

/-- A chunk whose check agreed while its lines wait for an open snapshot (11 R251, 14 R311): its link die, transfer line,
location and length. -/
structure WaitChunk where
  die : Nat
  line : ChunkLine
  dst : Nat
  len : Nat
deriving DecidableEq, Repr

/-- A link die's trigger counters and descriptor slots (14 R306). -/
structure LinkDie where
  ctrs : Map Nat := []
  owners : Map Nat := []
  slots : Map Trig := []
  /-- sent chunks whose CHUNK_ACK has not arrived: their sources stay held (R308) -/
  holds : List Trig := []
deriving DecidableEq, Repr

/-- A collective's record on this module (14 R312, R313): key clearing * 4096 + instance. -/
structure Coll where
  accepted : List Nat := []
  firstFire : Option Nat := none
  failed : Bool := false
deriving DecidableEq, Repr

/-- An outstanding remote request (12 R277). -/
structure Remote where
  tag : Nat
  grove : Nat
  cell : Nat
  clearing : Nat
  tileId : Nat
  issued : Nat
  lines : Nat
  got : List Nat
  /-- where its lines land: a location for an engine, an address for a MOVE, position page * 2 + part for a gather -/
  landing : Nat
  /-- it is a write: nothing lands, and only a refusal ends it before its time is over (11 R239, log entry 28) -/
  write : Bool := false
deriving DecidableEq, Repr

/-- What the module sends or signals to the outside: the model's own output queue (log entry 15). -/
inductive Out where
  /-- a response frame on the field network (17 R362): destination, payload -/
  | frame (dst : Nat) (payload : List Byte)
  /-- the status a directly commanded dictionary write ends with -/
  | status (n : Name)
  /-- the value a directly commanded dictionary read returns -/
  | value (v : List Byte)
  /-- a flit leaves on a port -/
  | flit (port : Nat) (f : Flit)
  /-- a chunk leaves with its transfer line, to a module, on a port set -/
  | chunk (dst : Nat) (portSet : Nat) (l : ChunkLine) (data : List Byte)
  /-- CHUNK_ACK, CHUNK_RETRY or COLL_FAIL towards a module -/
  | chunkAck (dst : Nat) (l : ChunkLine)
  | chunkRetry (dst : Nat) (l : ChunkLine)
  | collFail (dst : Nat) (coll : Nat) (status : Name) (opId : Nat)
  /-- a transfer that a retraining port cannot deliver, to the engine that sent it: module and tag (14 R298) -/
  | undelivered (dst tag : Nat)
  /-- a link-layer replay request with LACK (14 R298) -/
  | replay (port lack : Nat)
  /-- a counter signal towards another cell -/
  | signal (grove cell ctr clearing : Nat)
  /-- an identity transfer on a port (14 R305) -/
  | ident (port : Nat) (bytes : List Byte)
  /-- a shard leaves for a module (10 R221) -/
  | shard (unit shard dst clearing : Nat) (data : List Byte)
  /-- a job-recovery message: name, epoch, content (15) -/
  | job (clearing : Nat) (msg : String) (epoch : Nat) (args : List Nat)
  /-- lines written to a clearing's tier on a module: by the copier, a move or an engine, under a move's tag -/
  | lines (dst clearing tier off : Nat) (data : List Byte) (tag : Nat := 0)
  /-- a read of lines from a clearing's tier on a module, by tag (12 R277) -/
  | readReq (tag dst clearing tier off count : Nat)
  /-- the reply to a remote request: module, tag, index of the first line, whether it is refused as foreign, lines -/
  | reply (dst tag first : Nat) (foreign : Bool) (data : List Byte)
  /-- cellar lines of a served read that ended LOST, by their index in the transfer (11 R245, log entry 28) -/
  | lostLines (dst tag : Nat) (lines : List Nat)
  /-- a control flit that moves a lane's traffic to lane 8 (14 R295) -/
  | spare (port lane : Nat)
  /-- a generation's slot sent by the bulk-transfer protocol: clearing and generation (15 R326) -/
  | drain (port clearing gen : Nat)
  /-- a datagram of a bulk transfer sealed under its key (19 R410): session, transfer, number, ciphertext and tag -/
  | datagram (port session transfer number : Nat) (sealedData tag : List Byte)
  /-- a neighbour advertisement on a gateway port (14 R304) -/
  | advert (port : Nat)
deriving DecidableEq, Repr

/-! ### Arbiters (13) -/

/-- A request an arbiter holds until it grants it (13 R281): its input, clearing and lock flag, and the beat it came. -/
structure ArbReq where
  input : Nat
  clearing : Nat
  lock : Bool
  since : Nat
deriving DecidableEq, Repr

/-- An arbiter (13 R281 to R287): its beat count, the requests it holds, the wait counters and the batches of forced
wins by requester (clearing * 8 + input at a gated arbiter, the input elsewhere), the lock's owner with the beat it
began, inputs whose overrun lock it ended and that are not reported yet, and the service slot that runs, with whether
its owner had nothing queued at its start and whether its one borrowed line is given (R268). -/
structure Arb where
  beat : Nat := 0
  asks : List ArbReq := []
  waits : Map Nat := []
  batches : List (List Nat) := []
  lock : Option Nat := none
  lockAt : Nat := 0
  overran : List Nat := []
  slot : Option (Nat × Nat) := none
  slotIdle : Bool := false
  slotLent : Bool := false
deriving DecidableEq, Repr

/-! ### The whole -/

/-- The module. -/
structure State where
  power : Power := {}
  /-- module time in ns (17 R379) -/
  time : Nat := 0
  dict : Map Nat := []
  force : Map Nat := []
  live : Map Nat := []
  /-- STR and BLOB values, keyed as `dict` -/
  blobs : Map (List Byte) := []
  blobForce : Map (List Byte) := []
  /-- scratchpads, side memories, tier-1 and tier-2 regions, spill areas (log entry 14) -/
  mem : Mem := []
  hub : Hub := {}
  sec : Sec := {}
  flash : Flash := {}
  otp : Otp := {}
  /-- the built-in region of the cells' segment table memories (06 R125) -/
  sfn : SfnImage := {}
  cells : Map Cell := []
  groves : Map Grove := []
  clearings : Map Clearing := []
  /-- regulator buckets in bytes, keyed clearing * 64 + resource, two per port (12 R265, R266) -/
  buckets : Map Int := []
  /-- lending pools by resource (12 R269) -/
  pools : Map Nat := []
  /-- the clearing that drew last from each lending pool (12 R269) -/
  lastDraw : Map Nat := []
  /-- POISON lines and lines corrected once with the time, by memory line address (11 R248) -/
  poison : List Nat := []
  onceAt : Map Nat := []
  /-- module times of uncorrectable pieces per cellar channel (11 R246) -/
  pieces : Map (List (Nat × Nat)) := []
  /-- STACK_DEGRADED and CHANNEL_DEGRADED already posted (20 R423) -/
  degraded : List Nat := []
  copiers : Map Copier := []
  ports : Map Port := []
  linkDies : Map LinkDie := []
  colls : Map Coll := []
  /-- chunks that wait for a snapshot, in the order they arrived (14 R311) -/
  waitingChunks : List WaitChunk := []
  remotes : List Remote := []
  nextTag : Nat := 0
  /-- arbiters by group * 65536 + number in the group (13) -/
  arbs : Map Arb := []
  /-- lock overruns per arbiter, their module times (20 R422) -/
  overruns : Map (List Nat) := []
  /-- messages sent and not yet taken by the outside (log entry 15) -/
  outbox : List Out := []
  /-- the model's own counter behind the free values (log entry 16) -/
  free : Nat := 0
  /-- the commands waiting, first in first out -/
  pending : List Instr := []
deriving DecidableEq, Repr

/-- Why the machine stops with a fault. -/
inductive Fault where
  /-- raised by a meaning whose operand numbers a resource the module does not have (00 R10: no other numbering
  appears in any structure): such a command cannot reach the module. Safe: it only stops. -/
  | numbering
deriving DecidableEq, Repr

/-- Why the machine refuses a command. -/
inductive Refusal where
  /-- raised by the dispatch for a row whose meaning is not written; none is left. Safe: it only stops. -/
  | notModelled (mnemonic : String)
deriving DecidableEq, Repr

/-- The module right after reset: power OFF (21 R444), every volatile structure empty, flash and one-time-programmable
storage as log entry 7 names them. -/
def State.reset : State := {}

end Sys2Proof.Machine
end

