-- ==== Sys2Proof/WellFormed.lean ====
section
/-! DEFINITION. Which commands are well formed: every number an operand carries numbers a resource of the module
(00 R10). A meaning asks the same predicates and stops with the fault `numbering` where they fail. -/

namespace Sys2Proof

/-- A grove. -/
def wfGrove (g : Nat) : Bool := g < 16
/-- A logical cell of a grove. -/
def wfCell (g c : Nat) : Bool := wfGrove g && c < 256
/-- A physical cell of a grove. -/
def wfPhys (g p : Nat) : Bool := wfGrove g && p < 272
/-- A clearing. -/
def wfClearing (n : Nat) : Bool := n < 64
/-- A link port. -/
def wfPort (p : Nat) : Bool := p < 32
/-- A gateway-capable port: 24 to 31 (14 R304). -/
def wfGwPort (p : Nat) : Bool := 24 ≤ p && p < 32
/-- A die of the numbering of 02 R31: groves 1 to 10h, hub 11h, link dies 12h to 15h, switches 16h to 19h. -/
def wfDie (d : Nat) : Bool := 1 ≤ d && d ≤ 25
/-- A link die. -/
def wfLinkDie (d : Nat) : Bool := d < 4
/-- A submission slot (17 R369). -/
def wfSlot (k : Nat) : Bool := k < 64
/-- A module of a forest (14 R293). -/
def wfModule (m : Nat) : Bool := m < 16384
/-- A regulator of a clearing (12 R265): stack groups 1 to 4, the cellar 5, ports 20h to 3Fh; `dir` 1 is ingress. -/
def wfRegulator (res dir : Nat) : Bool :=
  ((1 ≤ res && res ≤ 5) && dir == 0) || (0x20 ≤ res && res ≤ 0x3F && dir ≤ 1)
/-- A copier channel (11 R249). -/
def wfChannel (k : Nat) : Bool := k < 4
/-- A micro-program entry (06 R128). -/
def wfMicro (e : Nat) : Bool := e < 64
/-- A collective instance (14 R310). -/
def wfColl (i : Nat) : Bool := i < 4096
/-- A lane of a port (01 R14: eight active and one spare). -/
def wfLane (l : Nat) : Bool := l ≤ 9
/-- A turning unit (10 R212). -/
def wfUnit (u : Nat) : Bool := u < 1024
/-- The inputs of the arbiters of a group index (13 R280): bank ports, ring and memory bridges, channel queues, switch
egress to a memory bridge, to the link die and to the hub, cellar channel queues, link egress. -/
def arbInputs (group : Nat) : List Nat :=
  if 0x6110 ≤ group && group ≤ 0x611F then [0, 1, 2, 3, 4, 5]
  else if 0x6120 ≤ group && group ≤ 0x614F then [0, 1]
  else if 0x6150 ≤ group && group ≤ 0x6153 then [0, 1, 2, 3, 4, 5]
  else if 0x6154 ≤ group && group ≤ 0x6157 then [0, 1, 6]
  else if 0x6158 ≤ group && group ≤ 0x615B then [0, 2, 3, 4, 5, 6]
  else if 0x615C ≤ group && group ≤ 0x615F then [1, 2, 3, 4, 5, 6]
  else if 0x6160 ≤ group && group ≤ 0x6163 then [0, 1, 2, 3, 4, 5]
  else if 0x6170 ≤ group && group ≤ 0x618F then [0, 1, 2, 3]
  else []
/-- The arbiters of a group (13 R280, R290): 16 banks of each physical cell, bank b of cell p as number 16 p + b, three
stacks of 32 channels at a switch (PRESUMED, log entry 17), four memory bridges of a switch, eight cellar channels of a
group, one elsewhere. -/
def arbUnits (group : Nat) : Nat :=
  if 0x6110 ≤ group && group ≤ 0x611F then 272 * 16
  else if 0x6150 ≤ group && group ≤ 0x6153 then 3 * 32
  else if 0x6154 ≤ group && group ≤ 0x6157 then 4
  else if 0x6160 ≤ group && group ≤ 0x6163 then 8
  else 1
/-- An input of an arbiter of 13 R280. -/
def wfArb (group unit input : Nat) : Bool := (arbInputs group).contains input && unit < arbUnits group

/-- Whether every number of a command is one of the module's. -/
def Instr.wf : Instr → Bool
  | .thermalWarn g _ => wfGrove g
  | .thermalTrip die _ => wfDie die
  | .thermalHotTimeout die _ => wfDie die
  | .rateMeasure die _ => wfDie die
  | .regRefill n res dir => wfClearing n && wfRegulator res dir
  | .planPart slot _ => wfSlot slot
  | .vatRequest slot => wfSlot slot
  | .cancel slot => wfSlot slot
  | .pause slot => wfSlot slot
  | .reward slot => wfSlot slot
  | .planWithdraw slot => wfSlot slot
  | .dictSlotRead slot => wfSlot slot
  | .dictSlotWrite slot _ => wfSlot slot
  | .restore _ n _ _ => wfClearing n
  | .restoreOlder _ n _ _ => wfClearing n
  | .restoreDone n _ _ _ _ _ => wfClearing n
  | .healthClear _ n => wfClearing n
  | .keyWrappedWrite _ n _ => wfClearing n
  | .keyOpeningDone n => wfClearing n
  | .create _ n => wfClearing n
  | .clearingCreated n => wfClearing n
  | .resize _ n => wfClearing n
  | .destroy _ n => wfClearing n
  | .clearingDestroyed n => wfClearing n
  | .microprogWrite _ entry _ _ => wfMicro entry
  | .microprogLoaded entry => wfMicro entry
  | .quotaScrubDone n => wfClearing n
  | .gwDatagram port _ => wfGwPort port
  | .tileLoad g c _ => wfCell g c
  | .tilePick g c _ => wfCell g c
  | .matmul g c _ => wfCell g c
  | .splitSum g c _ => wfCell g c
  | .convert g c _ => wfCell g c
  | .rmsNorm g c _ => wfCell g c
  | .rmsNormBwd g c _ => wfCell g c
  | .softmax g c _ => wfCell g c
  | .softmaxBwd g c _ => wfCell g c
  | .rowVariance g c _ => wfCell g c
  | .funcApply g c _ => wfCell g c
  | .mask g c _ => wfCell g c
  | .rawWords g c _ => wfCell g c
  | .updateP1 g c _ => wfCell g c
  | .updateP2 g c _ => wfCell g c
  | .updateScalars g c _ => wfCell g c
  | .precondPrep g c _ => wfCell g c
  | .precondChol g c _ => wfCell g c
  | .precondMm g c _ => wfCell g c
  | .precondAffine g c _ => wfCell g c
  | .move g c _ => wfCell g c
  | .pageGather g c _ => wfCell g c
  | .pageAppend g c _ => wfCell g c
  | .weightRead g c _ => wfCell g c
  | .sideSave g c _ => wfCell g c
  | .sideLoad g c _ => wfCell g c
  | .tierMove g c _ => wfCell g c
  | .triggerPost g c _ => wfCell g c
  | .counterSignal g c _ src => wfCell g c && wfClearing src
  | .remoteReadServe f asker => wfModule f.src && wfClearing f.clearing && wfClearing asker
  | .remoteWriteServe f asker => wfModule f.src && wfClearing f.clearing && wfClearing asker
  | .lockOverrun group unit input =>
    wfArb group unit input
  | .cellarLate n _ _ => wfClearing n
  | .cellarGroupFailed group => group < 4
  | .vatStepStart n _ => wfClearing n
  | .vatStepEnd n _ _ => wfClearing n
  | .pressBatchTake n => wfClearing n
  | .pauseExpired n _ => wfClearing n
  | .stepBoundary n _ _ => wfClearing n
  | .cultureFillDone g _ => wfGrove g
  | .claimTaken n g _ => wfClearing n && wfGrove g
  | .claimHoldExpire n => wfClearing n
  | .claimReleased n => wfClearing n
  | .multiplexSwitch g phys => wfPhys g phys
  | .versionProduced n => wfClearing n
  | .landingReserve n => wfClearing n
  | .shardSend n unit _ dst _ _ => wfClearing n && wfUnit unit && wfModule dst
  | .shardLanded n unit _ _ _ => wfClearing n && wfUnit unit
  | .frontStart n _ => wfClearing n
  | .unitReplace n _ => wfClearing n
  | .turnSourceCurrent n _ => wfClearing n
  | .vatLoad n version => wfClearing n && version < 256
  | .loadDone n => wfClearing n
  | .snapshotOpen n => wfClearing n
  | .blockCopied ch => wfChannel ch
  | .snapshotFailed ch _ => wfChannel ch
  | .portBringup p _ => wfPort p
  | .identReceive p _ => wfPort p
  | .laneFailure p lane => wfPort p && wfLane lane
  | .flitReceive p f => wfPort p && wfModule f.src
  | .transitForward p f => wfPort p && wfModule f.dest
  | .trigPost die n _ => wfLinkDie die && wfClearing n
  | .chunkArrive die l _ _ _ => wfLinkDie die && wfClearing l.clearing
  | .chunkAck die l => wfLinkDie die && wfClearing l.clearing
  | .chunkRetry die l _ => wfLinkDie die && wfClearing l.clearing
  | .collFail n coll _ _ _ => wfClearing n && wfColl coll
  | .collTimeout n coll _ => wfClearing n && wfColl coll
  | .shardVerified n _ _ => wfClearing n
  | .ckptComplete n _ _ _ _ => wfClearing n
  | .heartbeat n src _ => wfClearing n && wfModule src
  | .heartbeatMiss n modNo _ => wfClearing n && wfModule modNo
  | .failureReport n modNo _ _ => wfClearing n && wfModule modNo
  | .shrink n _ _ _ => wfClearing n
  | .shrinkResume n _ _ _ _ _ => wfClearing n
  | .shrinkLimit n _ => wfClearing n
  | .stepTimeReport n _ _ _ => wfClearing n
  | .rejoinReady n modNo _ _ => wfClearing n && wfModule modNo
  | .rejoinDone n _ _ _ => wfClearing n
  | .understorySegment g phys _ => wfPhys g phys
  | .testOverdue g phys => wfPhys g phys
  | .spareIn g _ => wfGrove g
  | .remargin g _ => wfGrove g
  | .ckptDrainEnd n => wfClearing n
  | .gatewayFrame p _ => wfGwPort p
  | .start _ | .powerOff _ | .moduleReset _ | .hold _ | .holdDone | .resume _ | .capControlTick _ _ _
  | .thermRelease _ | .coolantLow _ _ _ | .perstAssert | .perstRelease | .sweep _ | .planIncomplete _
  | .registerWrite _ _ _ _ | .read _ | .write _ | .segRead _ | .segWrite _ | .abort _ | .transferTimeout _ _ _
  | .bar0Write _ _ | .apertureLoad _ | .apertureCommit _ | .evAckedWrite _ | .ringConsumedWrite _ _ | .store _
  | .resetDefaults _ | .storeDone | .fwStageDataWrite _ _ | .erase _ | .verify _ | .select _ | .arbClear _
  | .cellarTtlEnableWrite _ _ | .attestReportRead _ | .sessionOpenManager _ _ | .sessionOpenTenant _ _
  | .commission _ _ | .close _ _ | .sessionTimeout _ | .cryptoError | .mpTableWrite _ _ | .remoteReply _ _ _ _
  | .remoteTimeout _ | .pcieLinkDown => true

end Sys2Proof
end

