-- ==== Sys2Proof/Machine/Ops.lean ====
section
/-! DEFINITION. The named operations every meaning is built from: maps, memory, dictionary values and counters,
events, resources by number, regulators, granules. -/

namespace Sys2Proof.Machine

/-! ### Maps -/

/-- The value at a key. -/
def look {α : Type} : Map α → Nat → Option α
  | [], _ => none
  | (k, v) :: m, a => if k == a then some v else if a < k then none else look m a

/-- The map with a value at a key; keys stay strictly rising. -/
def ins {α : Type} : Map α → Nat → α → Map α
  | [], a, x => [(a, x)]
  | (k, v) :: m, a, x =>
    if a < k then (a, x) :: (k, v) :: m else if k == a then (a, x) :: m else (k, v) :: ins m a x

/-- The map without a key. -/
def del {α : Type} : Map α → Nat → Map α
  | [], _ => []
  | (k, v) :: m, a => if k == a then m else if a < k then (k, v) :: m else (k, v) :: del m a

/-- The keys of a map rise strictly. -/
def risingFrom {α : Type} : Nat → Map α → Bool
  | _, [] => true
  | lo, (k, _) :: m => lo ≤ k && risingFrom (k + 1) m

/-! ### Memory: canonical sparse bytes (log entry 3) -/

/-- The byte at an address. -/
def Mem.read (m : Mem) (a : Nat) : Byte := (look m a).getD 0

/-- One byte written; a zero removes the entry, so that equal memories are equal data. -/
def Mem.write (m : Mem) (a : Nat) (b : Byte) : Mem := if b == 0 then del m a else ins m a b

/-- The bytes of a range. -/
def Mem.reads (m : Mem) (a n : Nat) : List Byte := (List.range n).map fun i => Mem.read m (a + i)

/-- Bytes written from an address on. -/
def Mem.writes : Mem → Nat → List Byte → Mem
  | m, _, [] => m
  | m, a, b :: bs => Mem.writes (Mem.write m a b) (a + 1) bs

/-- A range set to zero. -/
def Mem.zero (m : Mem) (a n : Nat) : Mem := m.filter fun p => p.1 < a || a + n ≤ p.1

/-- The listed bytes of a range written over another memory's range, its other bytes zero. -/
def Mem.copy (m : Mem) (src n dst : Nat) : Mem :=
  (m.filter fun p => src ≤ p.1 && p.1 < src + n).foldl
    (fun acc p => Mem.write acc (p.1 - src + dst) p.2) (Mem.zero m dst n)

/-- The canonical form: addresses strictly rising, no entry equal to the value an unlisted address reads as. -/
def Mem.wf (m : Mem) : Bool := risingFrom 0 m && m.all fun p => p.2 != 0

/-! ### Where bytes lie (log entry 14): a place is a tag, a clearing and an offset. -/

/-- Scratchpad (from 0) and side memory (from 1 MiB) of a physical cell. -/
def cellAddr (g phys off : Nat) : Nat := 0x110000 * (g * 272 + phys) + off

/-- Region byte of a clearing: tier 1 or tier 2 (11 R233). -/
def regionAddr (tier n off : Nat) : Nat := 2 ^ 60 * tier + 2 ^ 52 * n + off

/-- Spill-area byte of a clearing (11 R242), outside its region. -/
def spillArea (n off : Nat) : Nat := 3 * 2 ^ 60 + 2 ^ 52 * n + off

namespace State

/-- Memory bytes. -/
def peek (s : State) (a n : Nat) : List Byte := Mem.reads s.mem a n
/-- Memory bytes written. -/
def poke (s : State) (a : Nat) (b : List Byte) : State := { s with mem := Mem.writes s.mem a b }
/-- A memory range zeroed: every line of it is written, so that none stays POISON (11 R241, R248). -/
def wipe (s : State) (a n : Nat) : State :=
  { s with mem := Mem.zero s.mem a n, poison := s.poison.filter fun l => l < a || a + n < l + 64 }
/-- A memory range copied. -/
def copyMem (s : State) (src n dst : Nat) : State := { s with mem := Mem.copy s.mem src n dst }
/-- A memory range moved: the source reads zero after it. A range that lies there already stays. -/
def moveMem (s : State) (src n dst : Nat) : State := if src == dst then s else (s.copyMem src n dst).wipe src n

/-- POISON lines that a write of `len` bytes covers whole read again (11 R248). -/
def healLines (s : State) (a len : Nat) : State :=
  if s.poison.isEmpty then s else { s with poison := s.poison.filter fun l => l < a || a + len < l + 64 }
/-! ### Dictionary values -/

/-- The value a read of a scalar entry returns (17 R355). -/
def rd (s : State) (idx sub : Nat) : Nat := (look s.dict (keyOf idx sub)).getD (scalarDefault idx sub)
/-- A scalar entry's value set. -/
def wr (s : State) (idx sub v : Nat) : State := { s with dict := ins s.dict (keyOf idx sub) v }
/-- The value in force of an entry that takes effect at a boundary. -/
def frc (s : State) (idx sub : Nat) : Nat := (look s.force (keyOf idx sub)).getD (scalarDefault idx sub)
/-- The value in force set. -/
def setFrc (s : State) (idx sub v : Nat) : State := { s with force := ins s.force (keyOf idx sub) v }
/-- A STR or BLOB entry's value. -/
def rdBlob (s : State) (idx sub : Nat) : List Byte := (look s.blobs (keyOf idx sub)).getD (blobDefault idx sub)
/-- A STR or BLOB entry's value set. -/
def wrBlob (s : State) (idx sub : Nat) (v : List Byte) : State := { s with blobs := ins s.blobs (keyOf idx sub) v }
/-- The cell or claim map in force (12 R259). -/
def frcBlob (s : State) (idx sub : Nat) : List Byte :=
  (look s.blobForce (keyOf idx sub)).getD (blobDefault idx sub)
/-- The cell or claim map in force set. -/
def setFrcBlob (s : State) (idx sub : Nat) (v : List Byte) : State :=
  { s with blobForce := ins s.blobForce (keyOf idx sub) v }

/-- The largest value of an entry's type. -/
def topOf (idx sub : Nat) : Nat :=
  match entryAt idx sub with
  | some e => match e.ty.width with
    | some w => 256 ^ w - 1
    | none => 0
  | none => 0

/-- A counter raised; it holds at its largest value. -/
def bump (s : State) (idx sub k : Nat) : State := s.wr idx sub (min (s.rd idx sub + k) (topOf idx sub))
/-- A counter published only at a boundary: its running value (04 R89). -/
def liveOf (s : State) (idx sub : Nat) : Nat := (look s.live (keyOf idx sub)).getD (s.rd idx sub)
/-- The running value raised. -/
def bumpLive (s : State) (idx sub k : Nat) : State :=
  { s with live := ins s.live (keyOf idx sub) (min (s.liveOf idx sub + k) (topOf idx sub)) }
/-- The running values of some entries published. -/
def publish (s : State) (keys : List (Nat × Nat)) : State :=
  keys.foldl (fun s k => match look s.live (keyOf k.1 k.2) with
    | some v => { s.wr k.1 k.2 v with live := del s.live (keyOf k.1 k.2) }
    | none => s) s

/-! ### Resources by number -/

/-- A logical cell. -/
def cell (s : State) (g c : Nat) : Cell := (look s.cells (g * 256 + c)).getD {}
/-- A logical cell set. -/
def setCell (s : State) (g c : Nat) (x : Cell) : State := { s with cells := ins s.cells (g * 256 + c) x }
/-- A grove. -/
def grove (s : State) (g : Nat) : Grove := (look s.groves g).getD {}
/-- A grove set. -/
def setGrove (s : State) (g : Nat) (x : Grove) : State := { s with groves := ins s.groves g x }
/-- A clearing. -/
def clr (s : State) (n : Nat) : Clearing := (look s.clearings n).getD {}
/-- A clearing set. -/
def setClr (s : State) (n : Nat) (x : Clearing) : State := { s with clearings := ins s.clearings n x }
/-- A port. -/
def port (s : State) (p : Nat) : Port := (look s.ports p).getD {}
/-- A port set. -/
def setPort (s : State) (p : Nat) (x : Port) : State := { s with ports := ins s.ports p x }
/-- A link die. -/
def linkDie (s : State) (d : Nat) : LinkDie := (look s.linkDies d).getD {}
/-- A link die set. -/
def setDie (s : State) (d : Nat) (x : LinkDie) : State := { s with linkDies := ins s.linkDies d x }
/-- A copier channel. -/
def copier (s : State) (k : Nat) : Copier := (look s.copiers k).getD {}
/-- A copier channel set. -/
def setCopier (s : State) (k : Nat) (x : Copier) : State := { s with copiers := ins s.copiers k x }
/-- A collective's record. -/
def coll (s : State) (n i : Nat) : Coll := (look s.colls (n * 4096 + i)).getD {}
/-- A collective's record set. -/
def setColl (s : State) (n i : Nat) (x : Coll) : State := { s with colls := ins s.colls (n * 4096 + i) x }
/-- Something sent to the outside (log entry 15). -/
def emit (s : State) (o : Out) : State := { s with outbox := s.outbox ++ [o] }
/-- The next free value, and the state with the counter advanced (log entry 16). -/
def fresh (s : State) : Nat × State := (Config.freeValue s.free, { s with free := s.free + 1 })

/-- This module's number in force (18 R390). -/
def ownModule (s : State) : Nat := s.frc 0x1003 1

/-! ### Clearings' entries by name (12 R255) -/

/-- CLEAR_STATE: 0 ABSENT, 1 CREATING, 2 IDLE, 3 ACTIVE, 4 DESTROYING. -/
def clearState (s : State) (n : Nat) : Nat := s.rd (0x2000 + 16 * n) 1
/-- CLEAR_STATE set. -/
def setClearState (s : State) (n v : Nat) : State := s.wr (0x2000 + 16 * n) 1 v
/-- CLEAR_KIND is walled. -/
def walled (s : State) (n : Nat) : Bool := s.rd (0x2000 + 16 * n) 2 == 1
/-- TENANT. -/
def tenantOf (s : State) (n : Nat) : Nat := s.rd (0x2000 + 16 * n) 3
/-- JOB. -/
def jobOf (s : State) (n : Nat) : Nat := s.rd (0x2000 + 16 * n) 4
/-- JOB_ROLE: 1 PRESS, 2 VAT, 3 TASTER. -/
def jobRole (s : State) (n : Nat) : Nat := s.rd (0x2000 + 16 * n) 5
/-- Whether a clearing exists: CREATING to DESTROYING. -/
def exists? (s : State) (n : Nat) : Bool := s.clearState n != 0
/-- Two clearings of one tenant and job. -/
def sameJob (s : State) (a b : Nat) : Bool :=
  s.tenantOf a == s.tenantOf b && s.jobOf a == s.jobOf b && s.exists? a && s.exists? b

/-- Bit `c` of a map blob (12 R255). -/
def mapBit (b : List Byte) (c : Nat) : Bool := (b.getD (c / 8) 0).getLsbD (c % 8)
/-- Whether a clearing holds a logical cell by its map in force. -/
def holds (s : State) (n g c : Nat) : Bool := mapBit (s.frcBlob (0x2001 + 16 * n) (g + 1)) c
/-- Whether a clearing's claim map in force names a logical cell. -/
def mayClaim (s : State) (n g c : Nat) : Bool := mapBit (s.frcBlob (0x2002 + 16 * n) (g + 1)) c
/-- The cells of a map blob. -/
def mapCells (b : List Byte) : List Nat := (List.range 256).filter fun c => mapBit b c
/-- The clearings that exist. -/
def present (s : State) : List Nat := (List.range 64).filter fun n => s.exists? n
/-- The logical cells a clearing holds on a grove. -/
def cellsOn (s : State) (n g : Nat) : List Nat := mapCells (s.frcBlob (0x2001 + 16 * n) (g + 1))
/-- The groves on which a clearing holds cells; for the culture table a cell held by claim does not count (05 R95, R97;
DESIGN CHOICE, log entry 29). -/
def grovesOf (s : State) (n : Nat) : List Nat :=
  (List.range 16).filter fun g => !(allZero (s.frcBlob (0x2001 + 16 * n) (g + 1)))
/-- The groves on which a clearing holds or may claim cells. -/
def reachOf (s : State) (n : Nat) : List Nat :=
  (List.range 16).filter fun g =>
    !(allZero (s.frcBlob (0x2001 + 16 * n) (g + 1)) && allZero (s.frcBlob (0x2002 + 16 * n) (g + 1)))
/-- The place of a number in a list. -/
def rankIn (l : List Nat) (c : Nat) : Nat := l.findIdx (· == c)
/-- The offset of byte `off` of the slot with a rank in a grove's spill region: scratchpad from 0, side memory from 1 MiB
(11 R242). -/
def spillOff (g rank off : Nat) : Nat := 2 ^ 40 * g + 0x110000 * rank + off
/-- The rank of a logical cell among a clearing's cells on its grove; a cell held by claim comes behind them (11 R242). -/
def spillRank (s : State) (n g c : Nat) : Nat :=
  if s.holds n g c then rankIn (s.cellsOn n g) c else (s.cellsOn n g).length + c
/-- Spill-slot byte of a clearing's logical cell (11 R242). -/
def spillAddr (s : State) (n g c off : Nat) : Nat := spillArea n (spillOff g (s.spillRank n g c) off)
/-- The clearings assigned to a cell, in ascending number (a claim held counts). -/
def clearingsOn (s : State) (g c : Nat) : List Nat :=
  s.present.filter fun n => s.holds n g c || (s.cell g c).claimed == some n

/-- The physical cell that serves a logical cell (20 R424, R427). -/
def physOf (s : State) (g c : Nat) : Nat := (look (s.grove g).remap c).getD (17 * (c / 16) + c % 16)
/-- Whether a logical cell is multiplexed and its host runs another one now, so that its granules lie in their owners'
spill slots (20 R431). -/
def spilledOut (s : State) (g c : Nat) : Bool :=
  match look (s.grove g).hosting (s.physOf g c) with
  | some d => d != c
  | none => false
/-- The granules of a clearing on a logical cell lie in their spill slots: the clearing is parked there by a claim (12
R274), or the cell's host serves another logical cell now (20 R431). -/
def spilled (s : State) (n g c : Nat) : Bool := ((s.cell g c).parked.any fun p => p.victim == n) || s.spilledOut g c
/-- The owner of the granule of a byte of a logical cell, scratchpad from 0 and side memory from 1 MiB (03 R55). -/
def granuleOwner (s : State) (g c off : Nat) : Option Nat :=
  if off < 0x100000 then look (s.cell g c).scratchOwn (off / 0x4000)
  else look (s.cell g c).sideOwn ((off - 0x100000) / 4096)
/-- Address of a byte of a logical cell, scratchpad from 0 and side memory from 1 MiB (03 R54, R56): in the physical cell
that serves it, or while it is spilled in its owner's spill slot, so that spare-in and multiplexing change nothing a plan
sees but time (01 R15). -/
def homeAddr (s : State) (g c off : Nat) : Nat :=
  if s.spilledOut g c then
    match s.granuleOwner g c off with
    | some n => s.spillAddr n g c off
    | none => cellAddr g (s.physOf g c) off
  else cellAddr g (s.physOf g c) off
/-- Address of a logical cell's scratchpad byte (03 R54). -/
def scrAddr (s : State) (g c off : Nat) : Nat := s.homeAddr g c off
/-- Address of a logical cell's side-memory byte (03 R56). -/
def sideAddr (s : State) (g c off : Nat) : Nat := s.homeAddr g c (0x100000 + off)
/-- Quadrant of a grove: groves lie 4 × 4 on the panel (00 R10), and a quadrant is 2 × 2 of them (02 R35). -/
def quadrant (g : Nat) : Nat := g / 8 * 2 + g % 4 / 2

/-! ### Events (17 R376) -/

/-- Whether HOST_RB is released (17 R378): in START, RUN and HELD exactly while the counts differ. -/
def rbReleased (s : State) : Bool :=
  match s.power.mode with
  | .off => true
  | _ => s.hub.produced != s.hub.acked

/-- HOST_RB re-evaluated and published in HOST_RB_STATE. -/
def updateRb (s : State) : State := s.wr 0xA002 3 (if s.rbReleased then 1 else 0)

/-- Whether the ring pool's bytes from `off` on for `len` are free: no ring and no detail block lies there. -/
def poolFree (h : Hub) (off len : Nat) : Bool :=
  (h.rings.all fun r => off + len ≤ r.2.offset || r.2.offset + ceilDiv (64 + 16 * r.2.entries) 4096 * 4096 ≤ off)
    && h.details.all fun b => off + len ≤ b.offset || b.offset + ceilDiv b.bytes.length 4096 * 4096 ≤ off

/-- The places a new block may start at: the pool's base and the ends of the blocks in use. -/
def poolStarts (h : Hub) : List Nat :=
  0x510000 :: (h.rings.map fun r => r.2.offset + ceilDiv (64 + 16 * r.2.entries) 4096 * 4096)
    ++ h.details.map fun b => b.offset + ceilDiv b.bytes.length 4096 * 4096

/-- A place for `len` bytes in the ring pool, in units of 4 KiB (17 R369); none when nothing fits. -/
def poolAlloc (h : Hub) (len : Nat) : Option Nat :=
  let n := ceilDiv len 4096 * 4096
  (poolStarts h).find? fun o => o + n ≤ 0x4000000 && poolFree h o n

/-- An event posted (17 R376): it takes the next SEQ, is logged, and is written to the ring when the ring has room;
a detail longer than 32 bytes gets a block when the event reaches the ring and the pool has room. -/
def postFull (s : State) (name : Name) (clearing slot : Nat) (status : Name) (tag : Nat) (detail : List Byte) :
    State :=
  let h := s.hub
  let room := (h.produced + pow2 32 - h.acked) % pow2 32 != 16384
  let long := 32 < detail.length
  let block := if long && room then poolAlloc h detail.length else none
  let ev : Ev := {
    name := name, seq := h.seq, time := s.time, clearing := clearing, slot := slot, status := status, tag := tag,
    detail := if long then detail.take 32 else detail,
    long := block.map fun o => (o, detail.length),
    truncated := long && block.isNone }
  let h1 : Hub := { h with
    seq := (h.seq + 1) % pow2 32,
    evLog := (ev :: h.evLog).take 4096,
    details := match block with
      | some o => h.details ++ [{ seq := h.produced, offset := o, bytes := detail }]
      | none => h.details,
    evRing := if room then ins h.evRing (h.produced % 16384) ev else h.evRing,
    produced := if room then (h.produced + 1) % pow2 32 else h.produced,
    lost := if room then h.lost else (h.lost + 1) % pow2 32 }
  let s1 := { s with hub := h1 }
  let s2 := if room then s1 else s1.bump 0xA002 2 1
  (s2.wr 0x7100 2 h.seq).updateRb

/-- An event of a clearing. -/
def post (s : State) (name : Name) (clearing : Nat) (status : Name := .ok) (tag : Nat := 0)
    (detail : List Byte := []) : State :=
  s.postFull name clearing 0xFFFF status tag detail

/-- A module-wide event. -/
def postAll (s : State) (name : Name) (status : Name := .ok) (detail : List Byte := []) : State :=
  s.postFull name 0xFF 0xFFFF status 0 detail

end State

/-- Numbers laid out as consecutive 32-bit little-endian words: the detail of an event whose chapter names what the
event names and gives no layout (log entry 18). -/
def words (l : List Nat) : List Byte := (l.map (leBytes 4)).flatten

/-- An event record's 64 bytes (17 R376). -/
def Ev.bytes (e : Ev) : List Byte :=
  let d := match e.long with
    | some p => slice (leBytes 4 p.1 ++ leBytes 4 p.2) 0 32
    | none => slice e.detail 0 32
  leBytes 4 e.name.code ++ leBytes 4 e.seq ++ leBytes 8 e.time ++ leBytes 1 e.clearing
    ++ leBytes 1 ((if e.truncated then 2 else 0) + (if e.long.isSome then 1 else 0))
    ++ leBytes 2 e.slot ++ leBytes 4 e.status.code ++ leBytes 8 e.tag ++ d

namespace State

/-! ### Power guards -/

/-- The dictionary and the paths exist: any state but OFF. -/
def on (s : State) : Bool := s.power.mode != .off
/-- RUN or HELD: sweeps are made (21 R444, R446). -/
def serving (s : State) : Bool := s.power.mode == .run || s.power.mode == .held
/-- RUN. -/
def running (s : State) : Bool := s.power.mode == .run

/-- The module enters OFF (21 R445): all state but the flash devices and the one-time-programmable storage is lost,
and a STORE in progress leaves its target invalid (17 R382). The pins, what was already sent and the model's own
counter and queue are not the module's state. -/
def powerDown (s : State) : State :=
  let f := s.flash
  let f1 : Flash := match f.writing with
    | some (0, _) => { f with bank0 := {}, writing := none }
    | some (_, _) => { f with bank1 := {}, writing := none }
    | none => f
  { State.reset with
    flash := { f1 with lastBank := none, verified := false },
    otp := s.otp,
    power := { perst := s.power.perst },
    outbox := s.outbox, free := s.free, pending := s.pending }

/-- What a tick of an empty queue does: one nanosecond of module time passes while the module is not OFF, and an
accepted MODULE_RESET takes effect when its millisecond is over (log entry 1, 18 R392). -/
def idle (s : State) : State :=
  if s.on then
    let s1 := { s with time := s.time + 1 }
    match s.power.resetAt with
    | some t => if t ≤ s1.time then s1.powerDown else s1
    | none => s1
  else s

/-! ### Regulators (12 R265 to R269, 11 R238) -/

/-- Bucket key of a clearing's regulator on a resource: 1 to 4 stack groups, 5 the cellar, 20h to 3Fh ports; `dir` 1
for a port's ingress. -/
def bucketKey (n res dir : Nat) : Nat := n * 256 + res * 2 + dir

/-- A bucket's bytes. -/
def bucket (s : State) (n res dir : Nat) : Int := (look s.buckets (bucketKey n res dir)).getD 0

/-- The capacity C of a resource in bytes per second (12 R266). -/
def capacity (res : Nat) : Nat :=
  if 1 ≤ res && res ≤ 4 then 7680000000000 else if res == 5 then 1228800000000 else 200000000000

/-- The die (02 R31 numbering) on which a resource's regulator runs: switch, hub or link die. -/
def regDie (res : Nat) : Nat :=
  if 1 ≤ res && res ≤ 4 then 0x15 + res else if res == 5 then 0x11
  else 0x12 + (if res - 0x20 < 24 then (res - 0x20) / 6 else (res - 0x20 - 24) / 2)

/-- REFILL bytes of a regulator (12 R266): the share in force of the capacity over 1,024 beats at the measured rate;
0 before any rate is measured. -/
def refill (s : State) (n res : Nat) : Nat :=
  let rate := s.rd 0x1112 (regDie res)
  if rate == 0 then 0
  else s.frc (0x2410 + n) res * capacity res * 1024 / (4096000000 * rate)

/-- The most a bucket holds. -/
def bucketTop (s : State) (n res : Nat) : Nat := s.rd 0x2400 3 * s.refill n res

/-- What the lending pool of a resource and direction holds (12 R269). -/
def lendingPool (s : State) (res dir : Nat) : Nat := (look s.pools (res * 2 + dir)).getD 0

/-- The bytes an elastic clearing draws from the lending pool for a transfer its bucket lacks the bytes of; a strict
clearing never draws (12 R269). -/
def borrowed (s : State) (n res dir bytes : Nat) : Nat :=
  if s.frc 0x2450 n == 1 then min ((bytes : Int) - s.bucket n res dir).toNat (s.lendingPool res dir) else 0

/-- Bytes charged to a regulator (11 R238): what the bucket lacks an elastic clearing draws from the pool, and the
rest is taken from the bucket. A transfer that enters as the bucket refills leaves a debt in it (log entry 19). -/
def charge (s : State) (n res dir bytes : Nat) : State :=
  let lent := s.borrowed n res dir bytes
  let s1 := { s with
    buckets := ins s.buckets (bucketKey n res dir) (s.bucket n res dir + lent - bytes),
    pools := if lent == 0 then s.pools else ins s.pools (res * 2 + dir) (s.lendingPool res dir - lent),
    lastDraw := if lent == 0 then s.lastDraw else ins s.lastDraw (res * 2 + dir) n }
  let s2 := s1.bump (0x2460 + n) res bytes
  if lent == 0 then s2 else s2.bump (0x24A0 + n) res lent

/-- The clearings in rotating order: from the one after the last that drew from a pool (12 R269). -/
def drawOrder (s : State) (res dir : Nat) : List Nat :=
  (List.range 64).map fun i => ((look s.lastDraw (res * 2 + dir)).getD 63 + 1 + i) % 64

/-- The clearings whose buckets lack bytes draw them from a pool in rotating order; a strict one never draws (12 R269). -/
def drawAll (s : State) (res dir : Nat) : State :=
  (s.drawOrder res dir).foldl (fun s n => if s.borrowed n res dir 0 == 0 then s else s.charge n res dir 0) s

/-! ### Granules (03 R55) -/

/-- Whether a clearing owns every scratchpad granule of a byte range on a cell. -/
def ownsScratch (s : State) (n g c a len : Nat) : Bool :=
  len == 0 || (a + len ≤ 0x100000 &&
    (List.range ((a + len - 1) / 0x4000 - a / 0x4000 + 1)).all fun i =>
      look (s.cell g c).scratchOwn (a / 0x4000 + i) == some n)

/-- The free scratchpad granules of a cell, lowest first. -/
def freeScratch (x : Cell) : List Nat := (List.range 64).filter fun i => (look x.scratchOwn i).isNone
/-- The free side granules of a cell, lowest first. -/
def freeSide (x : Cell) : List Nat := (List.range 16).filter fun i => (look x.sideOwn i).isNone
/-- The granules a clearing owns in an ownership map, lowest first. -/
def ownedBy (m : Map Nat) (n : Nat) : List Nat := (m.filter fun p => p.2 == n).map (·.1)

/-- The lowest-numbered free granules given to a clearing on a cell up to its quotas (12 R258, step 3). One parked there
by a claim has its granules in its context (R274). -/
def assignGranules (s : State) (n g c : Nat) : State :=
  let x := s.cell g c
  if x.parked.any fun q => q.victim == n then s else
  let ns := s.frc (0x4040 + n) 1 - (ownedBy x.scratchOwn n).length
  let nd := s.frc (0x4040 + n) 2 - (ownedBy x.sideOwn n).length
  let so := ((freeScratch x).take ns).foldl (fun m i => ins m i n) x.scratchOwn
  let sd := ((freeSide x).take nd).foldl (fun m i => ins m i n) x.sideOwn
  s.setCell g c { x with scratchOwn := so, sideOwn := sd }

/-- Words that failed their code and that a write of `len` bytes at a cell offset covers whole read again (20 R421). -/
def healWords (s : State) (g c off len : Nat) : State :=
  let x := s.cell g c
  if x.badWords.isEmpty then s
  else s.setCell g c { x with badWords := x.badWords.filter fun w => w < off || off + len < w + 8 }
/-- Bytes written into a logical cell, scratchpad from 0 and side memory from 1 MiB. -/
def putCell (s : State) (g c off : Nat) (b : List Byte) : State :=
  (s.poke (s.homeAddr g c off) b).healWords g c off b.length
/-- Scratchpad granules of a cell zeroed where they lie. -/
def zeroScratch (s : State) (g c : Nat) (l : List Nat) : State :=
  l.foldl (fun s i => (s.wipe (s.scrAddr g c (i * 0x4000)) 0x4000).healWords g c (i * 0x4000) 0x4000) s
/-- Side granules of a cell zeroed where they lie. -/
def zeroSide (s : State) (g c : Nat) (l : List Nat) : State :=
  l.foldl (fun s i => (s.wipe (s.sideAddr g c (i * 4096)) 4096).healWords g c (0x100000 + i * 4096) 4096) s
/-- Scratchpad granules of a cell that belong to no clearing any more. -/
def freeScratchOf (s : State) (g c : Nat) (l : List Nat) : State :=
  s.setCell g c { s.cell g c with scratchOwn := l.foldl del (s.cell g c).scratchOwn }
/-- Side granules of a cell that belong to no clearing any more. -/
def freeSideOf (s : State) (g c : Nat) (l : List Nat) : State :=
  s.setCell g c { s.cell g c with sideOwn := l.foldl del (s.cell g c).sideOwn }
/-- Scratchpad granules zeroed where they lie, and released (03 R55). -/
def dropScratch (s : State) (g c : Nat) (l : List Nat) : State := (s.zeroScratch g c l).freeScratchOf g c l
/-- Side granules zeroed where they lie, and released (03 R55). -/
def dropSide (s : State) (g c : Nat) (l : List Nat) : State := (s.zeroSide g c l).freeSideOf g c l

/-- Every granule of a clearing on a cell released and zeroed (03 R55). -/
def releaseGranules (s : State) (n g c : Nat) : State :=
  let x := s.cell g c
  (s.dropScratch g c (ownedBy x.scratchOwn n)).dropSide g c (ownedBy x.sideOwn n)

/-! ### Plans stopped on a grove (03 R49) -/

/-- A clearing's plan stops on a grove: PLAN_STOPPED in the form of R49, and no further tiles there. -/
def stopPlan (s : State) (n g c tileId order : Nat) (why : Name) : State :=
  let x := s.clr n
  let s1 := s.setClr n { x with stopped := if x.stopped.contains g then x.stopped else g :: x.stopped }
  s1.post .planStopped n why tileId
    (leBytes 8 tileId ++ leBytes 1 g ++ leBytes 1 c ++ leBytes 1 order)

end State

/-! ### Answers of a meaning -/

/-- The three outcomes over this state. -/
abbrev Ans := Host.Outcome State Fault Refusal

/-- A command in a module that is not OFF: in OFF nothing runs and nothing reaches the dictionary (21 R444). -/
def whenOn (s : State) (k : State) : Ans := if s.on then .next k else .next s

/-- A command whose numbers must be ones of the module (00 R10). -/
def inRange (ok : Bool) (s k : State) : Ans := if ok then whenOn s k else .fault .numbering

/-- A state change under a condition: a command whose condition does not hold changes nothing (log entry 11). -/
def onlyIf (c : Bool) (s k : State) : State := if c then k else s

end Sys2Proof.Machine
end

