-- ==== Sys2Proof/Machine/Arbiter.lean ====
section
/-! DEFINITION. Arbiters: requests held until they are granted, the fixed rank, locks, forced wins, eligibility at gated
arbiters, and what their counters count (13 R280 to R287, R290). -/

namespace Sys2Proof.Machine

/-- The longest grant between two break points of an arbiter kind: D of 13 R280. -/
def arbD (kind : Nat) : Nat := if kind == 0 then 1 else 16

/-- The arbiters a regulator feeds: "Gated" of 13 R280. -/
def arbGated (kind : Nat) : Bool := kind == 3 || kind == 7 || kind == 8

/-- The requester a wait counter and a place in a batch belong to: at a gated arbiter the clearing's own (13 R287). -/
def arbKey (gated : Bool) (q : ArbReq) : Nat := if gated then q.clearing * 8 + q.input else q.input

/-- The service slot at a break point: a new one starts with its number or its clearing, and is left empty when its
owner has nothing queued then (12 R268). -/
def arbSlot (r : ArbRound) (x : Arb) : Arb :=
  if x.slot == some (r.slotNo, r.slot) then x
  else { x with
    slot := some (r.slotNo, r.slot), slotLent := false, slotIdle := !(x.asks.any fun q => q.clearing == r.slot) }

/-- The requests eligible at a decision: all of them, or at a gated arbiter those of the slot's clearing; in a slot left
empty, those of the one that borrows it: a single line, or the transfers of an elastic clearing (13 R287, 12 R269). -/
def arbEligible (gated elastic : Bool) (r : ArbRound) (x : Arb) : List ArbReq :=
  let own := x.asks.filter fun q => q.clearing == r.slot
  if !gated then x.asks
  else if !own.isEmpty then own
  else if x.slotIdle && (elastic || !x.slotLent) then x.asks.filter fun q => q.clearing == r.borrower
  else []

/-- A lock that has not cleared after 16 beats is ended at that beat, and what its owner still asks is asked anew (13
R284). -/
def arbOverrun (x : Arb) : Arb :=
  match x.lock with
  | none => x
  | some o =>
    if x.lockAt + 16 ≤ x.beat then
      { x with
        lock := none, overran := x.overran ++ [o],
        asks := x.asks.map fun q => if q.input == o then { q with since := x.beat } else q }
    else x

/-- The highest input of a list of requests, the oldest of it. -/
def arbHighest (l : List ArbReq) : Option ArbReq :=
  l.foldl (fun a q => match a with
    | none => some q
    | some b => if b.input < q.input then some q else some b) none

/-- The request a decision chooses among the eligible ones: the lock's owner; else the highest input of the first batch
that has an eligible requester; else the highest input (13 R281, R284, R285). The flag tells a forced win. -/
def arbChoose (gated : Bool) (x : Arb) (l : List ArbReq) : Option ArbReq × Bool :=
  match x.lock with
  | some o => (arbHighest (l.filter fun q => q.input == o), false)
  | none =>
    match x.batches.find? fun b => l.any fun q => b.contains (arbKey gated q) with
    | some b => (arbHighest (l.filter fun q => b.contains (arbKey gated q)), true)
    | none => (arbHighest l, false)

/-- The requesters of a list other than one, each once. -/
def arbLosers (gated : Bool) (w : Nat) (l : List ArbReq) : List Nat :=
  (l.map (arbKey gated)).eraseDups.filter (· != w)

/-- The arbiter after a decision: the winner's request is gone and its wait counter 0; the losers' counters rise, and those
that reach their limits form a batch. Under a lock nothing is counted (13 R284, R285). -/
def arbGrant (gated : Bool) (limit : Nat → Nat) (x : Arb) (l : List ArbReq) (w : ArbReq) : Arb :=
  let k := arbKey gated w
  let lost := if x.lock.isSome then [] else arbLosers gated k l
  let waits := lost.foldl (fun m i => ins m i ((look m i).getD 0 + 1)) x.waits
  let batch := lost.filter fun i => (look waits i).getD 0 == limit (i % 8)
  { x with
    asks := x.asks.erase w,
    waits := if x.lock.isSome then waits else del waits k,
    batches := ((x.batches.map fun b => b.filter (· != k)) ++ [batch]).filter fun b => !b.isEmpty,
    lock := if w.lock then some w.input else none,
    lockAt := if w.lock && x.lock.isNone then x.beat else x.lockAt }

namespace State

/-- An arbiter's record. -/
def arb (s : State) (group unit : Nat) : Arb := (look s.arbs (group * 65536 + unit)).getD {}
/-- An arbiter's record set. -/
def setArb (s : State) (group unit : Nat) (x : Arb) : State :=
  { s with arbs := ins s.arbs (group * 65536 + unit) x }

/-- What a decision counts: the grant, the losers' waits, the time from request to grant, which takes effect in the next
beat, and a forced win (13 R283, R290). -/
def countGrant (s : State) (group : Nat) (gated : Bool) (x : Arb) (l : List ArbReq) (w : ArbReq) (forced : Bool) : State :=
  let lost := if x.lock.isSome then [] else arbLosers gated (arbKey gated w) l
  let s1 := s.bump group (w.input + 1) 1
  let s2 := lost.foldl (fun s i => s.bump group (0x11 + i % 8) 1) s1
  let s3 := s2.wr group (0x21 + w.input) (max (s2.rd group (0x21 + w.input)) (min (x.beat + 1 - w.since) (pow2 32 - 1)))
  if forced then s3.bump group 0x40 1 else s3

/-- The requests a round raises: those of the arbiter's own inputs (13 R280), at the beat of the sampling. -/
def arbRaised (r : ArbRound) (beat : Nat) : List ArbReq :=
  (r.asks.filter fun a => (arbInputs r.group).contains a.input).map fun a =>
    { input := a.input, clearing := a.clearing, lock := a.lock, since := beat }

/-- One break point of an arbiter: the requests sampled in the beat are raised, one eligible request is granted, and the
counters follow; a lock past its 16 beats is ended and counted first. While requests wait, the next break point comes
within D beats. A round of no arbiter of the module changes nothing. -/
def arbitrate (s : State) (r : ArbRound) : State :=
  match arbKind r.group with
  | none => s
  | some kind =>
    if arbUnits r.group ≤ r.unit then s
    else
      let gated := arbGated kind
      let x := s.arb r.group r.unit
      let gap := max 1 (if x.asks.isEmpty then r.gap else min r.gap (arbD kind))
      let raised := arbRaised r (x.beat + gap)
      let x0 := arbOverrun { x with beat := x.beat + gap, asks := x.asks ++ raised }
      let x1 := if gated then arbSlot r x0 else x0
      let s0 := if x1.overran.length != x.overran.length then s.bump r.group 0x41 1 else s
      let s1 := if r.slow && 2 ≤ raised.length then s0.bump r.group 0x42 1 else s0
      let l := arbEligible gated (s.frc 0x2450 r.borrower == 1) r x1
      let limit (i : Nat) : Nat := s.rd r.group (0x31 + i)
      match arbChoose gated x1 l with
      | (none, _) => s1.setArb r.group r.unit x1
      | (some w, forced) =>
        let y := arbGrant gated limit x1 l w
        (s1.countGrant r.group gated x1 l w forced).setArb r.group r.unit
          { y with slotLent := y.slotLent || (gated && w.clearing != r.slot) }

/-- The break points a tile's traffic passes, in order. -/
def arbitrateAll (s : State) (l : List ArbRound) : State := l.foldl State.arbitrate s

/-- The overrun of an input's lock: one the arbiter has ended already is reported now, one still held is ended at its
16th beat and counted (13 R284). None where the input overran no lock. -/
def breakLock (s : State) (group unit input : Nat) : Option State :=
  let x := s.arb group unit
  if x.overran.contains input then some (s.setArb group unit { x with overran := x.overran.erase input })
  else if x.lock == some input then
    let y := arbOverrun { x with beat := max x.beat (x.lockAt + 16) }
    some ((s.setArb group unit { y with overran := x.overran }).bump group 0x41 1)
  else none

end State

end Sys2Proof.Machine
end

