-- ==== Sys2Proof/Machine/Cells.lean ====
section
/-! DEFINITION. Physical cells: retirement, replacement by a spare, multiplexing, margins, failed groves (20 R420 to
R436). -/

namespace Sys2Proof.Machine

/-- Hops between two physical cells of a grove's mesh of 16 rows and 17 columns, one beat more at a turn (20 R424). -/
def cellHops (p q : Nat) : Nat :=
  let d (a b : Nat) := max a b - min a b
  let r := d (p / 17) (q / 17)
  let k := d (p % 17) (q % 17)
  r + k + (if r != 0 && k != 0 then 1 else 0)

/-- A tile program a store can hold: index 00h to FFh, 1 to 8,192 bytes (03 R475). -/
def programOk (a : ProgImage) : Bool := a.index < 256 && 1 ≤ a.bytes.length && a.bytes.length ≤ 8192

/-- Whether a physical cell is one of the 16 spares: column 16 (20 R424). -/
def isSpare (p : Nat) : Bool := p % 17 == 16

namespace State

/-- A tile program installed in a grove's store, named by a clearing or, as 64, by the firmware (03 R475). -/
def installProgram (s : State) (g n : Nat) (a : ProgImage) : State :=
  let x := s.grove g
  let users := (look x.progUsers a.index).getD []
  s.setGrove g { x with
    progs := ins x.progs a.index a.bytes,
    progUsers := ins x.progUsers a.index (if users.contains n then users else users ++ [n]) }

/-- The logical cells a physical cell serves, ascending. -/
def servedBy (s : State) (g p : Nat) : List Nat := (List.range 256).filter fun c => s.physOf g c == p

/-- Whether a physical cell is healthy. -/
def healthy (s : State) (g p : Nat) : Bool := !(s.grove g).retired.contains p

/-- A physical cell is in use: it serves some logical cell. -/
def inUse (s : State) (g p : Nat) : Bool := !(s.servedBy g p).isEmpty

/-- Better of two candidate cells by a distance, the lower number on a tie. -/
def nearer (d : Nat → Nat) (a : Option Nat) (p : Nat) : Option Nat :=
  match a with
  | none => some p
  | some q => if d p < d q then some p else some q

/-- The healthy unused spare nearest the retired cell (20 R427, step 3). -/
def chooseSpare (s : State) (g p : Nat) : Option Nat :=
  ((List.range 16).map fun i => 17 * i + 16).foldl
    (fun a q => if s.healthy g q && !s.inUse g q then nearer (cellHops p) a q else a) none

/-- The host of a multiplexed cell: the healthy cell in use that serves the fewest logical cells, then the nearest,
then the lowest number (20 R431). -/
def chooseHost (s : State) (g p : Nat) : Option Nat :=
  (List.range 272).foldl
    (fun a q => if s.healthy g q && s.inUse g q && q != p then
      nearer (fun x => (s.servedBy g x).length * 64 + cellHops p x) a q else a) none

/-- The clearings with an accepted plan on a grove. -/
def plansOn (s : State) (g : Nat) : List Nat :=
  s.present.filter fun n => s.clearState n == 3 && !(s.cellsOn n g).isEmpty

/-- A grove with fewer than 128 healthy cells is failed: every plan on it stops (20 R432). -/
def checkGrove (s : State) (g : Nat) : State :=
  if s.rd (0x9010 + g) 1 < 128 && !(s.grove g).failed then
    let s1 := (s.setGrove g { s.grove g with failed := true }).postAll .groveFailed .ok (words [g])
    (s1.plansOn g).foldl (fun s n => s.stopPlan n g 0xFF 0 0 .groveFailed) s1
  else s

/-- A physical cell taken from the healthy ones and added to the retirement record, which holds 32 cells a grove; a pass in
progress on it ends (20 R433, R440). -/
def markRetired (s : State) (g p : Nat) : State :=
  let x := s.grove g
  let s1 := s.setGrove g { x with
    retired := p :: x.retired, overdue := x.overdue.filter (· != p), segments := del x.segments p, fails := del x.fails p }
  let num := g * 512 + p
  let full := 32 ≤ (s1.otp.retired.filter fun r => r / 512 == num / 512).length
  let s2 := if full || s1.otp.retired.contains num then s1
    else { s1 with otp := { s1.otp with retired := s1.otp.retired ++ [num] } }
  (s2.wr (0x9010 + g) 1 (s2.rd (0x9010 + g) 1 - 1)).wr (0x9010 + g) 5 (s2.rd (0x9010 + g) 5 + 1)

/-- Whether some slot of a logical cell is RUNNING. -/
def cellRuns (s : State) (g c : Nat) : Bool := (s.cell g c).slots.any fun t => t.st == .running

/-- A replacement added to a grove's queue (20 R428): urgent ones before scheduled ones; an urgent one also goes
ahead of a scheduled one that still waits for its cell's running tile. -/
def queueRepl (s : State) (g : Nat) (r : Repl) : State :=
  let x := s.grove g
  let put (q : List Repl) : List Repl :=
    if r.urgent then q.takeWhile (·.urgent) ++ [r] ++ q.dropWhile (·.urgent) else q ++ [r]
  match x.busy with
  | none => s.setGrove g { x with busy := some r }
  | some b =>
    if r.urgent && !b.urgent && s.cellRuns g b.logical then
      s.setGrove g { x with busy := some r, queue := b :: x.queue }
    else s.setGrove g { x with queue := put x.queue }

/-- MARGIN_MIN: the lowest measured margin of the grove's healthy cells in use. -/
def updateMarginMin (s : State) (g : Nat) : State :=
  let l := (s.grove g).margins.filter fun p => s.healthy g p.1 && s.inUse g p.1
  match l with
  | [] => s
  | p :: r => s.wr 0x1131 (g + 1) (r.foldl (fun a q => min a q.2) p.2)

/-- A replacement that waits for its cell's running tile becomes urgent, and goes ahead of the scheduled ones (20 R426,
R428). -/
def hasten (s : State) (g p : Nat) : State :=
  let x := s.grove g
  let mine (r : Repl) : Bool := r.phys == p && !r.urgent
  match x.busy with
  | none => s
  | some b =>
    if mine b then s.setGrove g { x with busy := some { b with urgent := true } }
    else match x.queue.find? mine with
      | some r => (s.setGrove g { x with queue := x.queue.filter fun q => !mine q }).queueRepl g { r with urgent := true }
      | none => s

/-- A physical cell retired (20 R426): a spare not in use only lowers SPARES_LEFT; any other cell gets a replacement. One
that is retired already and waits for its running tile waits no longer when the cause is urgent. MARGIN_MIN is that of the
cells left (20 R434). -/
def retireCell (s : State) (g p : Nat) (urgent : Bool) : State :=
  if !s.healthy g p then if urgent then s.hasten g p else s
  else
    let s1 := s.markRetired g p
    let s2 := match s.servedBy g p with
      | [] => if isSpare p then s1.wr (0x9010 + g) 2 (s1.rd (0x9010 + g) 2 - 1) else s1
      | c :: _ => s1.queueRepl g { phys := p, logical := c, urgent := urgent }
    (s2.checkGrove g).updateMarginMin g

/-- Whether a logical cell waits for its physical cell's replacement: it picks no tile (20 R428). -/
def awaitsSpare (s : State) (g c : Nat) : Bool := !s.healthy g (s.physOf g c)

/-- Whether a logical cell's tile that runs waits for a spare: its cell's retirement is urgent. A scheduled one lets the
running tile end first (20 R427, steps 1 and 7). -/
def tileWaits (s : State) (g c : Nat) : Bool :=
  let x := s.grove g
  (x.busy.toList ++ x.queue).any fun r => r.urgent && r.phys == s.physOf g c

/-- A logical cell's map entry changed. -/
def setMap (s : State) (g c p : Nat) : State :=
  s.setGrove g { s.grove g with remap := ins (s.grove g).remap c p }

/-- The owned granules of a logical cell with their owners: offset in the cell and bytes. -/
def ownedParts (x : Cell) : List (Nat × Nat × Nat) :=
  (x.scratchOwn.map fun p => (p.2, p.1 * 0x4000, 0x4000)) ++ x.sideOwn.map fun p => (p.2, 0x100000 + p.1 * 4096, 4096)

/-- A logical cell's owned granules spilled from its physical cell to their owners' spill slots (20 R431, 11 R242); one
that lies there already stays. -/
def spillCell (s : State) (g c : Nat) : State :=
  if s.spilledOut g c then s
  else (ownedParts (s.cell g c)).foldl
    (fun s p => s.copyMem (cellAddr g (s.physOf g c) p.2.1) p.2.2 (s.spillAddr p.1 g c p.2.1)) s

/-- A logical cell's owned granules loaded back from their spill slots, which read zero after it; granules it does not own
read zero (03 R55). -/
def unspillCell (s : State) (g c : Nat) : State :=
  let a := cellAddr g (s.physOf g c)
  (ownedParts (s.cell g c)).foldl (fun s p => s.moveMem (s.spillAddr p.1 g c p.2.1) p.2.2 (a p.2.1)) (s.wipe (a 0) 0x110000)

/-- A logical cell time-multiplexed onto a host (20 R431): its content goes to its spill slots, and the host's own
cell goes on running. -/
def multiplexOnto (s : State) (g c h : Nat) : State :=
  let served := s.servedBy g h
  let s1 := (s.spillCell g c).setMap g c h
  let x := s1.grove g
  let m1 := served.foldl (fun m d => if (look m d).isSome then m else ins m d 0) x.multi
  let x1 := { x with
    multi := ins m1 c 0,
    hosting := if (look x.hosting h).isSome then x.hosting else ins x.hosting h (served.headD c) }
  let s2 := s1.setGrove g x1
  (s2.wr (0x9010 + g) 3 x1.multi.length).postAll .cellMultiplexed .ok (words [g, c, h])

/-- The replacement in progress ends: the next of the queue becomes due (20 R428). -/
def nextRepl (s : State) (g : Nat) : State :=
  let x := s.grove g
  match x.queue with
  | [] => s.setGrove g { x with busy := none }
  | r :: rest => s.setGrove g { x with busy := some r, queue := rest }

/-- The cell a replacement's hops are counted from: the retired one, or for a spare on which the failed tile never completed
the one it replaced (20 R430). -/
def hopOrigin (s : State) (g p : Nat) : Nat := (look (s.grove g).proving p).getD p

/-- Everything a physical cell holds copied to a spare, and the map changed in one update (20 R427, steps 4 to 6); after an
urgent retirement the failed tile has to run on the spare. A pass in progress starts again there (20 R439). DEDUCED: of a
spare that fails later its own content is copied, which is the original cell's with what landed since (20 R430, log entry
29). -/
def moveToSpare (s : State) (g p q : Nat) (urgent : Bool) : State :=
  let s1 := (s.servedBy g p).foldl (fun s c => s.setMap g c q) (s.moveMem (cellAddr g p 0) 0x110000 (cellAddr g q 0))
  let x := s1.grove g
  let s2 := s1.setGrove g { x with
    proving := if urgent then ins (del x.proving p) q (s.hopOrigin g p) else del x.proving p,
    segments := del x.segments q,
    hosting := match look x.hosting p with
      | some c => ins (del x.hosting p) q c
      | none => x.hosting }
  s2.wr (0x9010 + g) 2 (s2.rd (0x9010 + g) 2 - 1)

/-- MARGIN_THRESHOLD in 0.01 %, as it applies since the last RUN (20 R435). -/
def marginBound (s : State) : Nat := s.rd 0x1130 2 * 100

/-- Whether a grove has a spare that no replacement under way or queued takes (20 R435, policy 03h). -/
def spareFree (s : State) (g : Nat) : Bool :=
  let x := s.grove g
  let wanted := x.queue.length + if x.busy.isSome then 1 else 0
  wanted < ((List.range 16).filter fun i => s.healthy g (17 * i + 16) && !s.inUse g (17 * i + 16)).length

/-- What the ageing policy does for a healthy cell in use below the threshold (20 R435). -/
def agePolicy (s : State) (g p : Nat) : State :=
  let remarg := s.setGrove g { s.grove g with remargining := true }
  match s.frc 0x1130 1 with
  | 1 => s.retireCell g p false
  | 2 => remarg
  | 3 => if s.spareFree g then s.retireCell g p false else remarg
  | _ => s

/-- The ageing policy for one physical cell, if it is healthy, in use and was measured below the threshold (20 R435). -/
def ageCell (s : State) (g p : Nat) : State :=
  let low := match look (s.grove g).margins p with
    | some m => m < s.marginBound
    | none => false
  if low && s.healthy g p && s.inUse g p then s.agePolicy g p else s

/-- The replacement in progress on a grove carried out (20 R427, R430, R431). With `spareOk` false the chosen spare
fails before it is complete: it is retired and the replacement starts again. -/
def replaceNow (s : State) (g : Nat) (spareOk : Bool) : State :=
  match (s.grove g).busy with
  | none => s
  | some r =>
    if s.cellRuns g r.logical && !r.urgent then s
    else match s.chooseSpare g (s.hopOrigin g r.phys) with
      | some q =>
        if spareOk then
          let s1 := s.moveToSpare g r.phys q r.urgent
          let d := words [g, r.logical, r.phys, q]
          ((((s1.postAll .cellRetired .ok d).postAll .spareInDone .ok d).nextRepl g).updateMarginMin g).ageCell g q
        else s.retireCell g q true
      | none =>
        match s.chooseHost g r.phys with
        | none => s
        | some h =>
          let s1 := (s.servedBy g r.phys).foldl (fun s c => s.multiplexOnto g c h) s
          (s1.postAll .cellRetired .ok (words [g, r.logical, r.phys, h])).nextRepl g

/-! ### Words that fail their code (20 R420, R421) -/

/-- A physical cell with words of two different lines that failed within 24 h is retired, urgently (20 R421, R426). -/
def noteBadLine (s : State) (g phys off : Nat) : State :=
  let x := s.grove g
  let recent := ((look x.badAt phys).getD []).filter fun p => s.time - p.2 < 86400000000000
  let s1 := s.setGrove g { x with badAt := ins x.badAt phys (recent ++ [(off / 64, s.time)]) }
  if recent.any fun p => p.1 != off / 64 then s1.retireCell g phys true else s1

/-- A word of a logical cell that keeps failing its code until a write covers all 8 bytes of it (20 R421). -/
def noteBadWord (s : State) (g c off : Nat) : State :=
  let x := s.cell g c
  let w := off / 8 * 8
  s.setCell g c { x with badWords := if x.badWords.contains w then x.badWords else x.badWords ++ [w] }

/-- A word of the scratchpad or side memory of a logical cell failed its code (20 R420, R421): it is counted, SCRATCH_LOST
names its granule's owner and place, and that clearing's plan stops on the grove. -/
def wordLost (s : State) (owner g c tileId off : Nat) : State :=
  let w := off / 8 * 8
  let s1 := (s.bump (0x9010 + g) 7 1).post .scratchLost owner .scratchLost tileId (leBytes 4 g ++ leBytes 4 c ++ leBytes 4 w)
  ((s1.stopPlan owner g c tileId 0 .scratchLost).noteBadWord g c w).noteBadLine g (s.physOf g c) w

/-- A word that an understory segment found failing (20 R439, R420), named by the logical cell whose memory lies there
and the byte offset: one of a granule that no clearing owns, or of a spare not in use, has no owner to name, and counts
for the physical cell alone. -/
def testedLost (s : State) (g phys : Nat) (w : Nat × Nat) : State :=
  let off := w.2 / 8 * 8
  let here := s.physOf g w.1 == phys && !s.spilledOut g w.1
  let unowned (s : State) := (s.bump (0x9010 + g) 7 1).noteBadLine g phys off
  if 0x110000 ≤ off then s
  else if here then
    match s.granuleOwner g w.1 off with
    | some n => s.wordLost n g w.1 0 off
    | none => unowned (s.noteBadWord g w.1 off)
  else unowned s

/-! ### Margins (20 R434 to R436) -/

/-- Margins measured of a grove's physical cells. -/
def takeMargins (s : State) (g : Nat) (l : List (Nat × Nat)) : State :=
  (s.setGrove g { s.grove g with
    margins := l.foldl (fun m p => if p.1 < 272 then ins m p.1 p.2 else m) (s.grove g).margins }).updateMarginMin g

/-- The lowest supply a grove may take, in mV: 700, raised by re-margining (20 R436). -/
def lowestSupply (s : State) (g : Nat) : Nat := 700 + 10 * (look s.otp.supplySteps g).getD 0

/-- The policy in force for every cell of the module, as it applies from a RUN (20 R435). -/
def ageModule (s : State) : State :=
  (List.range 16).foldl (fun s g => (s.grove g).margins.foldl (fun s m => s.ageCell g m.1) s) s

/-- A cell's margin measured, in 0.01 % (20 R434). -/
def measureMargin (s : State) (g p m : Nat) : State :=
  let x := s.grove g
  let before := look x.margins p
  let s1 := (s.setGrove g { x with margins := ins x.margins p m }).updateMarginMin g
  let low := m < s.marginBound
  let first := match before with
    | none => true
    | some b => s.marginBound ≤ b
  let s2 := if low && first then s1.postAll .marginLow .ok (words [g, p, m]) else s1
  let s3 := if m < 200 then s2.retireCell g p false
    else s2.ageCell g p
  s3.updateMarginMin g

/-- The supply of a grove set, in mV. -/
def setSupply (s : State) (g mv : Nat) : State := s.wr 0x1101 (g + 1) mv

/-- A grove's floor rate lowered by one step of 10 M beats/s (02 R32), the lowering kept beside FLOOR_RATE. -/
def lowerFloor (s : State) (g : Nat) : State :=
  let rate := s.rd 0x1110 (g + 1) - 10
  let s1 := (s.wr 0x1110 (g + 1) rate).bump 0x1111 (g + 1) 1
  let s2 := { s1 with otp := { s1.otp with
    floorDrops := ins s1.otp.floorDrops (g + 1) ((look s1.otp.floorDrops (g + 1)).getD 0 + 1),
    delaySteps := ins s1.otp.delaySteps g ((look s1.otp.delaySteps g).getD 0 + 1) } }
  s2.postAll .floorLowered .ok (words [g + 1, rate])

/-- One step of re-margining a grove, after which its cells measure these margins (20 R436). A re-margining under way
goes on when AGEING_POLICY has been changed meanwhile (DESIGN CHOICE, log entry 29). -/
def remarginStep (s : State) (g : Nat) (margins : List (Nat × Nat)) : State :=
  let x := s.grove g
  let stop := s.setGrove g { x with remargining := false }
  if !x.remargining then s
  else if s.marginBound + 200 ≤ s.rd 0x1131 (g + 1) then stop
  else if s.lowestSupply g < 750 then
    let n := (look s.otp.supplySteps g).getD 0 + 1
    let s1 := { s with otp := { s.otp with supplySteps := ins s.otp.supplySteps g n } }
    let s2 := s1.setSupply g (max (s1.rd 0x1101 (g + 1)) (s1.lowestSupply g))
    (s2.postAll .remargin .ok (words [g, s2.lowestSupply g])).takeMargins g margins
  else if 1000 < s.rd 0x1110 (g + 1) then (s.lowerFloor g).takeMargins g margins
  else
    let below := x.margins.filter fun p => s.healthy g p.1 && s.inUse g p.1 && p.2 < s.marginBound
    (below.foldl (fun s p => s.retireCell g p.1 false) stop).updateMarginMin g

end State

/-! ### The commands -/

/-- SPARE_IN: the grove's replacement in progress is carried out (20 R427 to R431). -/
def execSpareIn (g : Nat) (spareOk : Bool) (s : State) : Ans :=
  inRange (wfGrove g) s (s.replaceNow g spareOk)

/-- MULTIPLEX_SWITCH: a host moves to the next logical cell it serves, at a tile boundary, once the present one has
run 65,536 beats or has no candidate; the outgoing granules are spilled and the incoming ones loaded, charged to
their owners (20 R431). -/
def execMultiplexSwitch (g phys : Nat) (s : State) : Ans :=
  let served := s.servedBy g phys
  let now := (look (s.grove g).hosting phys).getD (served.headD 0)
  let next := (served.find? fun c => now < c).getD (served.headD 0)
  let x := s.cell g now
  let ran := (look (s.grove g).multi now).getD 0
  let idle := !(x.slots.any fun t => t.st == .ready) && !(s.cellRuns g now)
  let bytes (y : Cell) (n : Nat) := (State.ownedBy y.scratchOwn n).length * 0x4000 + (State.ownedBy y.sideOwn n).length * 4096
  let charged (s : State) := s.present.foldl (fun s n =>
    let b := bytes x n + bytes (s.cell g next) n
    if b == 0 then s else s.charge n (1 + State.quadrant g) 0 b) s
  let s1 := ((charged s).spillCell g now).unspillCell g next
  let gv := s1.grove g
  let s2 := s1.setGrove g { gv with
    hosting := ins gv.hosting phys next,
    multi := ins (ins gv.multi now 0) next 0 }
  inRange (wfPhys g phys) s
    (onlyIf (1 < served.length && !(s.cellRuns g now) && (65536 ≤ ran || idle)) s s2)

/-- REMARGIN: one step of re-margining a grove (20 R436). -/
def execRemargin (g : Nat) (margins : List (Nat × Nat)) (s : State) : Ans :=
  inRange (wfGrove g) s (s.remarginStep g margins)

/-- TEST_OVERDUE: a healthy cell's test age has reached the period; posted once until a pass resets it (20 R442). -/
def execTestOverdue (g phys : Nat) (s : State) : Ans :=
  let x := s.grove g
  let due := s.healthy g phys && s.rd 0x9000 2 ≤ (s.time - (look x.lastTest phys).getD 0) / 1000000000
    && !x.overdue.contains phys
  inRange (wfPhys g phys) s
    (onlyIf due s ((s.setGrove g { x with overdue := phys :: x.overdue }).postAll .testOverdue .ok (words [g, phys])))

/-- UNDERSTORY_SEGMENT: a test segment of at most 64 beats on an idle cell or an unused spare (20 R438 to R441). A
pass is 2,048 completed segments; one that finds a fault is run again from its start, before any other cell is tested, and a
second failure retires the cell. DEDUCED: a spare's pass is repeated too, and its retirement waits for nothing; a segment of
any idle cell is taken, because segments run on every idle cell at once (20 R440, R441, log entry 29). -/
def execUnderstorySegment (g phys : Nat) (o : SegOut) (s : State) : Ans :=
  let x := s.grove g
  let idle := (s.servedBy g phys).all fun c => !(s.cell g c).slots.any fun t => t.st == .running || t.st == .ready
  let wanted := (look x.segments phys).isSome || (List.range 272).any fun p =>
    s.healthy g p && s.rd 0x9000 2 / 4 < (s.time - (look x.lastTest p).getD 0) / 1000000000
  let first := x.fails.isEmpty || (look x.fails phys).isSome
  let may := s.rd 0x9000 1 == 1 && s.serving && s.healthy g phys && idle && wanted && first
  let seg := (look x.segments phys).getD 0 + 1
  let k : State := match o with
    | .abandoned => s
    | .margin m => s.measureMargin g phys m
    | .fault block =>
      let n := (look x.fails phys).getD 0 + 1
      if n < 2 then s.setGrove g { x with fails := ins x.fails phys n, segments := del x.segments phys }
      else
        let s1 := s.setGrove g { x with fails := del x.fails phys, segments := del x.segments phys }
        (s1.postAll .understoryFail .ok (words [g, phys, block])).retireCell g phys false
    | .done fixed lost =>
      let s0 := s.bump (0x9010 + g) 6 fixed
      let s1 := if seg < 2048 then s0.setGrove g { x with segments := ins x.segments phys seg }
        else s0.setGrove g { x with
          segments := del x.segments phys,
          fails := del x.fails phys,
          lastTest := ins x.lastTest phys s.time,
          overdue := x.overdue.filter (· != phys) }
      lost.foldl (fun s w => s.testedLost g phys w) s1
  inRange (wfPhys g phys) s (onlyIf may s k)

end Sys2Proof.Machine
end

