-- ==== Sys2Proof/Machine/Route.lean ====
section
/-! DEFINITION. Locations, flits and transfer lines; where a flit leaves: module coordinates, dimension-ordered routing,
port sets and routing tables; the engines' own transfers on a port (14 R292, R296 to R301, R307, 01 R14). -/

namespace Sys2Proof.Machine

/-! ### Locations (14 R307) -/

/-- Tier of a location (14 R307): 0 scratchpad, 1 HBM4E, 2 cellar. -/
def locTier (v : Nat) : Nat := bitsOf v 63 60
/-- Grove of a scratchpad location. -/
def locGrove (v : Nat) : Nat := bitsOf v 59 56
/-- Logical cell of a scratchpad location. -/
def locCell (v : Nat) : Nat := bitsOf v 55 48
/-- Byte address of a scratchpad location, byte offset of a tier's. -/
def locOff (v : Nat) : Nat := if locTier v == 0 then bitsOf v 19 0 else 64 * bitsOf v 35 0
/-- No reserved bit and no reserved tier is set in a location. -/
def locOk (v : Nat) : Bool :=
  if locTier v == 0 then bitsOf v 47 20 == 0 else locTier v ≤ 2 && bitsOf v 59 36 == 0

/-- The location of a line `k` lines behind another. -/
def locAdvance (v k : Nat) : Nat := if locTier v == 1 || locTier v == 2 then v + k else v + 64 * k
/-- The location of a byte of a tier's region; of tier 3, a page's name (07 R143). -/
def locAt (tier off : Nat) : Nat :=
  tier * pow2 60 + if tier == 1 || tier == 2 then off / 64 % pow2 36 else off % pow2 60

end Sys2Proof.Machine

namespace Sys2Proof

/-! ### Flits and transfer lines (14 R296, R297) -/

/-- The first 28 bytes of a flit's header. -/
def Flit.header (f : Flit) : List Byte :=
  let fl (b : Bool) (k : Nat) : Nat := if b then k else 0
  Machine.leBytes 2 (f.portSet % 4 * 0x4000 + f.dest % 0x4000) ++ Machine.leBytes 2 (f.rsv % 4 * 0x4000 + f.src % 0x4000)
    ++ Machine.leBytes 1 (f.op % 16 * 16 + f.vc % 4 * 4 + f.rsv / 4 % 4)
    ++ Machine.leBytes 1 (f.rsv / 16 % 8 * 32 + f.lines % 32)
    ++ Machine.leBytes 1 (fl f.expressDone 128 + f.rsv / 128 % 4 * 32 + f.hops % 32)
    ++ Machine.leBytes 1 (f.rsv / 512 % 4 * 64 + f.clearing % 64) ++ Machine.leBytes 4 f.job ++ Machine.leBytes 8 f.target
    ++ Machine.leBytes 4 (f.lseq % 4096 * 0x100000 + f.lack % 4096 * 256 + f.credits % 64 * 4 + f.creditVc % 4)
    ++ Machine.leBytes 2 f.tag ++ Machine.leBytes 2 f.lineIdx

/-- FCRC: CRC-32C over bytes 0 to 27 and the 1,024 payload bytes. -/
def Flit.check (f : Flit) : Nat := Machine.crc32c (f.header ++ Machine.slice f.payload 0 1024)
/-- The flit passes its check (14 R298). -/
def Flit.fcrcOk (f : Flit) : Bool := f.fcrc == f.check
/-- The virtual channels of an operation's class (14 R297): 0 and 1 for requests, 2 and 3 for replies. -/
def opClass (op : Nat) : Nat := if op == 3 || (5 ≤ op && op ≤ 7) then 2 else 0
/-- A reserved bit, code or count of the header is set, a flit of either class travels on the other's channels, the
TARGET of a write, a read or a chunk sets a reserved bit, or an unused line is not zero: the flit is refused as a whole
(00 R9; what the link does with it: DESIGN CHOICE, log entry 27). A tier 3 names a page (07 R143). -/
def Flit.reserved (f : Flit) : Bool :=
  f.rsv != 0 || f.op == 0 || 9 < f.op || 16 < f.lines || f.portSet == 3 || !Machine.allZero (f.payload.drop (64 * f.lines))
    || (f.op != 9 && f.vc / 2 * 2 != opClass f.op)
    || ((f.op == 1 || f.op == 2 || f.op == 4) && Machine.locTier f.target != 3 && !Machine.locOk f.target)

/-- COLL of a transfer line. -/
def ChunkLine.coll (l : ChunkLine) : Nat := Machine.field l.line 0 2 % 4096
/-- ATTEMPT [1:0]. -/
def ChunkLine.attempt (l : ChunkLine) : Nat := Machine.field l.line 2 2 % 4
/-- SIGNAL_ON. -/
def ChunkLine.signalOn (l : ChunkLine) : Bool := (Machine.field l.line 2 2).testBit 2
/-- CHUNK. -/
def ChunkLine.chunk (l : ChunkLine) : Nat := Machine.field l.line 4 4
/-- CHUNK_CRC. -/
def ChunkLine.crc (l : ChunkLine) : Nat := Machine.field l.line 8 4
/-- DST_TRIG. -/
def ChunkLine.dstTrig (l : ChunkLine) : Nat := Machine.field l.line 12 2 % 1024
/-- SIGNAL. -/
def ChunkLine.signal (l : ChunkLine) : Nat := Machine.field l.line 14 2
/-- SRC_ACK. -/
def ChunkLine.srcAck (l : ChunkLine) : Nat := Machine.field l.line 16 2 % 1024
/-- OP_ID. -/
def ChunkLine.opId (l : ChunkLine) : Nat := Machine.field l.line 24 8
/-- STATUS. -/
def ChunkLine.status (l : ChunkLine) : Nat := Machine.field l.line 20 4
/-- A reserved bit of the line is set, or a field that the transfer does not use; STATUS is a COLL_FAIL's alone. -/
def ChunkLine.reserved (l : ChunkLine) (fail : Bool := false) : Bool :=
  4096 ≤ Machine.field l.line 0 2 || 8 ≤ Machine.field l.line 2 2 || 1024 ≤ Machine.field l.line 12 2
    || (!l.signalOn && l.signal != 0) || 1024 ≤ Machine.field l.line 16 2 || Machine.field l.line 18 2 != 0
    || (!fail && l.status != 0) || !Machine.allZero (l.line.drop 32)

end Sys2Proof

namespace Sys2Proof.Machine

/-- Extent of dimension `k`: w and x 16, y and z 8 (14 R299). -/
def extent (k : Nat) : Nat := if k < 2 then 16 else 8

/-- Coordinate `k` of a module number: w, x, y, z (14 R299). -/
def coord (m k : Nat) : Nat :=
  match k with
  | 0 => bitsOf m 3 0
  | 1 => bitsOf m 7 4
  | 2 => bitsOf m 10 8
  | _ => bitsOf m 13 11

/-- The direction 0 to 7 a flit takes from one module to another: the first dimension that differs, the shorter way
round, the positive way when both are equally long (14 R299); none at the destination. -/
def direction (src dst : Nat) : Option Nat :=
  match ([0, 1, 2, 3].find? fun k => coord src k != coord dst k) with
  | none => none
  | some k =>
    let up := (coord dst k + extent k - coord src k) % extent k
    some (2 * k + if up ≤ extent k - up then 0 else 1)

/-- The direction 0 to 7 of the port a flit from one module comes in on at another: over the last dimension that differs, on
the side it comes from (14 R299). -/
def arrival (src dst : Nat) : Option Nat :=
  match ([3, 2, 1, 0].find? fun k => coord src k != coord dst k) with
  | none => none
  | some k =>
    let up := (coord dst k + extent k - coord src k) % extent k
    some (2 * k + if up ≤ extent k - up then 1 else 0)

/-- The link die of a port (14 R292). -/
def dieOfPort (p : Nat) : Nat := if p < 24 then p / 6 else (p - 24) / 2

/-! ### Paths inside the module (01 R16, R17) -/

/-- The groves in ring order (01 R16). -/
def ringOrder : List Nat := [0, 1, 2, 3, 7, 11, 15, 14, 13, 12, 8, 9, 10, 6, 5, 4]

/-- The groves a walk round the ring enters from a position until it reaches a quadrant: `step` 1 ascends, 15 descends. -/
def ringWalk (step q : Nat) : Nat → Nat → List Nat
  | 0, _ => []
  | k + 1, i =>
    let j := (i + step) % 16
    let g := ringOrder.getD j 0
    if State.quadrant g == q then [g] else g :: ringWalk step q k j

/-- The groves a path from a grove to a stack group enters, the last the one whose memory bridge it takes: the fewest
crossings, a tie towards ascending ring position (01 R17). -/
def ringPath (g q : Nat) : List Nat :=
  if State.quadrant g == q then []
  else
    let i := ringOrder.idxOf g
    let up := ringWalk 1 q 15 i
    let down := ringWalk 15 q 15 i
    if up.length ≤ down.length then up else down

/-- Ring crossings from a grove to a stack group (02 R38). -/
def crossings (g group : Nat) : Nat := (ringPath g group).length

namespace State

/-- PORT_MODE: 0 OFF, 1 TORUS, 2 EXPRESS, 3 BUDDY, 4 GATEWAY. -/
def portMode (s : State) (p : Nat) : Nat := s.rd (0x5000 + 16 * p) 1
/-- PORT_STATE: 0 DOWN, 1 TRAINING, 2 IDENT, 3 UP, 4 SPARED, 5 FAILED, 6 IDENT_MISMATCH. -/
def portState (s : State) (p : Nat) : Nat := s.rd (0x5000 + 16 * p) 2
/-- PORT_STATE set. -/
def setPortState (s : State) (p v : Nat) : State := s.wr (0x5000 + 16 * p) 2 v
/-- A port carries traffic: UP or SPARED. -/
def portWorks (s : State) (p : Nat) : Bool := s.portState p == 3 || s.portState p == 4

/-- The port of a direction in a port set; when that one is FAILED the lowest-numbered working port of the direction, where
there is one (14 R300). -/
def dirPort (s : State) (dir set : Nat) : Nat :=
  let p := dir + 8 * set
  if s.portState p != 5 then p
  else ([dir, dir + 8, dir + 16].find? s.portWorks).getD p

/-- The routing-table entry of a link die for a destination (14 R301). -/
def routeEntry (s : State) (die dst : Nat) : Nat :=
  let b := s.rdBlob (0x5210 + die) 1
  if 2 * dst + 1 < b.length then field b (2 * dst) 2 % 256 else 0xFF

/-- The port a flit for `dst` leaves on from link die `die`: a table entry that names a port, an express one only once;
else dimension order (14 R299 to R301). -/
def hopPort (s : State) (die dst set : Nat) (expressDone : Bool) : Option Nat :=
  let e := s.routeEntry die dst
  let byOrder := (direction s.ownModule dst).map fun d => s.dirPort d set
  if e < 32 then
    if 24 ≤ e && (expressDone || s.portMode e != 2) then byOrder
    else if s.portWorks e then some e
    else byOrder
  else byOrder

/-- The port set a transfer starts with: that whose first-hop port has the fewest queued bytes, with ties to the lowest (14
R300). -/
def pickSet (s : State) (die dst : Nat) : Nat :=
  let load (k : Nat) : Nat := match s.hopPort die dst k false with
    | some p => (s.port p).queue.length
    | none => 0
  if load 0 ≤ load 1 && load 0 ≤ load 2 then 0 else if load 1 ≤ load 2 then 1 else 2

/-! ### Flits on a port (14 R296 to R299) -/

/-- The ring dimension of a torus port; none for a spur port. -/
def dimOf (p : Nat) : Option Nat := if p < 24 then some (p % 8 / 2) else none

/-- A hop crosses its ring's dateline, between the last coordinate and 0 (14 R299). -/
def crosses (s : State) (p : Nat) : Bool :=
  match dimOf p with
  | none => false
  | some k =>
    let c := coord s.ownModule k
    if p % 2 == 0 then c + 1 == extent k else c == 0

/-- Credits held for a virtual channel of a port: 192 when none is spent. -/
def creditsOf (s : State) (p vc : Nat) : Nat := (look (s.port p).credits vc).getD 192

/-- A map's count of a key changed by an amount. -/
def countAt (m : Map Nat) (k : Nat) (d : Int) : Map Nat := ins m k (((look m k).getD 0 : Int) + d).toNat

/-- The virtual channel whose credits the next flit returns, and how many units of four (14 R296, R297): the lowest that has
some to return. -/
def creditsBack (s : State) (p : Nat) : Nat × Nat :=
  let due (vc : Nat) : Nat := (look (s.port p).owed vc).getD 0 / 4
  match [0, 1, 2, 3].find? fun vc => due vc != 0 with
  | some vc => (vc, min 63 (due vc))
  | none => (0, 0)

/-- A flit as it leaves on a port: the next sequence number, LACK, the credits it returns, and its check. -/
def sealFlit (s : State) (p : Nat) (f : Flit) : Flit :=
  let x := s.port p
  let c := s.creditsBack p
  let g : Flit := { f with
    lseq := x.sent, lack := (x.expected + 4095) % 4096, credits := c.2, creditVc := c.1, fecFixed := 0, fecLost := 0 }
  { g with fcrc := g.check }

/-- A flit sent on a port: it takes the next sequence number, a credit and a place of the replay buffer. -/
def sendFlit (s : State) (p : Nat) (f : Flit) : State :=
  let x := s.port p
  let g := s.sealFlit p f
  (s.setPort p { x with
    sent := (x.sent + 1) % 4096, replay := x.replay ++ [g], owed := countAt x.owed g.creditVc (-(4 * g.credits : Int)),
    credits := ins x.credits f.vc (s.creditsOf p f.vc - 1) }).emit (.flit p g)

/-- A port can send a flit on a virtual channel: it works, holds a credit, and has room for a replay (14 R297, R298). -/
def canSend (s : State) (p vc : Nat) : Bool :=
  s.portWorks p && s.creditsOf p vc != 0 && decide ((s.port p).replay.length < 512)

/-- A flit of the module's own sent, or queued at its port. -/
def queueFlit (p : Nat) (s : State) (f : Flit) : State :=
  if s.canSend p f.vc then s.sendFlit p f else s.setPort p { s.port p with queue := (s.port p).queue ++ [f] }

/-- The flits queued at a port sent as far as credits and the replay buffer let them, in order within a channel. -/
def pumpPort (s : State) (p : Nat) : State :=
  (s.port p).queue.foldl (queueFlit p) (s.setPort p { s.port p with queue := [] })

/-- A flit handed to a port behind those queued there. -/
def enqueue (p : Nat) (s : State) (f : Flit) : State :=
  if (s.port p).queue.any (fun g => g.vc == f.vc) then s.setPort p { s.port p with queue := (s.port p).queue ++ [f] }
  else queueFlit p s f

/-- The flits queued at a FAILED port leave on the port that takes its place (14 R295, R300). -/
def shiftQueue (s : State) (p : Nat) : State :=
  (s.port p).queue.foldl (fun s f => match s.hopPort (dieOfPort p) f.dest f.portSet f.expressDone with
    | some q => enqueue q s f
    | none => s) (s.setPort p { s.port p with queue := [] })

end State

/-! ### Transfers of the module's own engines (14 R296, R300) -/

/-- A transfer as an engine gives it to the links: the link die whose engine sends it, the port set (3 for the choice of
R300) or the port it is bound to, the operation, the clearing and job of its header, the location of its first data
line, its tag, the index of that line, a transfer line (64 bytes, or none), its bytes, and the lines a READ asks for. -/
structure Carry where
  die : Nat := 0
  set : Nat := 3
  port : Option Nat := none
  op : Nat
  clearing : Nat
  job : Nat
  target : Nat := 0
  tag : Nat := 0
  first : Nat := 0
  head : List Byte := []
  data : List Byte := []
  asks : Nat := 0
deriving DecidableEq, Repr

/-- The flits of a transfer: 16 lines each, a transfer line being line 0 of the first (14 R296). -/
def carryFlits (own dst set vc : Nat) (x : Carry) : List Flit :=
  let lead := if x.head.isEmpty then 0 else 1
  let all := x.head ++ x.data
  let total := lead + max x.asks (ceilDiv x.data.length 64)
  (List.range (max 1 (ceilDiv total 16))).map fun i =>
    let first := 16 * i - lead
    let n := min 16 (total - 16 * i)
    { portSet := set, dest := dst, src := own, op := x.op, vc := vc, lines := n, expressDone := false, hops := 0,
      clearing := x.clearing, job := x.job, target := locAdvance x.target first, lseq := 0, lack := 0, credits := 0,
      creditVc := 0, tag := x.tag, lineIdx := x.first + first,
      payload := if x.asks == 0 then slice all (1024 * i) (64 * n) else [], rsv := 0, fcrc := 0 }

namespace State

/-- A transfer of this module's engines leaves for another module: its bytes are charged to clearing `n` on its
first-hop port (11 R238), and its flits join that port's queue, on the lower virtual channel of their class, or the
higher one where the hop crosses its ring's dateline (14 R296 to R300). -/
def carry (s : State) (n dst : Nat) (x : Carry) : State :=
  let set := if x.set == 3 then s.pickSet x.die dst else x.set
  match x.port.or (s.hopPort x.die dst set false) with
  | none => s
  | some p =>
    let s1 := if x.data.isEmpty then s else s.charge n (0x20 + p) 0 x.data.length
    let vc := opClass x.op + if s1.crosses p then 1 else 0
    (carryFlits s1.ownModule dst set vc x).foldl (enqueue p) s1

/-- Bytes written to a clearing's tier on another module (14 R297 WRITE). -/
def carryLines (s : State) (n dst m tier off : Nat) (data : List Byte) (tag : Nat := 0) (port : Option Nat := none)
    (die : Nat := 0) : State :=
  (s.emit (.lines dst m tier off data tag)).carry n dst
    { die := die, port := port, op := 1, clearing := m, job := s.jobOf n, target := locAt tier off, tag := tag, data := data }

/-- A read of lines of a clearing's tier on another module (14 R297 READ). -/
def carryRead (s : State) (n dst m tier off tag count : Nat) (die : Nat := 0) : State :=
  (s.emit (.readReq tag dst m tier off count)).carry n dst
    { die := die, op := 2, clearing := m, job := s.jobOf n, target := locAt tier off, tag := tag, asks := count }

end State

end Sys2Proof.Machine
end

