-- ==== Sys2Proof/Machine/Dict.lean ====
section
/-! DEFINITION. Reading the dictionary: roles, read classes, and the values that are computed when read (17 R354 to
R357, 18 R385). -/

namespace Sys2Proof.Machine

namespace State

/-- The dictionary is reachable: in RUN and HELD, and in START once step 3 has ended (21 R452, R453). -/
def reachable (s : State) : Bool :=
  s.serving || (s.power.mode == .start && decide (3 ≤ s.rd 0x1200 1))

/-- An open session. -/
def session (s : State) (num : Nat) : Option Session := s.sec.sessions.find? fun x => x.num == num

/-- A session replaced. -/
def setSession (s : State) (x : Session) : State :=
  { s with sec := { s.sec with sessions := s.sec.sessions.map fun y => if y.num == x.num then x else y } }

/-- The role of an access under a session number (17 R357); none when the session is not open. -/
def roleOf (s : State) (num : Nat) : Option Role :=
  if num == 0 then some .host else (s.session num).map (·.role)

/-- Whether a role may act for a clearing as its tenant. -/
def isTenantOf (s : State) (r : Role) (n : Nat) : Bool :=
  match r with
  | .tenant t => s.tenantOf n == t
  | _ => false

/-- Whether a role may read a position (18 R385). -/
def mayRead (s : State) (r : Role) (e : Entry) (idx sub : Nat) : Bool :=
  match e.cls with
  | .all => true
  | .evlog => true
  | .none => false
  | .mgr => r == .manager
  | .clr => r == .manager || (match e.clearing idx sub with
    | some n => s.isTenantOf r n
    | none => false)

/-! ### Values computed from the state -/

/-- POWER_STATE (18 R391). -/
def powerState (s : State) : Nat :=
  match s.power.mode with
  | .off => 0
  | .start => 1
  | .run => 2
  | .held => 3

/-- The role record of a logical cell (03 R45). -/
def cellRole (s : State) (g c : Nat) : Nat :=
  let x := s.cell g c
  let p := s.physOf g c
  x.role * pow2 60 + x.program * pow2 52 + x.lastClearing * pow2 46
    + (if p % 17 == 16 then pow2 45 else 0)
    + (if (look (s.grove g).multi c).isSome then pow2 44 else 0) + x.roleChanges

/-- Seconds since the last understory test of a physical cell; all ones when it is retired (18 R395). -/
def testAge (s : State) (g p : Nat) : Nat :=
  let x := s.grove g
  if x.retired.contains p then 0xFFFFFFFF
  else min ((s.time - (look x.lastTest p).getD 0) / 1000000000) 0xFFFFFFFE

/-- The oldest test age of a healthy physical cell (20 R442). -/
def testAgeMax (s : State) (g : Nat) : Nat :=
  (List.range 272).foldl (fun a p => if (s.grove g).retired.contains p then a else max a (s.testAge g p)) 0

/-- The clearings that hold a grove's table (05 R97): they hold cells there and the seed in force is the table's. -/
def tableHolders (s : State) (g : Nat) : Nat :=
  let x := s.grove g
  if x.seed == 0 then 0
  else s.present.foldl (fun a n =>
    if s.frc 0x3110 n == x.seed && !(s.cellsOn n g).isEmpty then a + pow2 n else a) 0

/-- Cells assigned to a clearing (12 R255). -/
def cellCount (s : State) (n : Nat) : Nat :=
  (List.range 16).foldl (fun a g => a + (s.cellsOn n g).length) 0

/-- Whether some assigned cell lies in another clearing's claim map (12 R255). -/
def claimable (s : State) (n : Nat) : Bool :=
  (List.range 16).any fun g => (s.cellsOn n g).any fun c => s.present.any fun m => m != n && s.mayClaim m g c

/-- A scalar entry's value as a read returns it. -/
def readScalar (s : State) (sess idx sub : Nat) : Nat :=
  if idx == 0x1100 && sub == 1 then s.powerState
  else if idx == 0xA001 then s.time % pow2 64
  else if idx == 0x7100 && sub == 3 then
    (match s.session sess with
    | some x => x.evSelect
    | none => s.sec.hostSelect)
  else if 0x3010 ≤ idx && idx ≤ 0x301F then s.cellRole (idx - 0x3010) sub
  else if idx == 0x3120 then (s.grove (sub - 1)).tableState
  else if idx == 0x3122 then s.tableHolders (sub - 1)
  else if 0x9010 ≤ idx && idx ≤ 0x901F && sub == 8 then s.testAgeMax (idx - 0x9010)
  else if 0x9010 ≤ idx && idx ≤ 0x901F && sub == 0xA then (s.grove (idx - 0x9010)).queue.length
  else if idx == 0x8002 && sub == 4 then s.sec.sessions.length
  else if 0x2000 ≤ idx && idx < 0x2400 && idx % 16 == 0 && sub == 9 then s.cellCount ((idx - 0x2000) / 16)
  else if 0x2000 ≤ idx && idx < 0x2400 && idx % 16 == 0 && sub == 0xB then
    (if s.claimable ((idx - 0x2000) / 16) then 1 else 0)
  else s.rd idx sub

/-- An event record of the log by SEQ (18 R393). -/
def logRecord (s : State) (seq : Nat) : Option Ev := s.hub.evLog.find? fun e => e.seq == seq

/-- The attestation public key certificate layout of 19 R415. -/
def cert (kind starts : Nat) (issuer fw key sig : List Byte) : List Byte :=
  ascii "CRIRONKC" ++ leBytes 1 kind ++ zeros 3 ++ leBytes 4 starts ++ slice issuer 0 32 ++ slice fw 0 32
    ++ leBytes 2 key.length ++ zeros 2 ++ key ++ sig

/-- A key of one-time-programmable storage, opened with the device secret (19 R401). -/
def atRest (s : State) (k : AtRest) : Option (List Byte) := if k.under == s.otp.deviceSecret then some k.content else none

/-- The manager key in force, the newest (19 R409). -/
def managerKey (s : State) : Option (List Byte) := s.otp.managerKeys.head?.bind s.atRest

/-- A signature by the identity key (19 R401). -/
def signIdentity (s : State) (msg : List Byte) : List Byte :=
  match s.atRest s.otp.identityKey with
  | some k => Config.slhSign 0 k msg
  | none => Config.unkeyedSignature msg

/-- The public identity key (19 R401). -/
def identityPublic (s : State) : List Byte := Config.slhPublic 0 ((s.atRest s.otp.identityKey).getD [])

/-- A signature by the attestation key, which a zeroised module has no more (19 R401, R419). -/
def signAttest (s : State) (msg : List Byte) : List Byte :=
  match s.sec.attestKey with
  | some k => Config.slhSign 1 k msg
  | none => Config.unkeyedSignature msg

/-- The key K_T a clearing has: the one delivered to it, or its tenant's once it is installed (19 R403). -/
def keyOfClearing (s : State) (n : Nat) : Option (List Byte) :=
  match look s.sec.delivered n with
  | some k => some k
  | none => if s.rd (0x8040 + n) 2 == 2 then look s.sec.tenantKeys (s.tenantOf n) else none

/-- One clearing's entry of a report (19 R416), zero where the reader may not read the clearing (18 R385). -/
def reportEntry (s : State) (r : Role) (n : Nat) : List Byte :=
  if r == .manager || s.isTenantOf r n then
    leBytes 1 (s.clearState n) ++ leBytes 1 (s.rd (0x2000 + 16 * n) 2) ++ leBytes 1 (s.rd 0x2450 n)
      ++ leBytes 1 (s.rd (0x8040 + n) 2) ++ leBytes 4 (s.tenantOf n) ++ leBytes 4 (s.jobOf n)
      ++ (match s.keyOfClearing n with
        | some k => (hmac k (ascii "CRIRON-KC" ++ leBytes 1 n)).take 4
        | none => zeros 4)
  else zeros 16

/-- The firmware image accepted (19 R412). -/
def activeImage (s : State) : Mem := if s.rd 0x1201 1 == 0 then s.flash.imageA else s.flash.imageB

/-- SHA-256 of the accepted image's header of 7,952 bytes (19 R415). -/
def fwHash (s : State) : List Byte := sha256 (Mem.reads s.activeImage 0 7952)

/-- Bytes 0 to 1,279 of an attestation report (19 R416). -/
def reportBody (s : State) (r : Role) (nonce : List Byte) : List Byte :=
  let role := match r with
    | .host => 0
    | .manager => 1
    | .tenant _ => 2
  let tn := match r with
    | .tenant t => t
    | _ => 0
  ascii "CRIRONAR" ++ leBytes 1 1 ++ leBytes 1 role ++ zeros 2 ++ leBytes 4 tn ++ slice nonce 0 32
    ++ slice (s.rdBlob 0x8000 1) 0 32 ++ sha256 (s.rdBlob 0x8000 4) ++ s.fwHash
    ++ leBytes 4 (if s.rd 0x1201 1 == 0 then s.rd 0x1201 2 else s.rd 0x1201 3) ++ leBytes 1 (s.rd 0x1201 1)
    ++ leBytes 1 (s.rd 0x8003 1) ++ leBytes 1 (s.rd 0x4000 7) ++ zeros 1 ++ leBytes 4 s.otp.rollback
    ++ leBytes 2 (s.rd 0x1003 1) ++ zeros 2 ++ leBytes 8 s.time
    ++ (match s.managerKey with
      | some k => sha256 (ascii "CRIRON-MGR" ++ k)
      | none => zeros 32)
    ++ slice s.otp.serial 0 16 ++ zeros 40 ++ ((List.range 64).map (s.reportEntry r)).flatten

/-- The attestation report, signed by the attestation key (19 R416). -/
def report (s : State) (r : Role) (nonce : List Byte) : List Byte :=
  let b := s.reportBody r nonce
  b ++ slice (s.signAttest b) 0 17088

/-- The nonce held for a session, or for the host role (18 R394). -/
def nonceOf (s : State) (sess : Nat) : List Byte :=
  match s.session sess with
  | some x => x.nonce
  | none => s.sec.hostNonce

/-- Whether a reader may have an event record (18 R393). -/
def mayReadEvent (s : State) (r : Role) (e : Ev) : Bool :=
  match r with
  | .tenant _ => e.clearing == 0xFF || s.isTenantOf r e.clearing
  | _ => true

/-- A STR or BLOB entry's value as a read returns it, or the status that refuses it. -/
def readBlobValue (s : State) (r : Role) (sess idx sub : Nat) : Except Name (List Byte) :=
  if idx == 0x7100 then
    (match s.logRecord (s.readScalar sess 0x7100 3) with
    | none => .error .evlogGone
    | some e => if s.mayReadEvent r e then .ok e.bytes else .error .roleDenied)
  else if idx == 0x8001 && sub == 1 then .ok (s.nonceOf sess)
  else if idx == 0x8001 && sub == 2 then .ok (s.report r (s.nonceOf sess))
  else if idx == 0x1202 then .ok []
  else if idx == 0x1002 then .ok s.otp.serial
  else if 0x9010 ≤ idx && idx ≤ 0x901F && sub == 9 then
    .ok ((List.range 272).map fun p => leBytes 4 (s.testAge (idx - 0x9010) p)).flatten
  else .ok (s.rdBlob idx sub)

/-- A dictionary read (17 R355, R359; 18 R385): the value's bytes, or the status that refuses it. -/
def readEntry (s : State) (sess idx sub : Nat) : Except Name (List Byte) :=
  match s.roleOf sess, entryAt idx sub with
  | none, _ => .error .sessionUnknown
  | some _, none => .error .entryAbsent
  | some r, some e =>
    if !s.mayRead r e idx sub then .error .roleDenied
    else match e.ty.width with
      | some w => .ok (leBytes w (s.readScalar sess idx sub))
      | none => s.readBlobValue r sess idx sub

end State

end Sys2Proof.Machine
end

