-- ==== Sys2Proof/Machine/Power.lean ====
section
/-! DEFINITION. Power states, capping, thermal response, measured rates, regulator refill and the PCIe link (21 R443
to R451, R464; 02 R31; 12 R266, R269; 17 R365). START is in Machine/Start.lean. -/

namespace Sys2Proof.Machine

/-- The I32 encoding of a signed value. -/
def i32 (x : Int) : Nat := (x % (pow2 32 : Nat)).toNat

/-- The signed value an I32 encoding stands for. -/
def i32Val (v : Nat) : Int := if v < pow2 31 then v else (v : Int) - pow2 32

/-- A base address register pair of the endpoint: number of its lower register, bytes, whether it is prefetchable. Both
are 64-bit (17 R365). -/
structure Bar where
  number : Nat
  bytes : Nat
  prefetch : Bool
deriving DecidableEq, Repr

/-- What the endpoint's configuration space says of it (17 R365). -/
structure Endpoint where
  classCode : Nat := 0x120000
  deviceId : Nat := 0xAD16
  interruptPin : Nat := 0
  functions : Nat := 1
  virtualFunctions : Nat := 0
  msi : Bool := false
  msix : Bool := false
  bars : List Bar := [{ number := 0, bytes := 0x1000000, prefetch := false },
    { number := 2, bytes := 0x4000000, prefetch := true }]
deriving DecidableEq, Repr

namespace State

/-- A die's hottest junction in m°C. -/
def junction (s : State) (die : Nat) : Int := i32Val (s.rd 0x1120 die)

/-- A die's junction reading published. -/
def setJunction (s : State) (die : Nat) (mC : Int) : State := s.wr 0x1120 die (i32 mC)

/-- THERM_WARN_C in m°C. -/
def warnLevel (s : State) : Int := (s.rd 0x1122 1 : Int) * 1000

/-- THERM_TRIP_C in m°C. -/
def tripLevel (s : State) : Int := (s.rd 0x1122 2 : Int) * 1000

/-- Every junction lies below a level. -/
def allBelow (s : State) (level : Int) : Bool := (List.range 25).all fun d => decide (s.junction (d + 1) < level)

/-- A grove's supply lowered by one step of 10 mV, never below its lowest (21 R448). -/
def stepDown (s : State) (g : Nat) : State := s.setSupply g (max (s.rd 0x1101 (g + 1) - 10) (s.lowestSupply g))

/-- A grove's supply raised by one step of 10 mV towards 0.85 V (21 R448, 02 R29). -/
def stepUp (s : State) (g : Nat) : State := s.setSupply g (min (s.rd 0x1101 (g + 1) + 10) 850)

/-- Every grove's supply changed by one operation. -/
def onGroves (s : State) (f : State → Nat → State) : State := (List.range 16).foldl f s

/-- Every grove at its lowest allowed supply. -/
def allLowest (s : State) : Bool := (List.range 16).all fun g => s.rd 0x1101 (g + 1) ≤ s.lowestSupply g

/-- Some grove's supply below 0.85 V. -/
def someBelowTop (s : State) : Bool := (List.range 16).any fun g => s.rd 0x1101 (g + 1) < 850

/-- No cell runs a tile. -/
def quiet (s : State) : Bool := s.cells.all fun p => p.2.slots.all fun t => t.st != .running

/-- An accepted HOLD (21 R446): cells pick no further tile. Outside RUN it changes nothing (18 R391). -/
def doHold (s : State) : State :=
  if s.running then { s with power := { s.power with holding := true, resumeNext := false } } else s

/-- HELD is entered (21 R446, step 2). -/
def enterHeld (s : State) : State :=
  { s with power := { s.power with mode := .held, holding := false, resumeNext := false, heldAt := s.time } }.postAll
    .moduleHeld

/-- The coordinates of a module number: [31:24] z, [23:16] y, [15:8] x, [7:0] w (14 R299, 18 R390). -/
def coordOf (m : Nat) : Nat :=
  m % 16 + m / 16 % 16 * 256 + m / 256 % 8 * pow2 16 + m / 2048 % 8 * pow2 24

/-- A new MODULE_NUMBER takes effect on leaving HELD: every port in TORUS, EXPRESS or BUDDY mode goes DOWN to be
brought up again (18 R390). -/
def applyNumber (s : State) : State :=
  if s.power.numberNew then
    let s1 := { s with power := { s.power with numberNew := false } }
    let s2 := (s1.setFrc 0x1003 1 (s1.rd 0x1003 1)).wr 0x1003 2 (coordOf (s1.rd 0x1003 1))
    (List.range 32).foldl (fun s p =>
      let m := s.rd (0x5000 + 16 * p) 1
      if 1 ≤ m && m ≤ 3 then s.wr (0x5000 + 16 * p) 2 0 else s) s2
  else s

/-- An accepted RESUME in HELD (21 R447): the module returns to RUN, a new MODULE_NUMBER and the ageing policy
written in HELD take effect (18 R390, 20 R435). Behind a HOLD that cells still delay it acts after it, and in RUN it
changes nothing (18 R391). -/
def doResume (s : State) : State :=
  if s.power.mode == .held then
    let s1 := ({ s with power := { s.power with mode := .run } }.setFrc 0x1130 1 (s.rd 0x1130 1)).applyNumber
    s1.ageModule.postAll .moduleRun
  else if s.power.holding then { s with power := { s.power with resumeNext := true } }
  else s

/-- Whether the endpoint takes the host's requests (17 R365, 21 R454). -/
def hostUp (s : State) : Bool := s.on && s.power.linkUp && s.power.answers && !s.power.perst

/-- What a configuration request of the host meets: nothing while the link is down or PERST_N is asserted, a request to
try again until start-up step 3 has ended, then the endpoint (17 R365). -/
def hostConfig (s : State) : Option (Option Endpoint) :=
  if s.on && s.power.linkUp && !s.power.perst then some (if s.power.answers then some {} else none) else none

/-- The clearings of a job role that exist. -/
def withRole (s : State) (r : Nat) : List Nat := s.present.filter fun n => s.jobRole n == r

/-- Every press clearing's module reports itself failed (21 R451, 15 R331). -/
def reportSelf (s : State) : State :=
  (s.withRole 1).foldl
    (fun s n => s.emit (.job n "FAILURE_REPORT" (s.rd (0x9080 + n) 2) [s.ownModule])) s

end State

/-! ### The commands -/

/-- POWER_OFF: a cause of OFF (21 R445). -/
def execPowerOff (_cause : OffCause) (s : State) : Ans := whenOn s s.powerDown

/-- HOLD_DONE: the last cell has stopped, and the module is HELD (21 R446, step 2); a RESUME accepted behind the HOLD acts
then (18 R391), unless THERM_N has been asserted meanwhile (21 R447). -/
def execHoldDone (s : State) : Ans :=
  let k := if s.power.resumeNext && !s.power.thermN then s.enterHeld.doResume else s.enterHeld
  whenOn s (onlyIf (s.running && s.power.holding && s.quiet) s k)

/-- CAP_CONTROL_TICK: the controller compares the input with the cap, once every millisecond (21 R448, R449). It steps
supplies in RUN and HELD, when start-up has set them, so that none leaves 0.70 to 0.85 V (02 R29). DEDUCED: the cap holds a
grove down in a millisecond whose input is not below it (log entry 20). -/
def execCapControlTick (mv ma w : Nat) (s : State) : Ans :=
  let mj := (look s.live (keyOf 0x1100 7)).getD 0 + w
  let s1 := (((s.wr 0x1100 4 mv).wr 0x1100 5 ma).wr 0x1100 6 w).wr 0x1100 7 (min (mj / 1000) (pow2 64 - 1))
  let s2 := { s1 with live := ins s1.live (keyOf 0x1100 7) mj }
  let cap := s.rd 0x1100 3
  let s3 := if !s.serving then s2
    else if cap < w then s2.onGroves State.stepDown
    else if w < cap && s.allBelow s.warnLevel then s2.onGroves State.stepUp
    else s2
  let stuck := s.serving && cap < w && s.allLowest
  let s4 := if stuck && !s.power.capFlag then s3.postAll .capUnreachable .ok (words [w, cap]) else s3
  let s5 := { s4 with power := { s4.power with capFlag := stuck || (cap < w && s.power.capFlag) } }
  whenOn s (if s.serving && cap ≤ w && s5.someBelowTop then s5.bump 0x1100 8 1 else s5)

/-- THERMAL_WARN: a grove's hottest junction against THERM_WARN_C (21 R450). -/
def execThermalWarn (g : Nat) (mC : Int) (s : State) : Ans :=
  let s1 := s.setJunction (g + 1) mC
  let known := s.power.warnGroves.contains g
  let k : State :=
    if s.warnLevel < mC then
      let s2 := if known then s1 else s1.postAll .thermalWarn .ok (words [g + 1, i32 mC])
      let s3 := { s2 with power := { s2.power with
        warnGroves := if known then s2.power.warnGroves else g :: s2.power.warnGroves } }
      s3.stepDown g
    else { s1 with power := { s1.power with warnGroves := s1.power.warnGroves.filter (· != g) } }
  inRange (wfGrove g) s k

/-- THERMAL_TRIP: a die's junction has reached THERM_TRIP_C (21 R451). During a HOLD it only adds THERM_N. -/
def execThermalTrip (die : Nat) (mC : Int) (s : State) : Ans :=
  let s1 := s.setJunction die mC
  let s2 := { s1 with power := { s1.power with thermN := true } }
  let k : State :=
    if s.power.holding || s.power.mode == .held then s2
    else
      let s3 := (s2.onGroves fun s g => s.setSupply g (s.lowestSupply g)).doHold
      s3.postAll .thermalTrip .ok (words [die])
  inRange (wfDie die) s (if s.tripLevel ≤ mC then (if s.power.thermN then k else k.reportSelf) else s1)

/-- THERM_RELEASE: THERM_N is released when every junction lies below THERM_WARN_C − 10 °C (21 R451). -/
def execThermRelease (temps : List (Nat × Int)) (s : State) : Ans :=
  let s1 := temps.foldl (fun s p => if wfDie p.1 then s.setJunction p.1 p.2 else s) s
  whenOn s (if s1.allBelow (s1.warnLevel - 10000) then { s1 with power := { s1.power with thermN := false } } else s1)

/-- THERMAL_HOT_TIMEOUT: a junction still at THERM_TRIP_C 100 ms after HELD was entered puts the module OFF
(21 R451). -/
def execThermalHotTimeout (die : Nat) (mC : Int) (s : State) : Ans :=
  let due := s.power.mode == .held && s.tripLevel ≤ mC && 100000000 ≤ s.time - s.power.heldAt
  inRange (wfDie die) s (if due then s.powerDown else s.setJunction die mC)

/-- COOLANT_LOW: the flow, as it stood for 1 s (21 R464); posted once per excursion below 2,400 mL/min. -/
def execCoolantLow (flow : Nat) (tin tout : Int) (s : State) : Ans :=
  let s1 := ((s.wr 0x1121 3 flow).wr 0x1121 1 (i32 tin)).wr 0x1121 2 (i32 tout)
  let low := flow < 2400
  let s2 := if low && !s.power.coolFlag then s1.postAll .coolantLow .ok (words [flow]) else s1
  whenOn s { s2 with power := { s2.power with coolFlag := low } }

/-- RATE_MEASURE: the beats a die's reference stage counted over the last millisecond, at most 2,050,000 (02 R29): its
rate in units of 1 M beats/s, and its beats since RUN (02 R31). BEATS_ELAPSED goes on in HELD, and RESUME does not restart
it; a rate is cut to whole units (DESIGN CHOICE, log entry 29). -/
def execRateMeasure (die beats : Nat) (s : State) : Ans :=
  let s1 := s.wr 0x1112 die (beats / 1000)
  inRange (wfDie die) s
    (onlyIf (beats ≤ 2050000) s (if s.serving then s1.bump 0x1113 die beats else s1))

/-- REG_REFILL: one refill of a clearing's regulator; what a full bucket cannot hold goes to the resource's lending
pool, of at most one period of its capacity, from which the elastic clearings that lack bytes draw (12 R266, R269). -/
def execRegRefill (n res dir : Nat) (s : State) : Ans :=
  let r := s.refill n res
  let top := s.bucketTop n res
  let b := s.bucket n res dir + r
  let excess := (b - top).toNat
  let rate := s.rd 0x1112 (State.regDie res)
  let period := if rate == 0 then 0 else State.capacity res * 1024 / (1000000 * rate)
  let pool := min (s.lendingPool res dir + excess) period
  inRange (wfClearing n && wfRegulator res dir) s
    (onlyIf (s.exists? n) s (({ s with
      buckets := ins s.buckets (State.bucketKey n res dir) (min b top),
      pools := ins s.pools (res * 2 + dir) pool } : State).drawAll res dir))

/-- PERST_ASSERT: the endpoint and its link are reset, and nothing else (17 R365). The pin is an input, so its level
is kept in OFF too. -/
def execPerstAssert (s : State) : Ans := .next { s with power := { s.power with perst := true, linkUp := false } }

/-- PERST_RELEASE: the link trains once start-up step 2 has ended, and the endpoint answers once step 3 has
(17 R365, 21 R454). -/
def execPerstRelease (s : State) : Ans :=
  .next { s with power := { s.power with
    perst := false,
    linkUp := s.on && 2 ≤ s.rd 0x1200 1,
    answers := s.on && 3 ≤ s.rd 0x1200 1 } }

/-- PCIE_LINK_DOWN: while the link is down the endpoint takes no request (17 R365). -/
def execPcieLinkDown (s : State) : Ans := whenOn s { s with power := { s.power with linkUp := false } }

end Sys2Proof.Machine
end

