-- ==== Sys2Proof/Machine/Store.lean ====
section
/-! DEFINITION. The two dictionary banks and the two firmware images on NOR flash (17 R380 to R382, 18 R386, R392,
19 R411 to R414). -/

namespace Sys2Proof.Machine

/-- A 32-bit sequence number is newer than another (17 R381). -/
def seqNewer (a b : Nat) : Bool :=
  let d := (a + pow2 32 - b) % pow2 32
  1 ≤ d && d < pow2 31

/-! ### A bank's layout (17 R380) -/

/-- One record: INDEX, SUBINDEX, LENGTH and the value, padded with zeros to a multiple of 4 bytes. -/
def recordOf (r : Nat × List Byte) : List Byte :=
  leBytes 2 (r.1 / 256) ++ leBytes 1 (r.1 % 256) ++ zeros 1 ++ leBytes 4 r.2.length ++ r.2 ++ zeros ((4 - r.2.length % 4) % 4)

/-- A bank of records: the header and the records. -/
def bankOf (seq scale : Nat) (records : List (Nat × List Byte)) : Bank :=
  let body := records.flatMap recordOf
  let h := ascii "CRIRONDB" ++ leBytes 4 seq ++ leBytes 4 body.length ++ leBytes 4 records.length ++ leBytes 4 scale
    ++ leBytes 4 (crc32c body) ++ zeros 32
  { bytes := h ++ leBytes 4 (crc32c h) ++ body }

/-- SEQ of a bank. -/
def Bank.seq (b : Bank) : Nat := field b.bytes 8 4
/-- SCALE_ID of a bank. -/
def Bank.scaleId (b : Bank) : Nat := field b.bytes 20 4
/-- The records' bytes. -/
def Bank.body (b : Bank) : List Byte := slice b.bytes 64 (field b.bytes 12 4)
/-- TAG, HDR_CRC and BODY_CRC check (17 R381). -/
def Bank.valid (b : Bank) : Bool :=
  slice b.bytes 0 8 == ascii "CRIRONDB" && field b.bytes 60 4 == crc32c (slice b.bytes 0 60)
    && field b.bytes 24 4 == crc32c b.body

/-- The first `n` records of a body, by position and value. -/
def readRecords : Nat → List Byte → List (Nat × List Byte)
  | 0, _ => []
  | n + 1, b =>
    let len := field b 4 4
    (keyOf (field b 0 2) (field b 2 1), slice b 8 len) :: readRecords n (b.drop (8 + ceilDiv len 4 * 4))

/-- The records of a bank. -/
def Bank.records (b : Bank) : List (Nat × List Byte) := readRecords (field b.bytes 16 4) b.body

/-- A bank whose header sector is erased; flash erases to ones (PRESUMED, log entry 7). -/
def Bank.erased (b : Bank) : Bank := { bytes := overwrite b.bytes 0 (List.replicate 64 255#8) }

/-! ### The boot selection record's layout (19 R414) -/

/-- A boot selection record's 64 bytes. -/
def selBytes (b : BootSel) : List Byte :=
  let h := ascii "CRIRONBS" ++ leBytes 4 b.seq ++ leBytes 1 b.image ++ zeros 43 ++ leBytes 4 b.version
  h ++ leBytes 4 (crc32c h)

/-- The record of a sector, where its TAG and CRC check. -/
def selOf (b : List Byte) : Option BootSel :=
  if slice b 0 8 == ascii "CRIRONBS" && field b 60 4 == crc32c (slice b 0 60) then
    some { seq := field b 8 4, image := field b 12 1, version := field b 56 4 }
  else none

/-- Whether a position of a persistent row is an entry: a WAIT_LIMIT stands only where the arbiter has the input
(13 R290). -/
def standsAt (idx sub : Nat) : Bool :=
  match arbKind idx with
  | some k => sub < 0x31 || sub - 0x31 < 7 && arbLimit k (sub - 0x31) != 0
  | none => true

/-- Every persistent position, in ascending index and sub-index within each row of the map (18 R386). -/
def persistPositions : List (Nat × Nat) :=
  (entryTable.filter (·.persist)).flatMap fun e =>
    (List.range e.count).flatMap fun i =>
      ((List.range (e.subHi + 1 - e.subLo)).map fun k => (e.base + e.stride * i, e.subLo + k)).filter
        fun p => standsAt p.1 p.2

/-- A firmware image passes the checks of 19 R412, step 3, against the one-time-programmable state. -/
def imageOk (o : Otp) (m : Mem) : Bool :=
  let h := Mem.reads m 0 7952
  let body := field h 16 4
  let key := slice h 64 32
  slice h 0 8 == ascii "CRIRONFW" && 7952 + body ≤ 0x1000000
    && (match Config.romKeyIndex (sha256 key) with
      | some i => !o.revoked.contains i
      | none => false)
    && Config.slhVerify key (slice h 0 96) (slice h 96 7856)
    && o.rollback ≤ field h 12 4
    && sha256 (Mem.reads m 7952 body) == slice h 32 32

/-- VERSION of an image, 0 when it is not valid (18 R392). -/
def imageVersion (o : Otp) (m : Mem) : Nat := if imageOk o m then field (Mem.reads m 0 12) 8 4 else 0

namespace State

/-- A persistent position's value bytes as accepted. -/
def persistValue (s : State) (idx sub : Nat) : List Byte :=
  match entryAt idx sub with
  | some e => (match e.ty.width with
    | some w => leBytes w (s.rd idx sub)
    | none => s.rdBlob idx sub)
  | none => []

/-- Every persistent value as it stands: the records a STORE writes (17 R380, R382). -/
def persistRecords (s : State) : List (Nat × List Byte) :=
  (persistPositions.foldl (fun m p => ins m (keyOf p.1 p.2) (s.persistValue p.1 p.2)) ([] : Map (List Byte)))

/-- A bank is valid for this module: its own checks, and its SCALE_ID is the module's (17 R381). -/
def bankValid (s : State) (b : Bank) : Bool := b.valid && b.scaleId == s.rd 0x1000 3

/-- The newest valid bank's SEQ (17 R381, R382). -/
def newestSeq (s : State) : Option Nat :=
  match s.bankValid s.flash.bank0, s.bankValid s.flash.bank1 with
  | true, true => some (if seqNewer s.flash.bank1.seq s.flash.bank0.seq then s.flash.bank1.seq else s.flash.bank0.seq)
  | true, false => some s.flash.bank0.seq
  | false, true => some s.flash.bank1.seq
  | false, false => none

/-- A store of records begins (17 R382): its target is the bank not loaded or last written, and the target's header is
erased first. -/
def beginStore (s : State) (records : List (Nat × List Byte)) : State :=
  let target := if s.flash.lastBank == some 0 then 1 else 0
  let seq := match s.newestSeq with
    | some n => (n + 1) % pow2 32
    | none => 1
  let b := bankOf seq (s.rd 0x1000 3) records
  let f := s.flash
  let f1 := if target == 0 then { f with bank0 := f.bank0.erased } else { f with bank1 := f.bank1.erased }
  { s with flash := { f1 with writing := some (target, b) } }.wr 0x1210 2 1

/-- STORE_CMD accepted (17 R382): STORE saves every persistent value, RESET_DEFAULTS a bank with no records. -/
def storeCmd (s : State) (v : Nat) : Except Name State :=
  if s.rd 0x1210 2 == 1 then .error .storeBusy
  else .ok (s.beginStore (if v == 1 then s.persistRecords else []))

/-- The store in progress ends with its header written (17 R382). -/
def endStore (s : State) : State :=
  match s.flash.writing with
  | none => s
  | some (k, b) =>
    let f := s.flash
    let f1 := if k == 0 then { f with bank0 := b } else { f with bank1 := b }
    let s1 := { s with
      flash := { f1 with writing := none, lastBank := some k },
      otp := { s.otp with storeWrites := s.otp.storeWrites + 1 } }
    (((s1.wr 0x1210 2 0).wr 0x1210 4 b.seq).bump 0x1210 5 1).postAll .storeDone

/-! ### Firmware staging (18 R392) -/

/-- The number of the image FW_ACTIVE does not name. -/
def inactive (s : State) : Nat := 1 - s.rd 0x1201 1

/-- An image's bytes. -/
def image (s : State) (k : Nat) : Mem := if k == 0 then s.flash.imageA else s.flash.imageB

/-- The inactive image replaced: it is unverified, and its published version follows (18 R392). -/
def setInactive (s : State) (m : Mem) : State :=
  let k := s.inactive
  let f := s.flash
  let f1 := if k == 0 then { f with imageA := m } else { f with imageB := m }
  { s with flash := { f1 with verified := false } }.wr 0x1201 (2 + k) (imageVersion s.otp m)

/-- FW_STAGE_STATUS set to a name's code. -/
def stageStatus (s : State) (n : Name) : State := s.wr 0x1202 4 n.code

/-- FW_STAGE_DATA accepted: the bytes are written at FW_STAGE_OFFSET of the inactive image. -/
def stageData (s : State) (v : List Byte) : State :=
  (s.setInactive (Mem.writes (s.image s.inactive) (s.rd 0x1202 1) v)).stageStatus .ok

/-- FW_STAGE_CMD accepted: ERASE, VERIFY or SELECT of the inactive image (18 R392, 19 R412, R414). -/
def stageCmd (s : State) (v : Nat) : Except Name State :=
  let m := s.image s.inactive
  match v with
  | 1 => .ok ((s.setInactive []).stageStatus .ok)
  | 2 =>
    let ok := imageOk s.otp m
    .ok ({ s with flash := { s.flash with verified := ok } }.stageStatus (if ok then .ok else .fwUnverified))
  | _ =>
    if s.flash.verified then
      let seqs := ((selOf s.flash.sel0).toList ++ (selOf s.flash.sel1).toList).map (·.seq)
      let seq := match seqs with
        | [] => 1
        | a :: r => (r.foldl (fun x y => if seqNewer y x then y else x) a + 1) % pow2 32
      let b := selBytes { seq := seq, image := s.inactive, version := field (Mem.reads m 0 12) 8 4 }
      .ok ({ s with flash := { s.flash with sel0 := b, sel1 := b } }.stageStatus .ok)
    else .error .fwUnverified

end State

/-- STORE_DONE: the bank header is written last (17 R382). -/
def execStoreDone (s : State) : Ans := whenOn s s.endStore

end Sys2Proof.Machine
end

