-- ==== Sys2Proof/Machine/Culture.lean ====
section
/-! DEFINITION. The culture table and the draws made from it (05 R93 to R105). -/

namespace Sys2Proof.Machine

/-- Word `i` of the table of a seed (05 R94). -/
def tableWord (seed i : Nat) : Nat :=
  let h := sha256 (ascii "CRIRONCT" ++ leBytes 8 seed ++ leBytes 4 (i / 4))
  field h (8 * (i % 4)) 8

/-- The 65,536 bytes of a table (05 R94, R96). -/
def tableBytes (seed : Nat) : List Byte := (List.range 8192).flatMap fun i => leBytes 8 (tableWord seed i)

/-- A 64-bit rotation to the left. -/
def rotl (x n : Nat) : Nat := ((x <<< n) ||| (x >>> (64 - n))) % pow2 64

/-- The key of a draw (05 R99). -/
def drawKey (seed stream index counter : Nat) : Nat :=
  let x := seed ^^^ ((stream * pow2 52) ||| index) ^^^ (counter * 0x9E3779B97F4A7C15 % pow2 64)
  let y := x * 0xD6E8FEB86659FD93 % pow2 64
  y ^^^ (y >>> 32)

/-- A draw over a table `t` (05 R99). -/
def drawWith (t : Nat → Nat) (key : Nat) : Nat :=
  ((rotl (t (key % pow2 13)) (bitsOf key 31 26) + rotl (t (bitsOf key 25 13)) (bitsOf key 37 32)) % pow2 64) ^^^ key

namespace State

/-- The number of the step a clearing is in: press steps count from the completed ones, vat and taster steps from those
begun (05 R100). -/
def stepNumber (s : State) (n : Nat) : Nat :=
  let k := (s.clr n).stepNo
  if s.jobRole n == 1 then k else k - 1

/-- The draw of a clearing's tile on a grove for one stream and index in its present step (05 R99, R100). -/
def draw (s : State) (n g stream index : Nat) : Nat :=
  drawWith (tableWord (s.grove g).seed) (drawKey (s.frc 0x3110 n) (stream % 4096) (index % pow2 52)
    (s.stepNumber n % pow2 64))

/-- Every grove of a clearing with a seed in force holds that seed's table READY (05 R95, R96). -/
def tablesReady (s : State) (n : Nat) : Bool :=
  let seed := s.frc 0x3110 n
  seed == 0 || (s.grovesOf n).all fun g => (s.grove g).seed == seed && (s.grove g).tableState == 2

/-- The fills that start at a clearing's step boundary (05 R95): groves whose table is EMPTY or holds another seed; a
retired table is filled no more (R105). A fill forgets the words that failed once, and the time charged for it changes no
counter and no deficit (DESIGN CHOICE, log entry 29). -/
def startFills (s : State) (n : Nat) : State :=
  let seed := s.frc 0x3110 n
  if seed == 0 then s
  else (s.grovesOf n).foldl (fun s g =>
    let x := s.grove g
    if !x.tableRetired && (x.seed != seed || x.tableState == 0) then
      s.setGrove g { x with seed := seed, tableState := 1, fillTries := 0, badWords := [] }
    else s) s

/-- A grove's table FAILED (05 R96, R105). -/
def failTable (s : State) (g : Nat) : State :=
  (s.setGrove g { s.grove g with tableState := 3 }).postAll .cultureFillFailed .ok (words [g])

/-- A double-bit error in a table word: its hash block is recomputed and rewritten; a second one in the same word
retires the table (05 R105). -/
def tableError (s : State) (g word : Nat) : State :=
  let x := s.grove g
  if x.badWords.contains word then (s.setGrove g { x with tableRetired := true }).failTable g
  else s.setGrove g { x with badWords := word :: x.badWords }

end State

/-- CULTURE_FILL_DONE: the fill's CRC-32C compared (05 R96). TABLE_FILLS counts each fill at its end, whatever its CRC,
and none that its last holder's leaving ended (DESIGN CHOICE, log entry 29). -/
def execCultureFillDone (g : Nat) (crcOk : Bool) (s : State) : Ans :=
  let x := s.grove g
  let s1 := s.bump 0x3123 (g + 1) 1
  let k := if crcOk then (s1.setGrove g { x with tableState := 2 }).wr 0x3121 (g + 1) (crc32c (tableBytes x.seed))
    else if x.fillTries == 0 then s1.setGrove g { x with fillTries := 1 }
    else s1.failTable g
  inRange (wfGrove g) s (onlyIf (x.tableState == 1) s k)

end Sys2Proof.Machine
end

