-- ==== Sys2Proof/Machine/Region.lean ====
section
/-! DEFINITION. The two memory tiers: regions and their blocks, job windows, regulators of a byte range, lines that
cannot be read, writes under an open snapshot, and where the key-value pool lies in a region (07 R134, R136; 11 R233,
R238, R239, R246, R248, R251). -/

namespace Sys2Proof.Machine

/-- Bytes of a block: 2 MiB (11 R233). -/
abbrev blockBytes : Nat := 0x200000

/-- The stack group of a tier-1 region block (11 R233): block b is in stack b mod 12, three stacks to a group. -/
def groupOfBlock (b : Nat) : Nat := b % 12 / 3

/-- The region blocks a byte range touches. -/
def blocksIn (off len : Nat) : List Nat :=
  if len == 0 then [] else (List.range ((off + len - 1) / blockBytes - off / blockBytes + 1)).map (· + off / blockBytes)

/-- The region offset of byte `o` of the part of a region in stack `k` (11 R233). -/
def stackOff (k o : Nat) : Nat := (12 * (o / blockBytes) + k) * blockBytes + o % blockBytes

/-- A line of a memory device: its tier, its stack or cellar channel, and its address (log entry 14). -/
structure Place where
  tier : Nat
  dev : Nat
  addr : Nat
deriving DecidableEq, Repr

/-- The place of a region byte (11 R233). -/
def regionPlace (tier n off : Nat) : Place :=
  let b := off / blockBytes
  { tier := tier, dev := if tier == 2 then 8 * (b % 4) + off % blockBytes / 4096 % 8 else b % 12,
    addr := regionAddr tier n (off / 64 * 64) }

namespace State

/-! ### Regions, windows and regulators -/

/-- Bytes of a clearing's region of a tier, in force (11 R240). -/
def regionLen (s : State) (n tier : Nat) : Nat := s.frc (0x4040 + n) (2 + tier)
/-- Bytes of its job window (11 R239). -/
def windowLen (s : State) (n tier : Nat) : Nat := s.frc (0x4040 + n) (4 + tier)

/-- Whether clearing `n` may reach a byte range of clearing `m`'s region (11 R239). -/
def mayReach (s : State) (n m tier off len : Nat) : Bool :=
  off + len ≤ s.regionLen m tier && (n == m || (s.sameJob n m && off + len ≤ s.windowLen m tier))

/-- A transfer's bytes of a tier charged to the clearing that owns the region: the cellar's regulator, or those of the
stack groups the range's blocks lie in (11 R238). -/
def chargeRange (s : State) (n tier off len : Nat) : State :=
  if tier == 2 then s.charge n 5 0 len
  else (blocksIn off len).foldl (fun s b =>
    let lo := max off (b * blockBytes)
    let hi := min (off + len) ((b + 1) * blockBytes)
    s.charge n (1 + groupOfBlock b) 0 (hi - lo)) s

/-! ### Lines that cannot be read (11 R246, R248) -/

/-- A cellar group is FAILED. -/
def groupFailed (s : State) (k : Nat) : Bool := s.rd 0x4C01 (k + 1) == 1
/-- A line's cellar group is FAILED. -/
def inFailed (s : State) (p : Place) : Bool := p.tier == 2 && s.groupFailed (p.dev / 8)
/-- A read of a line fails: it is POISON, or its group is FAILED. -/
def unreadable (s : State) (p : Place) : Bool := s.poison.contains p.addr || s.inFailed p
/-- Some line of the module may be unreadable. -/
def anyBad (s : State) : Bool := !s.poison.isEmpty || (List.range 4).any fun k => s.groupFailed k

/-- The lines of a read that cannot be read, by index, with their places. -/
def badLines (s : State) (lines : Nat) (place : Nat → Option Place) : List (Nat × Place) :=
  if s.anyBad then (List.range lines).filterMap fun i =>
    match place i with
    | some p => if s.unreadable p then some (i, p) else none
    | none => none
  else []

/-- The lines of a region range that cannot be read, by index. -/
def badRange (s : State) (n tier off len : Nat) : List Nat :=
  (s.badLines (ceilDiv len 64) fun i => some (regionPlace tier n (off + 64 * i))).map (·.1)

/-- The lines of a tier-2 region range that lie in a FAILED group: a request with such lines ends LOST (11 R246). -/
def failedLines (s : State) (n off len : Nat) : Nat :=
  if (List.range 4).any fun k => s.groupFailed k then
    ((List.range (ceilDiv len 64)).filter fun i => s.inFailed (regionPlace 2 n (off + 64 * i))).length
  else 0

/-! ### Reads, and writes under an open snapshot (11 R251) -/

/-- The channel whose snapshot is of a clearing. -/
def channelOf (s : State) (n : Nat) : Option Nat := (List.range 4).find? fun k => (s.copier k).clearing == some n

/-- The blocks of a tier-1 range of a clearing that an open snapshot has not COPIED yet. -/
def uncopied (s : State) (n off len : Nat) : List Nat :=
  match s.channelOf n with
  | none => []
  | some k => (blocksIn off len).filter fun b => (s.copier k).blocks.contains b

/-- A write into blocks not COPIED stalls: the channel copies those blocks next, in the order the writes arrived. A tile's
write holds no bytes: its tile waits and writes when it is run again. -/
def stallWrite (s : State) (n off len : Nat) (data : List Byte) : State :=
  match s.channelOf n with
  | none => s
  | some k =>
    let x := s.copier k
    let known := data.isEmpty && x.stalled.any fun w => w.off == off && w.len == len && w.data.isEmpty
    let add := (s.uncopied n off len).filter fun b => !x.redirected.contains b
    if known then s
    else (s.setCopier k { x with
      redirected := x.redirected ++ add,
      stalled := x.stalled ++ [{ off := off, len := len, since := s.time, data := data }] }).bump (0x4040 + n) 8 1

/-- Bytes written into a region, the lines written whole readable again (11 R248). -/
def pokeRegion (s : State) (tier n off : Nat) (data : List Byte) : State :=
  (s.poke (regionAddr tier n off) data).healLines (regionAddr tier n off) data.length

/-- Bytes of a region read and charged. -/
def readRegion (s : State) (n tier off len : Nat) : List Byte × State :=
  (s.peek (regionAddr tier n off) len, s.chargeRange n tier off len)

/-- Bytes of a region written and charged; a tier-1 write into blocks that an open snapshot has not copied is held until
they are (11 R251). -/
def writeRegion (s : State) (n tier off : Nat) (data : List Byte) : State :=
  let s1 := s.chargeRange n tier off data.length
  if tier == 1 && !(s1.uncopied n off data.length).isEmpty then s1.stallWrite n off data.length data
  else s1.pokeRegion tier n off data

/-- Bytes of a tier-1 range as they stand once the writes that wait for a snapshot have proceeded. -/
def peekAfter (s : State) (n off len : Nat) : List Byte :=
  let held := match s.channelOf n with
    | some k => (s.copier k).stalled
    | none => []
  held.foldl (fun b w => b.mapIdx fun i x =>
    if w.off ≤ off + i && off + i < w.off + w.data.length then w.data.getD (off + i - w.off) 0 else x)
    (s.peek (regionAddr 1 n off) len)

/-- A range of a region copied to another place of it, with its charge at both ends: a move of the firmware. -/
def copyRegion (s : State) (n tierA a len tierB b : Nat) : State :=
  let s1 := (s.copyMem (regionAddr tierA n a) len (regionAddr tierB n b)).healLines (regionAddr tierB n b) len
  (s1.chargeRange n tierA a len).chargeRange n tierB b len

/-! ### The key-value pool in the region (07 R134, R136) -/

/-- Bytes of one key or value (07 R134). -/
def kvBytes (s : State) (n : Nat) : Nat := 2 * s.rd (0x4140 + n) 2
/-- Slices of a page: one for each layer and head. -/
def kvSlices (s : State) (n : Nat) : Nat := s.rd (0x4140 + n) 4 * s.rd (0x4140 + n) 5
/-- Bytes of a slice: 256 keys, then 256 values. -/
def sliceLen (s : State) (n : Nat) : Nat := 512 * s.kvBytes n
/-- Slices of the pool that each stack has room for. -/
def stackSlices (s : State) (n : Nat) : Nat := ceilDiv (s.frc (0x4140 + n) 1 * s.kvSlices n) 12

/-- The stack of a slice of a page. -/
def sliceStack (s : State) (n id slice : Nat) : Nat := (id % pow2 32 * s.kvSlices n + slice) % 12
/-- Region offset of a byte of a slice of a page: slice floor((n S + s) / 12) of the array that begins with the pool's first
block in each stack (07 R136). -/
def sliceOff (s : State) (n id slice off : Nat) : Nat :=
  let k := id % pow2 32 * s.kvSlices n + slice
  stackOff (k % 12) ((s.clr n).kvBlock * blockBytes + k / 12 * s.sliceLen n + off)
/-- Region offset of the token record of a page: record floor(n / 12) of the array behind the slices (07 R136; DEDUCED, log
entry 14). -/
def tokenOff (s : State) (n id : Nat) : Nat :=
  let k := id % pow2 32
  stackOff (k % 12) ((s.clr n).kvBlock * blockBytes + s.stackSlices n * s.sliceLen n + k / 12 * 4096)

end State

end Sys2Proof.Machine
end

