-- ==== Sys2Proof/Machine/Pages.lean ====
section
/-! DEFINITION. The key-value page pool of a clearing: page records and their states, prefix hashes and the index
(07 R145 to R158). A page is named by `member * 2^32 + page`: under a spread by position every member applies the same
events, so this module holds the records of every member's pool (R145); under a spread by head the member is 0. -/

namespace Sys2Proof.Machine

/-- The page record after a reference is added (07 R147). -/
def PageRec.addRef (r : PageRec) : PageRec := { r with refs := r.refs + 1, st := if r.st == 0 then 1 else 2 }

/-- The page record after a reference is dropped: RETIRING follows at the position of the step that retires
(07 R147, R149, R150). -/
def PageRec.dropRef (r : PageRec) : PageRec :=
  { r with refs := r.refs - 1, st := if r.refs ≤ 2 then 1 else 2 }

/-- The lowest number from `a` that is no key of a map whose keys rise. -/
def firstGap {α : Type} : Nat → Map α → Nat
  | a, [] => a
  | a, (k, _) :: r => if k < a then firstGap a r else if k == a then firstGap (a + 1) r else a

/-- The hash of block with tokens `toks` after a block with hash `prev` (07 R152). -/
def blockHash (n ver : Nat) (prev : List Byte) (toks : List Nat) : List Byte :=
  (sha256 (ascii "CRIRONPB" ++ leBytes 1 (n % 64) ++ leBytes 1 ver ++ zeros 6 ++ slice prev 0 16
    ++ (toks.map (leBytes 4)).flatten)).take 16

/-- The hashes of the first `k` full blocks of a token list (07 R153). -/
def blockHashes (n ver : Nat) : Nat → List Byte → List Nat → List (List Byte)
  | 0, _, _ => []
  | k + 1, prev, toks =>
    if toks.length < 256 then []
    else
      let h := blockHash n ver prev (toks.take 256)
      h :: blockHashes n ver k h (toks.drop 256)

namespace State

/-- A clearing's vat state. -/
def vat (s : State) (n : Nat) : Vat := (s.clr n).vat
/-- A clearing's vat state set. -/
def setVat (s : State) (n : Nat) (v : Vat) : State := s.setClr n { s.clr n with vat := v }
/-- A clearing's accepted plan. -/
def planOf (s : State) (n : Nat) : Option PlanClearing := (s.clr n).plan

/-- The version a vat step starting now runs on (10 R218, R227). -/
def stepVer (s : State) (n : Nat) : Nat :=
  let t := (s.clr n).turn
  if t.frontStarted then t.version else s.rd (0x6040 + n) 4

/-- KV_SPREAD in force is by position. -/
def byPosition (s : State) (n : Nat) : Bool := s.frc (0x4140 + n) 6 == 1
/-- The member on which a position page is homed (07 R143). -/
def homeOf (s : State) (n k : Nat) : Nat := if s.byPosition n then k % max 1 (s.frc (0x4140 + n) 7) else 0
/-- This module's member number. -/
def ownMember (s : State) (n : Nat) : Nat := if s.byPosition n then s.frc (0x4140 + n) 8 else 0

/-- A page record; a page that is not listed is FREE. -/
def page (s : State) (n id : Nat) : PageRec := (look (s.vat n).pages id).getD {}
/-- A page record set. -/
def setPage (s : State) (n id : Nat) (r : PageRec) : State :=
  s.setVat n { s.vat n with pages := ins (s.vat n).pages id r }
/-- Every page record changed. -/
def mapPages (s : State) (n : Nat) (f : PageRec → PageRec) : State :=
  s.setVat n { s.vat n with pages := (s.vat n).pages.map fun p => (p.1, f p.2) }

/-- Pages of a member's pool that are not FREE. -/
def poolUsed (s : State) (n m : Nat) : Nat :=
  ((s.vat n).pages.filter fun p => p.1 / pow2 32 == m).length
/-- FREE pages of a member's pool. -/
def poolFreePages (s : State) (n m : Nat) : Nat := s.frc (0x4140 + n) 1 - s.poolUsed n m

/-- The lowest-numbered FREE page of a member's pool (07 R149). -/
def lowestFree (s : State) (n m : Nat) : Option Nat :=
  let id := firstGap (pow2 32 * m) (s.vat n).pages
  if id < pow2 32 * m + s.frc (0x4140 + n) 1 then some id else none

/-- A FREE page of a member's pool allocated: ACTIVE, REFS 1 (07 R147). -/
def allocPage (s : State) (n m ver : Nat) : Option (Nat × State) :=
  (s.lowestFree n m).map fun id => (id, s.setPage n id { st := 1, refs := 1, version := ver })

/-- A reference to a page dropped. -/
def dropPage (s : State) (n id : Nat) : State := s.setPage n id (s.page n id).dropRef
/-- A sequence's references dropped. -/
def dropPages (s : State) (n : Nat) (pages : Map Nat) : State := pages.foldl (fun s p => s.dropPage n p.2) s

/-- Every page without references becomes RETIRING (07 R149, R150). -/
def retirePages (s : State) (n : Nat) : State :=
  s.mapPages n fun r => if r.refs == 0 then { r with st := 3 } else r

/-- Every RETIRING page without pins becomes FREE (07 R150, position 5). -/
def freePages (s : State) (n : Nat) : State :=
  s.setVat n { s.vat n with pages := (s.vat n).pages.filter fun p => !(p.2.st == 3 && p.2.pins == 0) }

/-- A page is homed on this module. -/
def pageHere (s : State) (n id : Nat) : Bool := id / pow2 32 == s.ownMember n

/-- Tokens written into the token record of a page from a position of it on; the record of another member's page is followed
by its tokens (07 R134, R145). -/
def putTokens (s : State) (n id at_ : Nat) (toks : List Nat) : State :=
  if s.pageHere n id then s.pokeRegion 1 n (s.tokenOff n id + 4 * at_) (toks.flatMap (leBytes 4))
  else
    let r := s.page n id
    s.setPage n id { r with toks := r.toks.take at_ ++ toks ++ r.toks.drop (at_ + toks.length) }

/-- A write into the token record of a page of this module charged (11 R238). -/
def chargeRecord (s : State) (n id at_ count : Nat) : State :=
  if s.pageHere n id then s.chargeRange n 1 (s.tokenOff n id + 4 * at_) (4 * count) else s

/-- A page's token record holds these 256 tokens; a record that cannot be read holds none (07 R153). -/
def recordIs (s : State) (n id : Nat) (toks : List Nat) : Bool :=
  if s.pageHere n id then
    (s.badRange n 1 (s.tokenOff n id) 1024).isEmpty && s.peek (regionAddr 1 n (s.tokenOff n id)) 1024
      == toks.flatMap (leBytes 4)
  else (s.page n id).toks == toks

/-- The FILL positions of every slice of a page and its token record copied into another of the same member (07 R149,
position 3), where that is this one. -/
def copyPage (s : State) (n old new : Nat) : State :=
  if s.pageHere n old then
    let len := (s.page n old).fill * s.kvBytes n
    let s1 := (List.range (s.kvSlices n)).foldl (fun s k => [0, 256 * s.kvBytes n].foldl (fun s part =>
      s.copyRegion n 1 (s.sliceOff n old k part) len 1 (s.sliceOff n new k part)) s) s
    s1.copyRegion n 1 (s.tokenOff n old) 4096 1 (s.tokenOff n new)
  else s

/-- The indexed page of a hash in a member's pool (07 R154). -/
def indexed (s : State) (n m : Nat) (h : List Byte) : Option (Nat × PageRec) :=
  (s.vat n).pages.find? fun p => p.1 / pow2 32 == m && p.2.indexed && p.2.hash == h

/-- The confirmed prefix hits of a token list (07 R153): block by block until the first miss, the position pages of
`skip` passed over (08 R179). The answer holds the position pages and pages hit, and where the lookup ended at a
miss, with whether it was a failed comparison. -/
def prefixHits (s : State) (n ver : Nat) (skip : List Nat) :
    Nat → Nat → List Byte → List Nat → List (Nat × Nat) × Option (Nat × Bool)
  | 0, _, _, _ => ([], none)
  | fuel + 1, k, prev, toks =>
    if toks.length < 256 then ([], none)
    else
      let h := blockHash n ver prev (toks.take 256)
      if skip.contains k then s.prefixHits n ver skip fuel (k + 1) h (toks.drop 256)
      else match s.indexed n (s.homeOf n k) h with
        | none => ([], some (k, false))
        | some p =>
          if s.recordIs n p.1 (toks.take 256) then
            let r := s.prefixHits n ver skip fuel (k + 1) h (toks.drop 256)
            ((k, p.1) :: r.1, r.2)
          else ([], some (k, true))

/-- The hash of each of the first blocks of a token list, under the versions of the pages that hold them (07 R152). -/
def chainHashes (s : State) (n : Nat) (pages : Map Nat) : Nat → Nat → List Byte → List Nat → List (List Byte)
  | 0, _, _, _ => []
  | fuel + 1, k, prev, toks =>
    let ver := match look pages k with
      | some id => (s.page n id).version
      | none => (s.vat n).ver
    let h := blockHash n ver prev (toks.take 256)
    h :: s.chainHashes n pages fuel (k + 1) h (toks.drop 256)

/-- A page that became FULL, with the 256 tokens of its block and their hash, inserted into the index, unless R155 keeps it
out. -/
def insertPage (s : State) (n id : Nat) (h : List Byte) (toks : List Nat) : State :=
  let r := s.page n id
  if r.mixed then s
  else match s.indexed n (id / pow2 32) h with
    | some other =>
      if s.recordIs n other.1 toks || !s.pageHere n id then s else s.bump (0x4140 + n) 0x12 1
    | none => s.setPage n id { r.addRef with hash := h, indexed := true }

/-- The page whose index reference R156 drops next: only the index holds it; ascending LAST_MATCH, then number. -/
def victimPage (s : State) (n m : Nat) : Option Nat :=
  ((s.vat n).pages.foldl (fun (a : Option (Nat × PageRec)) p =>
    if p.1 / pow2 32 == m && p.2.indexed && p.2.refs == 1 then
      match a with
      | none => some p
      | some q => if p.2.lastMatch < q.2.lastMatch then some p else some q
    else a) none).map (·.1)

/-- Index references dropped until FREE pages reach KV_LOW_WATER (07 R156), at most `fuel` of them. -/
def evictPages (s : State) (n m : Nat) : Nat → State
  | 0 => s
  | fuel + 1 =>
    if s.frc (0x4140 + n) 0xA ≤ s.poolFreePages n m then s
    else match s.victimPage n m with
      | none => s
      | some id =>
        let s1 := s.setVat n { s.vat n with pages := del (s.vat n).pages id }
        (if m == s.ownMember n then s1.bump (0x4140 + n) 0x14 1 else s1).evictPages n m fuel

/-- KV_FREE, KV_ACTIVE and KV_SHARED as they stand at a step end (07 R160). -/
def publishPool (s : State) (n : Nat) : State :=
  let m := s.ownMember n
  let own := (s.vat n).pages.filter fun p => p.1 / pow2 32 == m
  let count (st : Nat) := (own.filter fun p => p.2.st == st).length
  ((s.wr (0x4140 + n) 0xC (s.poolFreePages n m)).wr (0x4140 + n) 0xD (count 1)).wr (0x4140 + n) 0xE (count 2)

/-- Any page of the pool is not FREE (07 R160). -/
def poolBusy (s : State) (n : Nat) : Bool := s.poolUsed n (s.ownMember n) != 0

end State

end Sys2Proof.Machine
end

