-- ==== Sys2Proof/Machine/Curds.lean ====
section
/-! DEFINITION. What a vat writes out: output rings, curd records in the press clearing's curd buffer, and the endings that
close them (08 R170 to R176, R182). -/

namespace Sys2Proof.Machine

/-- Bytes of a curd record with `p` prompt tokens and `m` generated ones reserved (08 R174). -/
def recordBytes (p m : Nat) : Nat := ceilDiv (64 + 4 * (p + m) + 4 * m + m) 64 * 64

/-- A code of a stop at precedence 7 to 10 (08 R170). -/
def isStop (code : Nat) : Bool := 1 ≤ code && code ≤ 4

/-- The U32 array of `k` words at an offset of bytes. -/
def wordsAt (b : List Byte) (off k : Nat) : List Nat := (List.range k).map fun i => field b (off + 4 * i) 4

/-- The header of a record as it is reserved (08 R174). -/
def newHeader (tag pl mn vat bytes : Nat) : List Byte :=
  leBytes 8 tag ++ leBytes 4 pl ++ zeros 4 ++ leBytes 4 mn ++ zeros 4 ++ [0, 0, 0xFF, 0] ++ leBytes 2 vat ++ zeros 10
    ++ leBytes 4 bytes ++ zeros 20

/-- PROMPT_LEN, GEN_LEN and MAX_NEW of a header. -/
def headLens (h : List Byte) : Nat × Nat × Nat := (field h 8 4, field h 12 4, field h 16 4)
/-- REWARD_STATE of a header. -/
def headReward (h : List Byte) : Nat := field h 24 1

/-- Offset of token `k` of a record. -/
def tokenPlace (k : Nat) : Nat := 64 + 4 * k
/-- Offset of the log-probability of generated token `k`, by the record's header. -/
def logprobAt (h : List Byte) (k : Nat) : Nat := 64 + 4 * ((headLens h).1 + (headLens h).2.2 + k)
/-- Offset of the version byte of generated token `k`. -/
def versionAt (h : List Byte) (k : Nat) : Nat := 64 + 4 * ((headLens h).1 + 2 * (headLens h).2.2) + k
/-- A header with a reward written: SCORED. -/
def withReward (reward : Nat) (h : List Byte) : List Byte := overwrite (overwrite h 20 (leBytes 4 reward)) 24 [1]

namespace State

/-! ### Rings (08 R172) -/

/-- OUTPUT_READY of a ring. -/
def outputReady (s : State) (r : Ring) : State :=
  s.post .outputReady r.clearing .ok r.reqTag (words [r.offset, r.produced])

/-- A ring's record set. -/
def setRing (s : State) (id : Nat) (r : Ring) : State := { s with hub := { s.hub with rings := ins s.hub.rings id r } }

/-- A ring set ENDED (08 R172). -/
def endRing (s : State) (id reason idx : Nat) : State :=
  match look s.hub.rings id with
  | none => s
  | some r =>
    let r1 := { r with ended := true, status := reason, stopIndex := idx }
    (s.setRing id r1).outputReady r1

/-- One entry written to a ring (08 R172). -/
def putRing (s : State) (id tok lp pos ver : Nat) (last : Bool) : State :=
  match look s.hub.rings id with
  | none => s
  | some r =>
    let b := leBytes 4 tok ++ leBytes 4 lp ++ leBytes 4 pos ++ leBytes 1 ver ++ leBytes 1 (if last then 1 else 0)
      ++ zeros 2
    let r1 := { r with data := ins r.data (r.produced % max 1 r.entries) b, produced := r.produced + 1 }
    let s1 := s.setRing id r1
    if r1.produced % max 1 r.notify == 0 then s1.outputReady r1 else s1

/-- A ring has no free entry (08 R173). -/
def ringFull (s : State) (q : Req) : Bool :=
  match q.ring with
  | none => false
  | some id => (match look s.hub.rings id with
    | some r => r.consumed + r.entries ≤ r.produced
    | none => false)

/-! ### Curd records (08 R174 to R176) -/

/-- A press clearing's state. -/
def press (s : State) (n : Nat) : Press := (s.clr n).press
/-- A press clearing's state set. -/
def setPress (s : State) (n : Nat) (p : Press) : State := s.setClr n { s.clr n with press := p }

/-- The clearing whose record lists the curd records a vat or taster writes: the press clearing that holds the buffer,
by the plan, or the vat itself when the buffer is on another module (log entry 22). -/
def curdHome (s : State) (n : Nat) : Nat :=
  match s.planOf n with
  | some p => if p.curdModule == s.ownModule then p.curdClearing else n
  | none => 64

/-- Whether the job of a clearing has a taster, by its plan. -/
def tasted (s : State) (n : Nat) : Bool :=
  match s.planOf n with
  | some p => p.hasTaster
  | none => false

/-- Whether a clearing may write a range of the curd buffer: on this module the press clearing of its job, inside its job
window (01 R21, 11 R239); another module checks it itself. -/
def curdReach (s : State) (n : Nat) (p : PlanClearing) (off len : Nat) : Bool :=
  p.curdModule != s.ownModule || (s.jobRole p.curdClearing == 1 && s.mayReach n p.curdClearing 1 off len)

/-- Where a request's record is placed. In a buffer here: behind the last one placed if it fits there, else at the buffer's
start or behind another record (08 R175; DESIGN CHOICE, log entry 22). In a buffer on another module: where that module has
reserved it, of the places `far` that it granted by REQ_TAG. -/
def curdPlace (s : State) (n tag bytes : Nat) (far : List (Nat × Nat)) : Option Nat :=
  match s.planOf n with
  | none => none
  | some p =>
    let d := s.press (s.curdHome n)
    let fits (a : Nat) : Bool := p.curdOffset ≤ a && a + bytes ≤ p.curdOffset + p.curdBytes && s.curdReach n p a bytes
      && d.curds.all fun c => a + bytes ≤ c.2.place || c.2.place + c.2.bytes ≤ a
    if p.curdModule == s.ownModule then
      (d.curdHead :: p.curdOffset :: d.curds.map fun c => c.2.place + c.2.bytes).find? fits
    else ((far.filter fun f => f.1 == tag).map (·.2)).find? fits

/-- Whether the curd buffer can reserve a record (08 R165, R175). -/
def curdRoom (s : State) (n tag bytes : Nat) (far : List (Nat × Nat)) : Bool := (s.curdPlace n tag bytes far).isSome

/-- Bytes of a record written by clearing `n` into the curd buffer: here, where an open snapshot may hold them (11
R251), or over the links. Nothing lands in a clearing that is not, or no longer, the press of its job (01 R21, 11 R239).
-/
def curdWrite (s : State) (n : Nat) (c : Curd) (off : Nat) (data : List Byte) : State :=
  if c.modNo != s.ownModule then
    s.carryLines n c.modNo c.home 1 (c.place + off) data
  else if s.jobRole c.home == 1 && s.mayReach n c.home 1 (c.place + off) data.length then
    s.writeRegion c.home 1 (c.place + off) data
  else s

/-- The header of a record, where it lies. -/
def headOf (s : State) (c : Curd) : List Byte := if c.modNo == s.ownModule then s.peekAfter c.home c.place 64 else c.head

/-- The tokens of a record here, prompt and generated, in order. -/
def curdTokens (s : State) (c : Curd) : List Nat :=
  let l := headLens (s.headOf c)
  wordsAt (s.peekAfter c.home (c.place + 64) (4 * (l.1 + l.2.1))) 0 (l.1 + l.2.1)

/-- The record of a request in the directory of a clearing's curd buffer. -/
def findCurd (s : State) (n id tag : Nat) : Option Curd :=
  (look (s.press (s.curdHome n)).curds id).filter fun c => c.reqTag == tag

/-- A record entered into a directory. -/
def enterCurd (s : State) (h : Nat) (c : Curd) : Nat × State :=
  let p := s.press h
  (p.nextCurd, s.setPress h { p with
    curds := ins p.curds p.nextCurd c, nextCurd := p.nextCurd + 1, usedBytes := p.usedBytes + c.bytes,
    curdHead := c.place + c.bytes })

/-- A record reserved at admission: its header and prompt are written, and the rest of it zero (08 R175). -/
def reserveCurd (s : State) (n : Nat) (q : Req) (prompt : List Nat) (far : List (Nat × Nat)) : Nat × State :=
  let bytes := recordBytes prompt.length q.maxNew
  let to_ := match s.planOf n with
    | some pl => (pl.curdModule, pl.curdClearing, pl.vatNo)
    | none => (0, 0, 0)
  let head := newHeader q.tag prompt.length q.maxNew to_.2.2 bytes
  let c : Curd := {
    modNo := to_.1, home := to_.2.1, place := (s.curdPlace n q.tag bytes far).getD 0, reqTag := q.tag, writer := n,
    bytes := bytes, closed := false, head := if to_.1 == s.ownModule then [] else head }
  let r := s.enterCurd (s.curdHome n) c
  (r.1, r.2.curdWrite n c 0 (slice (head ++ prompt.flatMap (leBytes 4)) 0 bytes))

/-- A directory's record changed by clearing `n`: its header is written again where it lies, and kept where that is another
module. -/
def mapHead (s : State) (n h id : Nat) (f : List Byte → List Byte) : State :=
  let p := s.press h
  match look p.curds id with
  | none => s
  | some c =>
    let b := f (s.headOf c)
    let s1 := if c.modNo == s.ownModule then s else s.setPress h { p with curds := ins p.curds id { c with head := b } }
    s1.curdWrite n c 0 b

/-- One token written into a record at a step end: token, log-probability, version byte, then the header (08 R174, R175). -/
def putCurd (s : State) (n id tag tok lp ver : Nat) : State :=
  match s.findCurd n id tag with
  | none => s
  | some c =>
    let b := s.headOf c
    let k := (headLens b).2.1
    let s1 := ((s.curdWrite n c (tokenPlace ((headLens b).1 + k)) (leBytes 4 tok)).curdWrite n c (logprobAt b k)
      (leBytes 4 lp)).curdWrite n c (versionAt b k) (leBytes 1 ver)
    let first := overwrite b 30 (leBytes 1 ver ++ leBytes 1 ver ++ leBytes 8 (s.stepNumber n))
    s1.mapHead n (s.curdHome n) id fun b =>
      overwrite (if k == 0 then first else overwrite b 31 (leBytes 1 ver)) 12 (leBytes 4 (k + 1))

/-- Records released from a buffer's directory. -/
def freeCurds (s : State) (h : Nat) (ids : List Nat) : State :=
  let p := s.press h
  let bytes := (ids.filterMap fun id => (look p.curds id).map (·.bytes)).foldl (· + ·) 0
  s.setPress h { p with curds := ids.foldl del p.curds, usedBytes := p.usedBytes - bytes }

/-- A closed record enters the ready list of its press. -/
def readyCurd (s : State) (h id : Nat) : State :=
  let p := s.press h
  match look p.curds id with
  | none => s
  | some c => if c.closed then s
    else s.setPress h { p with curds := ins p.curds id { c with closed := true }, ready := p.ready ++ [id] }

/-- A record closed (08 R175): a stop at precedence 7 to 10 leaves it PENDING, any other end NOT_SCORED; it enters the
ready list of its press, which is on this module or takes the record from its header as it arrives (log entry 22). -/
def closeCurd (s : State) (n id tag reason idx : Nat) : State :=
  let h := s.curdHome n
  match s.findCurd n id tag with
  | none => s
  | some c =>
    let s1 := s.mapHead n h id fun b =>
      overwrite b 24 (leBytes 1 (if isStop reason then 0 else 2) ++ leBytes 1 reason ++ leBytes 1 idx)
    if c.modNo == s.ownModule then s1.readyCurd h id else s1.freeCurds h [id]

/-- Lines that another module writes into a press clearing's curd buffer: a record's header enters the record into the
directory when its writer reserves it, and puts it into the ready list when it comes closed (08 R175; DESIGN CHOICE, log
entry 22). -/
def adoptCurd (s : State) (n off : Nat) (data : List Byte) : State :=
  let b := data.take 64
  let p := s.press n
  let len := field b 40 4
  let l := headLens b
  let ok := match s.planOf n with
    | some pl => pl.role == 1 && pl.curdOffset ≤ off && off + len ≤ pl.curdOffset + pl.curdBytes
    | none => false
  let near := p.curds.filter fun c => off < c.2.place + c.2.bytes && c.2.place < off + len
  if ok && b.length == 64 && l.2.1 ≤ l.2.2 && len == recordBytes l.1 l.2.2 && allZero (b.drop 44) then
    let r := match near with
      | [] =>
        let e := s.enterCurd n {
          modNo := s.ownModule, home := n, place := off, reqTag := field b 0 8, writer := 64, bytes := len, closed := false }
        (some e.1, e.2)
      | (id, c) :: _ => (if c.place == off && c.bytes == len && c.reqTag == field b 0 8 then some id else none, s)
    match r.1 with
    | some id => if field b 25 1 == 0 then r.2 else r.2.readyCurd n id
    | none => s
  else s

/-! ### Endings (08 R170) -/

/-- The counters of an ending (08 R182). -/
def countEnd (s : State) (n reason : Nat) : State :=
  if reason == 0x10 then s.bumpLive (0x60C0 + n) 3 1
  else if isStop reason then s.bumpLive (0x60C0 + n) 4 1
  else s

/-- The CANCEL and PAUSE commands of a request that ended before the step start at which they would act (17 R374). -/
def tellEnded (s : State) (n : Nat) (q : Req) : State :=
  q.cmds.foldl (fun s c => s.postFull .reqEnded n c.1 .reqEnded c.2 []) s

/-- A request ends: its ring becomes ENDED and its record closes; a CANCEL or PAUSE that it overtakes is told so (17
R374). -/
def endRequest (s : State) (n : Nat) (q : Req) (curd : Option Nat) (reason idx : Nat) : State :=
  let s1 := match q.ring with
    | some id => s.endRing id reason idx
    | none => s
  let s2 := match curd with
    | some id => s1.closeCurd n id q.tag reason idx
    | none => s1
  let s3 := if reason == 5 || reason == 6 then s2 else s2.tellEnded n q
  s3.countEnd n reason

end State

end Sys2Proof.Machine
end

