-- ==== Sys2Proof/Machine/Images.lean ====
section
/-! DEFINITION. Paused conversations: their images in the cellar, and the pages that come back (08 R178 to R180). An
image lies in 2 MiB blocks of the clearing's tier-2 region: its tokens of 4 bytes, its block hashes of 16 bytes, and
from the next multiple of 4 KiB the slices of the moved pages (DESIGN CHOICE, log entry 22). -/

namespace Sys2Proof.Machine

/-- Whether a range of 2 MiB blocks is free of paused images. -/
def blocksFree (l : List Paused) (base n : Nat) : Bool := l.all fun p => base + n ≤ p.base || p.base + p.blocks ≤ base

/-- The lowest block at which an image of `n` blocks fits among others. -/
def imageBase (l : List Paused) (n : Nat) : Nat :=
  ((0 :: l.map fun p => p.base + p.blocks).foldl (fun (a : Option Nat) b =>
    if blocksFree l b n then
      match a with
      | none => some b
      | some x => some (min x b)
    else a) none).getD 0

/-- The groups an image's blocks lie in: block b of a tier-2 region is in group b mod 4 (11 R233). -/
def imageGroups (p : Paused) : List Nat := (List.range (min 4 p.blocks)).map fun i => (p.base + i) % 4

/-- Bytes of an image before its slices: tokens and hashes, up to a multiple of 4 KiB. -/
def imageHead (tokens hashes : Nat) : Nat := ceilDiv (4 * tokens + 16 * hashes) 4096 * 4096

namespace State

/-- The space a clearing's paused images hold (08 R178, 11 R241). -/
def pausedBytes (s : State) (n : Nat) : Nat := ((s.vat n).paused.map fun p => p.blocks * blockBytes).foldl (· + ·) 0

/-- Region offset of the slices of moved page number `i` of an image on this module. -/
def imageSlices (s : State) (n : Nat) (p : Paused) (i : Nat) : Nat :=
  p.base * blockBytes + imageHead p.tokens p.hashes + i * s.kvSlices n * s.sliceLen n

/-- A page's slices moved between the pool and an image, `out` towards the image, with their charge at both ends (11
R238). -/
def moveSlices (s : State) (n id : Nat) (p : Paused) (i : Nat) (out : Bool) : State :=
  (List.range (s.kvSlices n)).foldl (fun s k =>
    let a := s.sliceOff n id k 0
    let b := s.imageSlices n p i + k * s.sliceLen n
    if out then s.copyRegion n 1 a (s.sliceLen n) 2 b else s.copyRegion n 2 b (s.sliceLen n) 1 a) s

/-- Whether a position page is homed on this module (07 R143). -/
def ownPage (s : State) (n k : Nat) : Bool := s.homeOf n k == s.ownMember n

/-- The moved pages of an image that are homed here, with their number in the image. -/
def ownMoved (s : State) (n : Nat) (l : List (Nat × Nat)) : List (Nat × Nat) :=
  ((l.map (·.1)).filter (s.ownPage n)).zipIdx

/-- A pausing sequence at position 4 of the step start (08 R178): its sole-held pages move to the cellar and every
reference is dropped; an image that does not fit the quota moves nothing and posts PAUSE_REFUSED; one with blocks in a
FAILED group is lost at once (11 R246; DEDUCED, log entry 22). -/
def pauseSeq (s : State) (n : Nat) (x : Seqn) : State :=
  let sole := x.pages.filter fun p => (s.page n p.2).refs == 1
  let hashes := s.chainHashes n x.pages (x.pos / 256) 0 [] x.tokens
  let own := (sole.filter fun p => s.ownPage n p.1).length
  let bytes := imageHead x.tokens.length hashes.length + own * s.kvSlices n * s.sliceLen n
  let blocks := ceilDiv bytes blockBytes
  let v := s.vat n
  if s.frc (0x4040 + n) 4 < s.pausedBytes n + blocks * blockBytes then
    (s.dropPages n x.pages).post .pauseRefused n .ok x.req.tag
  else
    let ttl := if x.req.ttl == 0 then s.rd 0x4C10 2 else x.req.ttl
    let img : Paused := {
      tag := x.req.tag, tokens := x.tokens.length, hashes := hashes.length,
      moved := sole.map fun p => (p.1, (s.page n p.2).fill),
      versions := sole.map fun p => (s.page n p.2).version,
      base := imageBase v.paused blocks, blocks := blocks, expires := s.time + ttl * 1000000000, claimed := false }
    if (imageGroups img).any s.groupFailed then (s.dropPages n x.pages).post .pauseLost n .ok x.req.tag else
    let head := x.tokens.flatMap (leBytes 4) ++ hashes.flatten
    let s1 := s.writeRegion n 2 (img.base * blockBytes) head
    let s2 := (s.ownMoved n img.moved).foldl (fun s k =>
      match look x.pages k.1 with
      | some id => s.moveSlices n id img k.2 true
      | none => s) s1
    let s3 := s2.setVat n { s2.vat n with paused := (s2.vat n).paused ++ [img] }
    ((s3.dropPages n x.pages).wr 0x4C10 3 (s3.rd 0x4C10 3 + 1)).bumpLive (0x60C0 + n) 9 1

/-- A paused image freed. -/
def dropImage (s : State) (n tag : Nat) : State :=
  let v := s.vat n
  if v.paused.any fun p => p.tag == tag then
    (s.setVat n { v with paused := v.paused.filter fun q => q.tag != tag }).wr 0x4C10 3 (s.rd 0x4C10 3 - 1)
  else s

/-- The tokens an image holds (08 R178). -/
def imageTokens (s : State) (n : Nat) (p : Paused) : List Nat :=
  wordsAt (s.peek (regionAddr 2 n (p.base * blockBytes)) (4 * p.tokens)) 0 p.tokens

/-- The bytes of an image on this module: its tokens and hashes, and the pages it holds. -/
def imageLen (s : State) (n : Nat) (p : Paused) : Nat :=
  imageHead p.tokens p.hashes + (s.ownMoved n p.moved).length * s.kvSlices n * s.sliceLen n

/-- The lines of an image that cannot be read (11 R245, R246). -/
def imageBad (s : State) (n : Nat) (p : Paused) : Nat := (s.badRange n 2 (p.base * blockBytes) (s.imageLen n p)).length

/-- The pages of an image moved back into FREE pages of the pool with their token records (08 R179); none when the pool
lacks them. `toks` is the token list. -/
def restorePages (s : State) (n ver : Nat) (p : Paused) (toks : List Nat) (mixed : Bool) :
    List (Nat × Nat) → List Nat → Map Nat → Option (Map Nat × State)
  | [], _, acc => some (acc, s)
  | (k, fill) :: rest, vers, acc =>
    match s.allocPage n (s.homeOf n k) (vers.headD ver) with
    | none => none
    | some (id, s1) =>
      let s2 := match (s1.ownMoved n p.moved).find? fun q => q.1 == k with
        | some q => s1.moveSlices n id p q.2 false
        | none => s1
      let own := (toks.drop (256 * k)).take fill
      let s3 := (s2.putTokens n id 0 own).chargeRecord n id 0 own.length
      let s4 := s3.setPage n id { s3.page n id with fill := fill, full := fill == 256, mixed := mixed }
      s4.restorePages n ver p toks mixed rest vers.tail (ins acc k id)

end State

end Sys2Proof.Machine
end

