-- ==== Sys2Proof/Machine/Vat.lean ====
section
/-! DEFINITION. Vat and taster steps: requests, admission, buckets, stop detection and the page events of a step
(08; 07 R149 to R158, R161). -/

namespace Sys2Proof.Machine

/-- The longest bucket prefix: the bucket a position count lies in (08 R163). -/
def bucketOf : List Bucket → Nat → Nat → Nat
  | [], _, i => i - 1
  | b :: rest, pos, i => if pos < b.classes * 256 then i else bucketOf rest (pos - b.classes * 256) (i + 1)

/-- Positions present from `pos` on without computing: whole pages that a hit or a resume gave (08 R179). -/
def jumpKept (kept : List (Nat × Nat)) : Nat → Nat → Nat
  | 0, pos => pos
  | fuel + 1, pos =>
    if pos % 256 == 0 then
      match kept.find? fun p => p.1 == pos / 256 with
      | some p => if p.2 == 256 then jumpKept kept fuel (pos + 256) else pos + p.2
      | none => pos
    else pos

/-- The lowest stop token that a token matches (08 R169). -/
def stopToken (l : List Nat) (t : Nat) : Option Nat := l.findIdx? (· == t)

/-- The stop sequence at whose end the generated tokens stand: the lowest-numbered one (08 R169). -/
def stopSeq (seqs : List (List Nat)) (gen : List Nat) : Option Nat :=
  seqs.findIdx? fun q => !q.isEmpty && (gen.reverse.take q.length).reverse == q

namespace State

/-! ### Step start (08 R162, orders 1 to 6) -/

/-- The sequence of a waiting request that ends before admission. -/
def seqOfReq (q : Req) : Seqn :=
  { req := q, slot := 0, tokens := q.resumed ++ q.prompt, start := (q.resumed ++ q.prompt).length, pos := 0, pages := [],
    kept := [], bucket := 0, curd := none, active := false, chunk := 0, fault := [] }

/-- Whether this module judges the expiry of a clearing's paused images: in a spread group the member with index 0 does
(22 R472). -/
def judgesExpiry (s : State) (n : Nat) : Bool := s.frc (0x4140 + n) 7 ≤ 1 || s.frc (0x4140 + n) 8 == 0

/-- A waiting request's claim on an image returned: it ended before admission (log entry 22). -/
def unclaim (s : State) (n tag : Nat) : State :=
  let v := s.vat n
  s.setVat n { v with paused := v.paused.map fun p => if p.tag == tag then { p with claimed := false } else p }

/-- A request's deadline has passed (08 R162, order 1). -/
def lateAt (s : State) (q : Req) : Bool := q.deadline != 0 && q.deadline ≤ s.time

/-- What releases a request at a step start, if anything does (08 R162, order 2; R170). -/
def release? (q : Req) : Option Nat :=
  if q.cancel then some 5 else if q.invalid then some 7 else if q.pauseAsked then some 6 else none

/-- A sequence is a scoring of the taster. -/
def isScoring (x : Seqn) : Bool := x.req.slot == 0xFFFF

/-- The end of a scoring: REWARD and SCORED, or SCORE_FAILED (08 R176). The taster keeps nothing of a record on another
module. -/
def scoreEnd (s : State) (n : Nat) (x : Seqn) (ok : Bool) (reward : Nat) : State :=
  match x.curd with
  | none => s
  | some id => match s.findCurd n id x.req.tag with
    | none => s
    | some c =>
      let s1 := s.mapHead n (s.curdHome n) id fun b => if ok then withReward reward b else overwrite b 24 [3]
      if c.modNo == s.ownModule then s1 else s1.freeCurds (s.curdHome n) [id]

/-- A waiting request ended; one that is paused leaves its tokens for an image. -/
def endOne (s : State) (n : Nat) (q : Req) (code : Nat) : State :=
  let s1 := (s.endRequest n q none code 0xFF).unclaim n q.resumeTag
  if code == 6 then s1.setVat n { s1.vat n with toPause := (s1.vat n).toPause ++ [seqOfReq q] } else s1

/-- A sequence ended at a step start: its references drop, or its pages move, at position 4 of 07 R149. -/
def endSeq (s : State) (n : Nat) (x : Seqn) (code : Nat) : State :=
  let s1 := if isScoring x then s.scoreEnd n x false 0 else s.endRequest n x.req x.curd code 0xFF
  let v := s1.vat n
  s1.setVat n (if code == 6 then { v with toPause := v.toPause ++ [x] } else { v with toDrop := v.toDrop ++ [x] })

/-- Order 1 of 08 R162: waiting requests and held sequences whose deadline has passed end. -/
def endLate (s : State) (n : Nat) : State :=
  let v := s.vat n
  let gone (x : Seqn) : Bool := x.held && s.lateAt x.req
  let s1 := s.setVat n { v with waiting := v.waiting.filter fun q => !s.lateAt q, seqs := v.seqs.filter fun x => !gone x }
  let s2 := (v.waiting.filter s.lateAt).foldl (fun s q => s.endOne n q 0x10) s1
  (v.seqs.filter gone).foldl (fun s x => s.endSeq n x 0x10) s2

/-- Order 2 of 08 R162: cancellations, pauses, and requests whose CONSUMED was written beyond PRODUCED (R173). -/
def endReleased (s : State) (n : Nat) : State :=
  let v := s.vat n
  let s1 := s.setVat n { v with
    waiting := v.waiting.filter fun q => (release? q).isNone, seqs := v.seqs.filter fun x => (release? x.req).isNone }
  let s2 := (v.waiting.filter fun q => (release? q).isSome).foldl (fun s q => s.endOne n q ((release? q).getD 0)) s1
  (v.seqs.filter fun x => (release? x.req).isSome).foldl (fun s x => s.endSeq n x ((release? x.req).getD 0)) s2

/-- Logical index of a token-sampling draw: the same whatever slot, bucket or module serves the sequence (08 R177). -/
def sampleIndex (tag pos : Nat) : Nat := tag % pow2 28 * pow2 24 + pos

/-- The draw a sequence's sampling makes for its next position, on a stream of the plan's in 380h to 3FFh (08 R177, 05
R99). -/
def sampleDraw (s : State) (n g stream : Nat) (x : Seqn) : Nat := s.draw n g stream (sampleIndex x.req.tag x.tokens.length)

/-- Staleness at a step start (08 R166). -/
def staleness (s : State) (n : Nat) : Nat := (s.rd (0x6040 + n) 5 + 256 - s.stepVer n) % 256

/-- The lowest free sequence slot (log entry 22). -/
def freeSeqSlot (l : List Seqn) : Nat := (l.foldl (fun a x => if x.slot == a then a + 1 else a) 0)

/-- A sequence put in its place by slot. -/
def putSeq (l : List Seqn) (x : Seqn) : List Seqn := (l.filter fun y => y.slot < x.slot) ++ [x]
  ++ l.filter fun y => x.slot < y.slot

/-- A sequence replaced. -/
def setSeq (s : State) (n : Nat) (x : Seqn) : State :=
  s.setVat n { s.vat n with seqs := (s.vat n).seqs.map fun y => if y.slot == x.slot then x else y }

/-- The positions a sequence would append in a step (08 R162): a prefill chunk up to the next page a resume kept and to
MAX_POS, or a decoding position. -/
def dueLen (p : PlanClearing) (x : Seqn) : Nat :=
  if x.pos < x.start then
    let m := min (min (min p.chunk 256) (x.start - x.pos)) (p.maxPos - x.pos)
    x.kept.foldl (fun a k => if x.pos < k.1 * 256 then min a (k.1 * 256 - x.pos) else a) m
  else min 1 (x.tokens.length - x.pos)

/-- The position pages a sequence needs beside those it has to append its due positions. -/
def needPages (p : PlanClearing) (x : Seqn) : List Nat :=
  let m := dueLen p x
  if m == 0 then []
  else ((List.range ((x.pos + m - 1) / 256 - x.pos / 256 + 1)).map (· + x.pos / 256)).filter
    fun k => (look x.pages k).isNone

/-- Whether every home has the FREE pages a list of position pages asks for. -/
def canAlloc (s : State) (n : Nat) (ks : List Nat) : Bool :=
  ks.all fun k =>
    let m := s.homeOf n k
    (ks.filter fun j => s.homeOf n j == m).length ≤ s.poolFreePages n m

/-- The image that a request resumes (08 R179). -/
def imageOf (s : State) (n : Nat) (q : Req) : Option Paused :=
  if q.resumeTag == 0 then none else (s.vat n).paused.find? fun i => i.tag == q.resumeTag

/-- The parent that a request is forked from, by the forks of the step start: a sequence whose positions so far are the
first ones of the request's own tokens (07 R149; DESIGN CHOICE, log entry 22). -/
def forkParent (s : State) (n : Nat) (q : Req) (forks : List (Nat × Nat)) : Option Seqn :=
  let toks := q.resumed ++ q.prompt
  match forks.find? fun f => f.1 == q.tag with
  | none => none
  | some f => (s.vat n).seqs.find? fun x =>
      x.slot == f.2 && 0 < x.pos && x.pos < toks.length && x.tokens.take x.pos == toks.take x.pos && !isScoring x

/-- The state with a request made a sequence; none where the pool cannot take back the pages of its image (08 R165, R179; 07
R153). Hits and misses count where the block's pages are homed. -/
def makeSeq (s : State) (n : Nat) (q : Req) : Option (State × Seqn) :=
  let ver := s.stepVer n
  let img := s.imageOf n q
  let toks := q.resumed ++ q.prompt
  let moved := (img.map (·.moved)).getD []
  let back := match img with
    | some i => (s.chargeRange n 2 (i.base * blockBytes) (imageHead i.tokens i.hashes)).restorePages n ver i toks
        (i.versions.any (· != ver)) i.moved i.versions []
    | none => some ([], s)
  back.map fun b =>
    let hits := s.prefixHits n ver (moved.map (·.1)) (toks.length / 256) 0 [] toks
    let miss : Nat := match hits.2 with
      | some k => if s.ownPage n k.1 then 1 else 0
      | none => 0
    let clash : Nat := match hits.2 with
      | some k => if k.2 then miss else 0
      | none => 0
    let s1 := ((b.2.bump (0x4140 + n) 0x10 (hits.1.filter fun h => s.ownPage n h.1).length).bump (0x4140 + n) 0x11 miss).bump
      (0x4140 + n) 0x12 clash
    let s2 := match img with
      | some _ => (s1.dropImage n q.resumeTag).bumpLive (0x60C0 + n) 0xA 1
      | none => s1
    let v := s2.vat n
    let kept := hits.1.map (fun h => (h.1, 256)) ++ moved
    (s2.setVat n { v with looked := v.looked + hits.1.length + (if hits.2.isSome then 1 else 0) }, { seqOfReq q with
      slot := freeSeqSlot v.seqs, tokens := toks, start := toks.length,
      pos := jumpKept kept (toks.length / 256 + 1) 0, kept := kept,
      pages := hits.1.foldl (fun m h => ins m h.1 h.2) b.1 })

/-- A sequence slot and the first bucket have room for one more (08 R165). -/
def slotRoom (s : State) (n : Nat) (p : PlanClearing) : Bool :=
  let v := s.vat n
  let cap := match p.buckets with
    | b :: _ => b.cap
    | [] => 0
  v.seqs.length < p.kvSlots && (v.seqs.filter fun x => x.bucket == 0).length < cap

/-- A request whose image cannot be read ends LOST, which counts its lines, and the image stays; what was read is
charged (08 R179, 11 R238, R245). -/
def loseResume (s : State) (n : Nat) (q : Req) (lines : Nat) : State :=
  let s1 := match s.imageOf n q with
    | some p => s.chargeRange n 2 (p.base * blockBytes) (s.imageLen n p)
    | none => s
  ((s1.bump (0x4040 + n) 0xB lines).endRequest n q none 0x14 0xFF).unclaim n q.resumeTag

/-- A request made a sequence: a fork with its parent's pages and positions, any other by its prefix hits or its image. -/
def makeAny (s : State) (n : Nat) (q : Req) (forks : List (Nat × Nat)) : Option (State × Seqn) :=
  match (if q.resumeTag == 0 then s.forkParent n q forks else none) with
  | some x => some (s, { seqOfReq q with slot := freeSeqSlot (s.vat n).seqs, pages := x.pages, pos := x.pos })
  | none => s.makeSeq n q

/-- Admission from the head of the acceptance order (08 R165); `given` lists the position pages promised to requests
admitted before in this step, and the answer the slots admitted. -/
def admitLoop (s : State) (n : Nat) (p : PlanClearing) (io : StepIn) : Nat → List Nat → List Nat → State × List Nat
  | 0, _, done => (s, done)
  | fuel + 1, given, done =>
    match (s.vat n).waiting with
    | [] => (s, done)
    | q :: rest =>
      let bad := match s.imageOf n q with
        | some i => s.imageBad n i
        | none => 0
      if !s.slotRoom n p then (s, done)
      else if q.toCurd && !s.curdRoom n q.tag (recordBytes (q.resumed ++ q.prompt).length q.maxNew) io.places then
        (s.bumpLive (0x60C0 + n) 8 1, done)
      else if bad != 0 then
        ((s.setVat n { s.vat n with waiting := rest }).loseResume n q bad).admitLoop n p io fuel given done
      else match s.makeAny n q io.forks with
        | none => (s, done)
        | some (s1, x) =>
          let need := needPages p x
          if !s1.canAlloc n (need ++ given) then (s, done)
          else
            let c := if q.toCurd then
              let r := s1.reserveCurd n q x.tokens io.places
              (some r.1, r.2)
            else (none, s1)
            let v1 := c.2.vat n
            let s2 := c.2.setVat n { v1 with waiting := rest, seqs := putSeq v1.seqs { x with curd := c.1 } }
            s2.admitLoop n p io fuel (need ++ given) (done ++ [x.slot])

/-- The request a taster scores a record by: the prompt and the generated tokens, none to generate (08 R176). -/
def scoringReq (tag : Nat) (toks : List Nat) : Req := {
  tag := tag, slot := 0xFFFF, hostTag := 0, prompt := toks, maxNew := 0, deadline := 0,
  resumeTag := 0, ttl := 0, pauseAtEnd := false, toRing := false, toCurd := false, stopTokens := [], stopSeqs := [],
  ringEntries := 0, notify := 0, ring := none, hashes := [], resumed := [], cancel := false, pauseAsked := false,
  invalid := false }

/-- A record that a taster may score: its number in the directory here, or the record as it is read from another module. -/
structure ToScore where
  id : Option Nat
  curd : Curd
  toks : List Nat

/-- PENDING records made sequences in order, until one is not admitted (08 R165, R176). -/
def scoreLoop (s : State) (n : Nat) (p : PlanClearing) : List ToScore → List Nat → List Nat → State × List Nat
  | [], _, done => (s, done)
  | r :: rest, given, done =>
    if !s.slotRoom n p then (s, done)
    else match s.makeSeq n (scoringReq r.curd.reqTag r.toks) with
      | none => (s, done)
      | some (s1, x) =>
        let need := needPages p x
        if !s1.canAlloc n (need ++ given) then (s, done)
        else
          let c := match r.id with
            | some id => (id, s1)
            | none => s1.enterCurd n r.curd
          let v1 := c.2.vat n
          (c.2.setVat n { v1 with seqs := putSeq v1.seqs { x with curd := some c.1 } }).scoreLoop n p rest (need ++ given)
            (done ++ [x.slot])

/-- A record read from a curd buffer on another module, at a place of it. -/
def farRecord (p : PlanClearing) (r : Nat × List Byte) : ToScore :=
  let h := slice r.2 0 64
  let l := headLens h
  { id := none, toks := wordsAt r.2 64 (l.1 + l.2.1),
    curd := { modNo := p.curdModule, home := p.curdClearing, place := r.1, reqTag := field h 0 8, writer := 64,
              bytes := field h 40 4, closed := true, head := h } }

/-- The PENDING records of the ready list that no scoring has taken: of a taster's press here, or as the module of the curd
buffer gives them, `far` (08 R176; log entry 22). -/
def toScore (s : State) (n : Nat) (p : PlanClearing) (far : List (Nat × List Byte)) : List ToScore :=
  if p.curdModule != s.ownModule then
    (far.map (farRecord p)).filter fun r => headReward r.curd.head == 0 && field r.curd.head 25 1 != 0
      && (s.press n).curds.all fun c => c.2.place != r.curd.place
  else if !s.sameJob n p.curdClearing then []
  else
    let pr := s.press p.curdClearing
    let taken := (s.vat n).seqs.filterMap (·.curd)
    (pr.ready.filter fun id => !taken.contains id).filterMap fun id => match look pr.curds id with
      | some c => if headReward (s.headOf c) == 0 then some { id := some id, curd := c, toks := s.curdTokens c } else none
      | none => none

/-- The taster takes PENDING records (08 R176). -/
def tasterTake (s : State) (n : Nat) (p : PlanClearing) (far : List (Nat × List Byte)) : State × List Nat :=
  s.scoreLoop n p (s.toScore n p far) [] []

/-- Which sequences take part in the step: bucket room, ring room and the step's prefill total (08 R162 to R164,
R173); the page events may hold some of them still. -/
def assignStep (s : State) (n : Nat) (p : PlanClearing) : State :=
  ((s.vat n).seqs.foldl (fun (a : State × Nat) x =>
    let b := bucketOf p.buckets x.pos 0
    let room := x.bucket == b || ((a.1.vat n).seqs.filter fun y => y.bucket == b).length
      < (match p.buckets[b]? with
        | some k => k.cap
        | none => 0)
    let prefill := x.pos < x.start
    if !room then ((a.1.bumpLive (0x60C0 + n) 6 1).setSeq n { x with active := false, chunk := 0, held := true }, a.2)
    else
      let x1 := { x with bucket := b }
      if a.1.ringFull x.req then
        ((a.1.bumpLive (0x60C0 + n) 7 1).setSeq n { x1 with active := false, chunk := 0, held := true }, a.2)
      else if prefill && p.prefillTotal < a.2 + p.chunk then
        (a.1.setSeq n { x1 with active := false, chunk := 0, held := true }, a.2)
      else (a.1.setSeq n { x1 with active := true, chunk := dueLen p x1, appended := [], held := false },
        if prefill then a.2 + p.chunk else a.2)) (s, 0)).1

/-- Position 1 of R149: the sequences admitted in the step take references to their prefix hits, a fork to every page of its
parent. -/
def takeRefs (s : State) (n : Nat) (slots : List Nat) (forks : List (Nat × Nat)) : State :=
  ((s.vat n).seqs.filter fun x => slots.contains x.slot).foldl (fun s x =>
    if x.kept.isEmpty && forks.any fun f => f.1 == x.req.tag then
      x.pages.foldl (fun s p => s.setPage n p.2 (s.page n p.2).addRef) s
    else x.kept.foldl (fun s k =>
      match look x.pages k.1 with
      | some id =>
        let r := s.page n id
        if r.indexed then s.setPage n id { r.addRef with lastMatch := s.stepNumber n % pow2 32 } else s
      | none => s) s) s

/-- Position 2 of R149: every sequence of the step pins every page in its list. -/
def takePins (s : State) (n : Nat) : State :=
  ((s.vat n).seqs.filter (·.active)).foldl (fun s x =>
    x.pages.foldl (fun s p => s.setPage n p.2 { s.page n p.2 with pins := (s.page n p.2).pins + 1 }) s) s

/-- A page allocated to a sequence and pinned. -/
def givePage (s : State) (n k : Nat) (x : Seqn) : State × Seqn :=
  match s.allocPage n (s.homeOf n k) (s.vat n).ver with
  | none => (s, x)
  | some (id, s1) => (s1.setPage n id { s1.page n id with pins := 1 }, { x with pages := ins x.pages k id })

/-- Position 3 of R149 for one sequence: its shared tail copied, further pages allocated; held when a FREE page lacks
(07 R151). -/
def appendPages (s : State) (n : Nat) (p : PlanClearing) (x : Seqn) : State :=
  let need := needPages p x
  let tail := x.pos / 256
  let shared := match look x.pages tail with
    | some id => x.chunk != 0 && !(s.page n id).full && 1 < (s.page n id).refs
    | none => false
  if !s.canAlloc n (if shared then tail :: need else need) then
    (s.bump (0x4140 + n) 0x15 1).setSeq n { x with active := false, chunk := 0, held := true }
  else
    let a : State × Seqn :=
      if shared then
        match look x.pages tail, s.allocPage n (s.homeOf n tail) (s.vat n).ver with
        | some old, some (id, s1) =>
          let r := s1.page n old
          let s2 := (s1.copyPage n old id).setPage n id { r with st := 1, refs := 1, pins := 1, indexed := false, hash := [] }
          let s3 := (s2.dropPage n old).bump (0x4140 + n) 0x13 1
          (s3, { x with pages := ins x.pages tail id })
        | _, _ => (s, x)
      else (s, x)
    let b := need.foldl (fun (a : State × Seqn) k => a.1.givePage n k a.2) a
    b.1.setSeq n b.2

/-- Position 3 of R149, in ascending slot; when every appending sequence is held, the one with the highest slot that
holds any page is to end with KV_EVICTED (07 R151). -/
def appendAll (s : State) (n : Nat) (p : PlanClearing) : State :=
  let due := (s.vat n).seqs.filter fun x => x.active && x.chunk != 0
  let s1 := due.foldl (fun s x => s.appendPages n p x) s
  let heldAll := due.all fun x => (s1.vat n).seqs.all fun y => y.slot != x.slot || !y.active
  if !due.isEmpty && heldAll then
    match (due.filter fun x => !x.pages.isEmpty).getLast? with
    | none => s1
    | some x => (match (s1.vat n).seqs.find? fun y => y.slot == x.slot with
      | some y => s1.setSeq n { y with fault := y.fault ++ [0x12] }
      | none => s1)
  else s1

/-- Position 4 of R149, in ascending slot: released sequences drop their references, paused ones move to the cellar. -/
def dropReleased (s : State) (n : Nat) : State :=
  let v := s.vat n
  let all := (v.toDrop.map fun x => (x, false)) ++ v.toPause.map fun x => (x, true)
  let s1 := (List.range 4096).foldl (fun s k =>
    if all.all fun p => p.1.slot != k then s
    else (all.filter fun p => p.1.slot == k).foldl (fun s p =>
      if p.2 then s.pauseSeq n p.1 else s.dropPages n p.1.pages) s) s
  (s1.setVat n { s1.vat n with toDrop := [], toPause := [] }).retirePages n

/-- The grove whose warden keeps a clearing's pool: the lowest-numbered one where it holds cells (07). -/
def keeperGrove (s : State) (n : Nat) : Nat := (s.grovesOf n).headD 0

/-- Beats of the keeper's work at a step boundary charged to the clearing: the bound of 07 R161 (DESIGN CHOICE, log entry
22). -/
def chargeKeeper (s : State) (n beats : Nat) : State := s.bumpLive (0x6001 + s.keeperGrove n) n beats

/-- The pins of the step: one for every page of every sequence's list, held ones' too (07 R149, R151). -/
def pinCount (s : State) (n : Nat) : Nat := ((s.vat n).pages.map (·.2.pins)).foldl (· + ·) 0

/-- The sequences whose page lists differ between two lists of sequences. -/
def listsChanged (a b : List Seqn) : Nat :=
  (a.filter fun x => !(b.any fun y => y.slot == x.slot && y.pages == x.pages)).length
    + (b.filter fun y => a.all fun x => x.slot != y.slot).length

/-- The admissions of a step start: of waiting requests, and at a taster of records (08 R162 order 4, R166, R176; 10
R220). -/
def admitAll (s : State) (n : Nat) (p : PlanClearing) (io : StepIn) : State × List Nat :=
  let stale := p.maxStale < s.staleness n
  let drain := (s.clr n).turn.draining
  let s1 := if stale then s.bumpLive (0x60C0 + n) 5 1 else s
  let s2 := if drain then s1.bumpLive (0x6040 + n) 0xD 1 else s1
  if stale || drain then (s2, [])
  else
    let a := s2.admitLoop n p io ((s2.vat n).waiting.length) [] []
    let t := if p.role == 3 then a.1.tasterTake n p io.records else (a.1, [])
    (t.1, a.2 ++ t.2)

/-- A vat or taster step starts (08 R162, orders 1 to 6). -/
def vatStart (s : State) (n : Nat) (p : PlanClearing) (io : StepIn) : State :=
  let c := s.clr n
  let s0 := s.setClr n { c with
    inStep := true, stepNo := c.stepNo + 1, stepAt := s.time, vat := { c.vat with ver := s.stepVer n, looked := 0 },
    turn := { c.turn with reads := [] } }
  let s1 := (s0.endLate n).endReleased n
  let a := s1.admitAll n p io
  let s2 := (a.1.assignStep n p).takeRefs n a.2 io.forks
  let s3 := ((s2.takePins n).appendAll n p).dropReleased n
  s3.chargeKeeper n (400 + 2 * s3.pinCount n + 24 * (s3.vat n).looked + 32 * listsChanged c.vat.seqs (s3.vat n).seqs)

/-! ### Step end (08 R162, orders 8 to 11) -/

/-- The fault a sequence ends with at a step end, if any: the first in precedence (08 R170, R171). -/
def endFault (s : State) (x : Seqn) (faults : List SeqFault) : Option Nat :=
  let mine := x.fault ++ (faults.filter fun f => f.slot == x.slot).map (·.code)
  let late := x.active && x.req.deadline != 0 && x.req.deadline ≤ s.time
  if late then some 0x10 else [0x11, 0x12, 0x13, 0x14, 0x15].find? fun c => mine.contains c

/-- The positions of page `k` that a step's positions reach: the end of the overlap, 0 where there is none. -/
def stepFill (x : Seqn) (k : Nat) : Nat :=
  if x.chunk != 0 && x.pos < 256 * k + 256 && 256 * k < x.pos + x.chunk then min 256 (x.pos + x.chunk - 256 * k) else 0

/-- The fill of a sequence's pages after its step's positions, with their token records (07 R134, R146, R148); the
answer also lists the pages that became FULL. -/
def fillPages (s : State) (n : Nat) (x : Seqn) : State × List (Nat × Nat) :=
  let ver := (s.vat n).ver
  x.pages.foldl (fun a p =>
    let k := stepFill x p.1
    if k == 0 then a
    else
      let lo := 256 * p.1
      let from_ := max x.pos lo - lo
      let s1 := a.1.putTokens n p.2 from_ ((x.tokens.drop (lo + from_)).take (k - from_))
      let r := s1.page n p.2
      let r1 := { r with
        fill := max r.fill k, full := r.fill == 256 || k == 256,
        version := if r.fill == 0 then ver else r.version,
        mixed := r.mixed || (r.fill != 0 && r.version != ver) }
      (s1.setPage n p.2 r1, if r1.full && !r.full then a.2 ++ [(p.2, p.1)] else a.2)) (s, [])

/-- The stop a sequence meets with its new token, and its stop index (08 R169, R170). -/
def stopOf (p : PlanClearing) (x : Seqn) : Nat × Nat :=
  let gen := x.tokens.drop x.start
  match stopToken x.req.stopTokens (gen.getLastD 0) with
  | some i => (1, i)
  | none => (match stopSeq x.req.stopSeqs gen with
    | some i => (2, i)
    | none =>
      if x.req.maxNew ≤ gen.length then (3, 0xFF)
      else if p.maxPos ≤ x.tokens.length then (4, 0xFF)
      else (0, 0xFF))

/-- What a step end leaves to its page events: sequences ended, and pages that became FULL. -/
structure StepEnds where
  s : State
  ended : List Seqn
  full : List (Nat × Nat × Nat)

/-- A sequence taken out of its slot. -/
def dropSeq (s : State) (n : Nat) (x : Seqn) : State :=
  s.setVat n { s.vat n with seqs := (s.vat n).seqs.filter fun y => y.slot != x.slot }

/-- A sequence that ends with a fault; a page that it filled in the step became FULL all the same (07 R150, R155). -/
def seqFault (n : Nat) (a : StepEnds) (x : Seqn) (code : Nat) : StepEnds :=
  let s1 := if isScoring x then a.s.scoreEnd n x false 0 else a.s.endRequest n x.req x.curd code 0xFF
  let f := if x.active then s1.fillPages n x else (s1, [])
  { s := f.1.dropSeq n x, ended := a.ended ++ [x], full := a.full ++ f.2.map fun q => (q.1, q.2, x.slot) }

/-- A sequence whose step stops it after its token, if it has one (08 R169, R170, R178). -/
def seqStop (n : Nat) (s : State) (x : Seqn) (stop : Nat × Nat) (a : StepEnds) : StepEnds :=
  let s1 := (s.endRequest n x.req x.curd stop.1 stop.2).dropSeq n x
  if x.req.pauseAtEnd then { a with s := s1.setVat n { s1.vat n with toPause := (s1.vat n).toPause ++ [x] } }
  else { a with s := s1, ended := a.ended ++ [x] }

/-- A sequence's new token written out (08 R172, R174, R182). -/
def putToken (s : State) (n : Nat) (x : Seqn) (tok lp : Nat) (last : Bool) : State :=
  let ver := (s.vat n).ver
  let s1 := s.bumpLive (0x60C0 + n) 2 1
  let s2 := match x.req.ring with
    | some id => s1.putRing id tok lp x.tokens.length ver last
    | none => s1
  match x.curd with
  | some id => s2.putCurd n id x.req.tag tok lp ver
  | none => s2

/-- The token and log-probability of a sequence's step: what sampling gave, or free values (log entry 16). -/
def tokenFor (s : State) (toks : List TokenOut) (slot : Nat) : Nat × Nat × State :=
  match toks.find? fun t => t.slot == slot with
  | some t => (t.token, t.logprob, s)
  | none => (s.fresh.1 % pow2 32, s.fresh.1 / pow2 32 % pow2 32, s.fresh.2)

/-- The end of the step of a sequence that took part in it without a fault (08 R162, orders 9 and 10). A sequence that
reaches MAX_POS within its prefill ends without a token. -/
def seqDone (n : Nat) (p : PlanClearing) (toks : List TokenOut) (a : StepEnds) (x : Seqn) : StepEnds :=
  let f := a.s.fillPages n x
  let pos := jumpKept x.kept (x.start / 256 + 1) (x.pos + x.chunk)
  let b := { a with s := f.1, full := a.full ++ f.2.map fun q => (q.1, q.2, x.slot) }
  let x0 := { x with pos := pos, active := false, chunk := 0, req := { x.req with resumeTag := 0 } }
  if !isScoring x && p.maxPos ≤ pos then seqStop n b.s x0 (4, 0xFF) b
  else if pos < x.start then { b with s := b.s.setSeq n x0 }
  else
    let tok := b.s.tokenFor toks x.slot
    if isScoring x then
      { b with s := (tok.2.2.scoreEnd n x true tok.2.1).dropSeq n x, ended := b.ended ++ [x] }
    else
      let x1 := { x0 with tokens := x.tokens ++ [tok.1] }
      let stop := stopOf p x1
      let s1 := tok.2.2.putToken n x tok.1 tok.2.1 (stop.1 != 0)
      if stop.1 == 0 then { b with s := s1.setSeq n x1 } else seqStop n s1 x1 stop b

/-- One sequence's step end (08 R162, orders 8 to 10). -/
def seqEnd (n : Nat) (p : PlanClearing) (toks : List TokenOut) (faults : List SeqFault) (a : StepEnds) (x : Seqn) :
    StepEnds :=
  match a.s.endFault x faults with
  | some code => seqFault n a x code
  | none => if x.active then seqDone n p toks a x else { a with s := a.s.setSeq n { x with chunk := 0 } }

/-- The pages that became FULL, in ascending page number, inserted into the index with their blocks' hashes (07 R150,
position 1; R155); the answer also counts the insertions. -/
def insertAll (s : State) (n : Nat) (full : List (Nat × Nat × Nat)) (seqs : List Seqn) : State × Nat :=
  let m : Map (Nat × Nat) := full.foldl (fun m f => ins m f.1 f.2) []
  m.foldl (fun a f =>
    match seqs.find? fun x => x.slot == f.2.2 with
    | none => a
    | some x =>
      let h := (a.1.chainHashes n x.pages (f.2.1 + 1) 0 [] x.tokens).getLastD []
      let s1 := a.1.insertPage n f.1 h ((x.tokens.drop (256 * f.2.1)).take 256)
      (s1, if (s1.page n f.1).indexed then a.2 + 1 else a.2)) (s, 0)

/-- The index lets a page go, if it holds it. -/
def unindex (s : State) (n id : Nat) : State :=
  let r := s.page n id
  if r.indexed then s.setPage n id { r.dropRef with indexed := false } else s

/-- A page whose read failed its memory code: every sequence that holds it ends, and the index lets it go (07 R158). -/
def losePage (s : State) (n id : Nat) : State :=
  let v := s.vat n
  let seqs := v.seqs.map fun x =>
    if x.pages.any fun p => p.2 == id then { x with fault := x.fault ++ [0x11] } else x
  (s.setVat n { v with seqs := seqs }).unindex n id

/-- Positions 2 to 6 of 07 R150: the ended sequences' references drop, what none refers to is freed, and index
references are dropped in every member's pool (R145, R156). -/
def freeAtEnd (s : State) (n : Nat) (ended : List Seqn) : State :=
  let s1 := (ended.foldl (fun s x => s.dropPages n x.pages) s).retirePages n
  let s2 := (s1.mapPages n fun r => { r with pins := 0 }).freePages n
  let members := if s2.byPosition n then s2.frc (0x4140 + n) 7 else 1
  (List.range (max 1 members)).foldl (fun s m => s.evictPages n m ((s.vat n).pages.length)) s2

/-- READY weight reads of a clearing return to LOADED where the front has not replaced their unit and no step on the
previous version is in flight: they belong to a step on the new version (10 R218). -/
def holdReaders (s : State) (n : Nat) : State :=
  let t := (s.clr n).turn
  let early (d : TileDesc) : Bool := d.clearing == n && d.kind == 0xA3 && match look t.units (bitsOf d.args 63 54) with
    | some x => !x.replaced
    | none => true
  let hold (x : TileSlot) : TileSlot :=
    if x.st == .ready && early x.desc then { x with st := .loaded, barred := some s.time } else x
  if !t.frontStarted || t.oldStep then s
  else { s with cells := s.cells.map fun p => (p.1, { p.2 with
    slots := p.2.slots.map hold, parked := p.2.parked.map fun q => { q with slots := q.slots.map hold } }) }

/-- A vat or taster step ends (08 R162, orders 8 to 11; 07 R150). -/
def vatEnd (s : State) (n : Nat) (p : PlanClearing) (toks : List TokenOut) (faults : List SeqFault) : State :=
  let lost := (faults.filter fun f => f.code == 0x11 && f.byCode).map (·.page)
  let s0 := lost.foldl (fun s id => s.losePage n id) s
  let seqs := (s0.vat n).seqs
  let e := seqs.foldl (seqEnd n p toks faults) { s := s0, ended := [], full := [] }
  let i := e.s.insertAll n e.full seqs
  let s1 := (lost.foldl (fun s id => s.unindex n id) i.1).chargeKeeper n (200 + 2 * s.pinCount n + 32 * i.2)
  let s2 := ((s1.freeAtEnd n e.ended).publishPool n).bumpLive (0x60C0 + n) 1 1
  let c := s2.clr n
  let s3 := (s2.setClr n { c with
    inStep := false, due := true, idleSince := s.time, turn := { c.turn with oldStep := false } }).holdReaders n
  s3.publish (((List.range 10).map fun i => (0x60C0 + n, i + 1)) ++ (List.range 6).map fun i => (0x6040 + n, i + 8))

/-- Every open request and sequence of a clearing ends CANCELLED, before any CANCEL or PAUSE asked of it acts, and its
pages are dropped (12 R260, 17 R374). -/
def cancelAll (s : State) (n : Nat) : State :=
  let v := s.vat n
  let s1 := v.waiting.foldl (fun s q => ((s.endRequest n q none 5 0xFF).tellEnded n q).unclaim n q.resumeTag) s
  let s2 := v.seqs.foldl (fun s x =>
    let s3 := if isScoring x then s.scoreEnd n x false 0 else if x.req.slot == 0xFFFE then s
      else (s.endRequest n x.req x.curd 5 0xFF).tellEnded n x.req
    s3.dropPages n x.pages) s1
  let s4 := (v.toDrop ++ v.toPause).foldl (fun s x => s.dropPages n x.pages) s2
  let s5 := s4.setVat n { s4.vat n with waiting := [], seqs := [], toDrop := [], toPause := [] }
  ((s5.retirePages n).mapPages n fun r => { r with pins := 0 }).freePages n

/-! ### Requests: acceptance (08 R167, R168) -/

/-- Every REQ_TAG open in the job of a clearing on this module. -/
def openTags (s : State) (n : Nat) : List Nat :=
  (s.present.filter fun m => s.sameJob n m).flatMap fun m =>
    (s.vat m).waiting.map (·.tag) ++ ((s.vat m).seqs.filter fun x => x.req.slot < 64).map (·.req.tag)

/-- A record sets a reserved field (08 R167, 00 R9). -/
def requestReserved (b : List Byte) : Bool :=
  8 ≤ field b 36 2 || field b 44 4 != 0 || field b 56 8 != 0
    || !allZero ((slice b 48 8).drop (field b 39 1))
    || !allZero ((slice b 64 256).drop (4 * field b 38 1))
    || (List.range 8).any (fun k =>
      let len := if k < field b 39 1 then field b (48 + k) 1 else 0
      !allZero ((slice b (320 + 64 * k) 64).drop (4 * len)))

/-- A record breaks a range of 08 R167 or R168. -/
def requestBad (s : State) (n : Nat) (p : PlanClearing) (b : List Byte) : Bool :=
  let pl := field b 8 4
  let mn := field b 12 4
  let ttl := field b 32 4
  let fl := field b 36 2
  let ns := field b 39 1
  let re := field b 40 2
  let rn := field b 42 2
  let ring := fl.testBit 1
  field b 0 8 == 0 || pl == 0 || p.maxPos ≤ pl || mn == 0 || p.maxPos < pl + mn || 86400 < ttl || 64 < field b 38 1
    || 8 < ns || b.length != 832 + 4 * pl || (!ring && !fl.testBit 2)
    || (if ring then !(16 ≤ re && re ≤ 4096 && pow2 (Nat.log2 re) == re && 1 ≤ rn && rn ≤ re) else re != 0)
    || ((List.range ns).any fun k => field b (48 + k) 1 == 0 || 16 < field b (48 + k) 1)
    || (s.openTags n).contains (field b 0 8)

/-- The request of a record. -/
def parseReq (b : List Byte) (slot hostTag : Nat) : Req :=
  let fl := field b 36 2
  { tag := field b 0 8, slot := slot, hostTag := hostTag, prompt := wordsAt b 832 (field b 8 4), maxNew := field b 12 4,
    deadline := field b 16 8, resumeTag := field b 24 8, ttl := field b 32 4, pauseAtEnd := fl.testBit 0,
    toRing := fl.testBit 1, toCurd := fl.testBit 2, stopTokens := wordsAt b 64 (field b 38 1),
    stopSeqs := (List.range (field b 39 1)).map fun k => wordsAt b (320 + 64 * k) (field b (48 + k) 1),
    ringEntries := field b 40 2, notify := field b 42 2, ring := none, hashes := [], resumed := [], cancel := false,
    pauseAsked := false, invalid := false }

/-- Whether a request with a deadline can meet it (12 R271). -/
def deadlineFits (s : State) (n : Nat) (p : PlanClearing) (q : Req) : Bool :=
  let steps := ceilDiv q.prompt.length (max 1 p.chunk) + q.maxNew - 1
  q.deadline == 0 || (!s.claimable n && s.time + (steps + 1) * s.rd 0x6027 n ≤ q.deadline)

/-- A vat request checked (08 R168, R179, R180; 12 R271; 17 R369): the accepted state and the ring's offset, or the
status that refuses it. A resume is judged by the time at which the sweep read the slot. -/
def acceptRequest (s : State) (n slot hostTag readAt : Nat) (b : List Byte) : Except Name (State × Nat) :=
  match s.planOf n with
  | none => .error .reqInvalid
  | some p =>
    let q := parseReq b slot hostTag
    let img := (s.vat n).paused.find? fun i => i.tag == q.resumeTag
    let ttlOn := s.judgesExpiry n && s.rd 0x4C10 1 == 1
    let resumeBad := q.resumeTag != 0 && match img with
      | some i => i.claimed || (ttlOn && i.expires ≤ readAt)
      | none => true
    if s.clearState n != 3 || p.role == 1 then .error .reqInvalid
    else if requestReserved b then .error .reservedSet
    else if s.requestBad n p b then .error .reqInvalid
    else if q.deadline != 0 && q.deadline ≤ s.time then .error .deadlineMissed
    else if !s.deadlineFits n p q then .error .deadlineUnreachable
    else if resumeBad then .error .pauseExpired
    else
      let place := if q.toRing then poolAlloc s.hub (64 + 16 * q.ringEntries) else some 0
      match place with
      | none => .error .ringShort
      | some off =>
        let id := s.hub.ringNext
        let r : Ring := {
          clearing := n, reqTag := q.tag, offset := off, entries := q.ringEntries, produced := 0, consumed := 0,
          ended := false, status := 0, stopIndex := 0xFF, notify := q.notify, data := [] }
        let s1 := if q.toRing then
            { s with hub := { s.hub with rings := ins s.hub.rings id r, ringNext := id + 1 } }
          else s
        let old := match img with
          | some i => if q.resumeTag == 0 then [] else s1.imageTokens n i
          | none => []
        let ver := s.rd (0x6040 + n) 4
        let q1 := { q with
          ring := if q.toRing then some id else none,
          hashes := blockHashes n ver (q.prompt.length / 256) [] q.prompt,
          resumed := old,
          epochs := if q.deadline == 0 then [] else (s1.clr n).floorEpochs }
        let v := s1.vat n
        .ok (s1.setVat n { v with
          waiting := v.waiting ++ [q1],
          paused := v.paused.map fun i =>
            if q.resumeTag != 0 && i.tag == q.resumeTag then { i with claimed := true } else i }, off)

end State

/-! ### The commands -/

/-- The limits an accepted plan records are those of the arbiters (13 R291). -/
def State.limitsHold (s : State) (n : Nat) : Bool :=
  match (s.clr n).planGen with
  | none => true
  | some g => g.arbLimits.all fun l => s.rd (l.1 / 256) (l.1 % 256) == l.2

/-- Whether a clearing may start a step: its plan is accepted and none of its checks fails, its culture tables are
READY, the module runs, and no step is in flight (17 R373, 05 R95, 12 R258, 13 R291, 21 R446, 22 R469). -/
def State.mayStep (s : State) (n : Nat) : Bool :=
  s.running && !s.power.holding && s.clearState n == 3 && !(s.clr n).inStep && (s.clr n).mismatch.isEmpty
    && s.limitsHold n && !(s.clr n).withdraw && s.tablesReady n

/-- VAT_STEP_START (08 R162, orders 1 to 6), with what other modules and the plan's program bring to it. A vat whose
turning failed after its front starts no step whose body runs; its deadlines and releases take effect at each sweep (10
R223). -/
def execVatStepStart (n : Nat) (s : State) (io : StepIn := {}) : Ans :=
  let k : State := match s.planOf n with
    | none => s
    | some p => if p.role == 1 || (s.clr n).turn.blocked then s else s.vatStart n p io
  inRange (wfClearing n) s (onlyIf (s.mayStep n) s k)

/-- VAT_STEP_END (08 R162, orders 8 to 11), with the tokens the step sampled and the faults it met. In HELD a step in flight
stays where it stopped (21 R446). -/
def execVatStepEnd (n : Nat) (toks : List TokenOut) (faults : List SeqFault) (s : State) : Ans :=
  let k : State := match s.planOf n with
    | none => s
    | some p => if p.role == 1 then s else s.vatEnd n p toks faults
  inRange (wfClearing n) s (onlyIf ((s.clr n).inStep && s.running) s k)

/-- A slot that a sweep took holds a resume of an image, read before the image expired: it claims the image (08 R180; the
slot's KIND, CLEARING and RESUME_TAG: 17 R370, 08 R167). -/
def State.resumeTaken (s : State) (n : Nat) (p : Paused) : Bool :=
  s.hub.taken.any fun t => field t.bytes 1 1 == 2 && field t.bytes 32 2 == n && field t.bytes 88 8 == p.tag
    && t.readAt < p.expires

/-- PAUSE_EXPIRED (08 R180, 22 R472): a paused image whose time to live has run out is freed; on the other members of a
spread group the command is the judging member's judgement. -/
def execPauseExpired (n tag : Nat) (s : State) : Ans :=
  let due := match (s.vat n).paused.find? fun p => p.tag == tag with
    | some p => !p.claimed && !(s.resumeTaken n p) && (!s.judgesExpiry n || (s.rd 0x4C10 1 == 1 && p.expires ≤ s.time))
    | none => false
  inRange (wfClearing n) s
    (onlyIf due s (((s.dropImage n tag).bump 0x4C10 4 1).post .pauseExpired n .ok tag))

end Sys2Proof.Machine
end

