-- ==== Sys2Proof/Machine/Copier.lean ====
section
/-! DEFINITION. The background copier and the checkpoints a press writes with it (11 R249 to R253, 15 R316 to
R327). -/

namespace Sys2Proof.Machine

namespace State

/-- A clearing's checkpoint record. -/
def ckpt (s : State) (n : Nat) : Ckpt := (s.clr n).ckpt
/-- A clearing's checkpoint record set. -/
def setCkpt (s : State) (n : Nat) (x : Ckpt) : State := s.setClr n { s.clr n with ckpt := x }
/-- A clearing's recovery record. -/
def recov (s : State) (n : Nat) : Recov := (s.clr n).recov
/-- A clearing's recovery record set. -/
def setRecov (s : State) (n : Nat) (x : Recov) : State := s.setClr n { s.clr n with recov := x }

/-- Tier-1 lines of a clearing's region outside pages and units are lost: each is counted, MEMORY_LOST names the
clearing and the first one's region offset (11 R240, R248), and a press region's loss waits for the next sweep (15
R331). -/
def postMemoryLost (s : State) (n tile off count : Nat) : State :=
  let s1 := (s.bump (0x4040 + n) 0xC count).post .memoryLost n .ok tile (leBytes 8 off)
  if s.jobRole n == 1 then s1.setRecov n { s1.recov n with lostMem := true } else s1

/-- CKPT_STATE: 0 IDLE, 1 COPYING, 2 VERIFYING, 3 FAILED, 4 LOADING. -/
def ckptState (s : State) (n : Nat) : Nat := s.rd (0x4080 + n) 0xB
/-- CKPT_STATE set. -/
def setCkptState (s : State) (n v : Nat) : State := s.wr (0x4080 + n) 0xB v
/-- The buddy of a generation: module, clearing and slot offset (15 R318, R325). -/
def buddyOf (s : State) (n gen : Nat) : Nat × Nat × Nat :=
  let k := if gen % 2 == 0 then 2 else 6
  (s.rd (0x4080 + n) k, s.rd (0x4080 + n) (k + 1), s.rd (0x4080 + n) (k + 2))

/-! ### Members of a job (15 R330) -/

/-- This module leads the job of a press clearing (15 R330). -/
def isLeader (s : State) (n : Nat) : Bool := s.rd (0x9080 + n) 1 == s.ownModule

/-- The members of the live replicas. -/
def liveMembers (r : Recov) : List Member := r.members.filter fun m => !r.dropped.contains m.replica

/-- A message to every other module of a job's live replicas. -/
def tellMembers (s : State) (n : Nat) (msg : String) (args : List Nat) : State :=
  if (liveMembers (s.recov n)).any fun m => m.modNo != s.ownModule then s.emit (.job n msg (s.rd (0x9080 + n) 2) args) else s

/-- The press clearings of a clearing's job on this module. -/
def jobPresses (s : State) (n : Nat) : List Nat := s.present.filter fun m => s.sameJob n m && s.jobRole m == 1

/-! ### Slots (15 R318, R319) -/

/-- The working spur port in BUDDY mode whose peer is a module (14 R303). -/
def buddyPort (s : State) (modNo : Nat) : Option Nat :=
  (List.range 32).find? fun p => s.portMode p == 3 && s.rd (0x5000 + 16 * p) 4 == modNo && s.portWorks p

/-- Whether the copier of clearing `n` reaches bytes of a slot: over the spur port of the buddy's module, or on this
module in the job window of a press clearing of the same job (11 R239, 15 R318). -/
def slotReach (s : State) (n modNo m off len : Nat) : Bool :=
  if modNo == s.ownModule then s.mayReach n m 2 off len && s.jobRole m == 1 else (s.buddyPort modNo).isSome

/-- What the copier sends to a slot charged to the snapshot's owner (11 R250): to the cellar, or to the spur port. -/
def chargeSlot (s : State) (n modNo len : Nat) : State :=
  if modNo == s.ownModule then s.charge n 5 0 len
  else match s.buddyPort modNo with
    | some p => s.charge n (0x20 + p) 0 len
    | none => s

/-- Bytes written into a slot by the copier of clearing `n`, where it reaches them. -/
def toSlot (s : State) (n modNo m off : Nat) (data : List Byte) : State :=
  if !s.slotReach n modNo m off data.length then s
  else if modNo == s.ownModule then (s.chargeSlot n modNo data.length).pokeRegion 2 m off data
  else s.carryLines n modNo m 2 off data (port := s.buddyPort modNo)

/-- A manifest copy written by the leader: to another module over the forest's links, which is no copier traffic (14
R303). -/
def toManifest (s : State) (n modNo m off : Nat) (data : List Byte) : State :=
  if modNo == s.ownModule then s.toSlot n modNo m off data
  else s.carryLines n modNo m 2 off data

/-- Bytes written into a buddy's slot from an offset on. -/
def toBuddy (s : State) (n gen off : Nat) (data : List Byte) : State :=
  let b := s.buddyOf n gen
  s.toSlot n b.1 b.2.1 (b.2.2 + off) data

/-- The number of the next generation of a clearing's job: one more than the newest complete one it knows of (15 R325). -/
def nextGen (s : State) (n : Nat) : Nat :=
  let own := s.rd (0x4080 + n) 0xD
  (1 + match (s.ckpt n).last with
    | some g => if seqNewer g.generation own then g.generation else own
    | none => own) % pow2 32

/-- The copier channel a snapshot of a clearing may take: its own reserved one, else the lowest-numbered one that is
neither reserved nor in use (11 R249, 15 R317). -/
def freeChannel (s : State) (n : Nat) : Option Nat :=
  match (List.range 4).find? fun k => (s.copier k).reserved == some n && (s.copier k).clearing.isNone with
  | some k => some k
  | none => (List.range 4).find? fun k => (s.copier k).reserved.isNone && (s.copier k).clearing.isNone

/-- COPIER_STATE, COPIER_CLEARING and COPIER_BLOCKS_LEFT of a channel published. -/
def publishChannel (s : State) (k st : Nat) : State :=
  let x := s.copier k
  ((s.wr 0x40C1 (k + 1) st).wr 0x40C2 (k + 1) (x.clearing.getD 0xFF)).wr 0x40C3 (k + 1) x.blocks.length

/-! ### Writes under an open snapshot (11 R251) -/

/-- A stalled write proceeds: COPY_STALL_MAX keeps the longest stall, and a held write's bytes are written. -/
def releaseWrite (n : Nat) (s : State) (w : Stall) : State :=
  let s1 := s.wr (0x4040 + n) 9 (max (s.rd (0x4040 + n) 9) (min (s.time - w.since) (pow2 32 - 1)))
  if w.data.isEmpty then s1 else s1.pokeRegion 1 n w.off w.data

/-- The stalled writes whose blocks are all COPIED proceed, in the order they arrived. -/
def releaseWrites (s : State) (n k : Nat) : State :=
  let x := s.copier k
  let free (w : Stall) : Bool := (blocksIn w.off w.len).all fun b => !x.blocks.contains b
  (x.stalled.filter free).foldl (releaseWrite n)
    (s.setCopier k { x with stalled := x.stalled.filter fun w => !free w })

/-! ### A generation that fails -/

/-- A channel is free again, and the writes that waited for it proceed. -/
def closeChannel (s : State) (k : Nat) : State :=
  let x := s.copier k
  match x.clearing with
  | none => s
  | some n =>
    let s1 := s.setCopier k { x with clearing := none, blocks := [], redirected := [], stalled := [] }
    (x.stalled.foldl (releaseWrite n) s1).publishChannel k 2

/-- A writer's shard of a generation fails with it: its number is not used up. One brought forward is taken again at the
next boundary, for which the press runs on (15 R325, R336; DEDUCED, log entry 24). -/
def failWriter (s : State) (n : Nat) : State :=
  let s0 := match s.channelOf n with
    | some k => s.closeChannel k
    | none => s
  let again := s0.rd (0x9080 + n) 0xA == 3
  let s1 := s0.setCkpt n { s0.ckpt n with
    wanted := false, channel := none, verified := false, forward := again || (s0.ckpt n).forward }
  let s2 := if again then s1.setRecov n { s1.recov n with hold := false } else s1
  ((s2.setCkptState n 3).bumpLive (0x4080 + n) 0x11 1).wr (0x4080 + n) 0xC 0

/-- The cause a CKPT_FAILED names: 1 a snapshot failed, 2 a buddy reported BAD, 3 its writer was dropped by a shrink, 4
a restore began (15 R325; the numbers, which follow the generation and the shard: DESIGN CHOICE, log entry 24). -/
def failCause (why : Nat) : Name := if why == 1 then .snapshotFailed else if why == 2 then .shardCorrupt else .ok

/-- The generation of a writer fails, with every other shard of it on this module; the other members are told (15 R325). -/
def failGen (s : State) (n why : Nat) : State :=
  let gen := (s.ckpt n).gen
  let shard := match s.planOf n with
    | some p => p.ckptShard
    | none => 0
  let mates := (s.jobPresses n).filter fun m => m != n && s.rd (0x4080 + m) 0xC == gen && gen != 0
  let s1 := (mates.foldl failWriter (s.failWriter n)).post .ckptFailed n (failCause why) 0 (words [gen, shard, why])
  s1.tellMembers n "CKPT_FAILED" [gen]

/-- A snapshot fails (11 R253): every stalled write proceeds at once, and its generation fails (15 R325). -/
def failSnapshot (s : State) (k : Nat) (why : Nat := 1) : State :=
  match (s.copier k).clearing with
  | none => s
  | some n => ((s.closeChannel k).post .snapshotFailed n .ok 0 (words [k])).failGen n why

/-- The snapshot of a clearing fails, where one is open; a generation under way fails with it. -/
def failOpen (s : State) (n why : Nat) : State :=
  match s.channelOf n with
  | some k => s.failSnapshot k why
  | none => if s.rd (0x4080 + n) 0xC != 0 || (s.ckpt n).wanted then s.failGen n why else s

/-- The block list of a clearing's plan (15 R316). -/
def blockList (s : State) (n : Nat) : List Nat :=
  match s.planOf n with
  | some p => p.ckptBlocks
  | none => []

/-- The number of a new vat or taster step of a job: the highest begun, plus 1 (15 R323). -/
def nextVatStep (s : State) (n : Nat) : Nat :=
  ((s.present.filter fun m => s.sameJob n m && s.jobRole m != 1).map fun m => (s.clr m).stepNo).foldl max 0

/-- A clearing's shard fits its slot and its check table, and its copier reaches the slot's end (15 R318, R319). -/
def slotFits (s : State) (n gen : Nat) : Bool :=
  let b := s.buddyOf n gen
  let len := (2 + (s.blockList n).length) * blockBytes
  (s.blockList n).length ≤ 524272 && len ≤ s.rd (0x4080 + n) 0xA && s.slotReach n b.1 b.2.1 b.2.2 len

/-- A writer's snapshot opened on a channel: it is that of the boundary it opens at (11 R249; 15 R316, R322 step 1). The
slot's manifest and shard header are zeroed first. A slot that is too small, or out of reach, is a destination that
cannot be reached (11 R253; DEDUCED, log entry 24). -/
def openSnapshot (s : State) (n k : Nat) : State :=
  let list := s.blockList n
  let x : Ckpt := { s.ckpt n with
    gen := s.nextGen n, step := (s.clr n).stepNo, openedAt := s.time,
    version := s.rd (0x6040 + n) 5, vatStep := s.nextVatStep n, epoch := s.rd (0x9080 + n) 2 }
  let s1 := s.setCopier k { s.copier k with clearing := some n, blocks := list, redirected := [], stalled := [] }
  let s2 := (s1.publishChannel k 1).setCkpt n { x with wanted := false, channel := some k, crcs := [], verified := false }
  let s3 := (s2.setCkptState n 1).wr (0x4080 + n) 0xC x.gen
  if s3.slotFits n x.gen then (s3.toBuddy n x.gen 0 (zeros 64)).toBuddy n x.gen blockBytes (zeros 64)
  else s3.failSnapshot k

/-- The lowest-numbered live replica of a job: the writer replica (15 R316). -/
def writerReplica (s : State) (n : Nat) : Option Nat :=
  let b := s.rdBlob (0x9080 + n) 6
  (List.range 4096).find? fun i => mapBit b i

/-- Whether a checkpoint boundary is skipped (15 R326). A checkpoint brought forward is taken while the job is
REJOINING, which is why it is brought forward (log entry 24). -/
def skipsCkpt (s : State) (n gen : Nat) : Bool :=
  let r := s.rd (0x9080 + n) 0xA
  s.rd (0x4080 + n) 0xC != 0 || (s.ckpt n).wanted || (s.ckpt n).drains.any (fun d => d % 2 == gen % 2)
    || !(r == 0 || (r == 3 && (s.ckpt n).forward))

/-- A snapshot that waits for a channel opened on one, where one is free (11 R249). -/
def openWanted (s : State) (n : Nat) : State :=
  if (s.ckpt n).wanted then
    match s.freeChannel n with
    | some k => s.openSnapshot n k
    | none => s
  else s

/-- What a press step boundary does for the job checkpoint (15 R316, R326): `step` press steps are completed. A member that
writes no shard notes the generation and the epoch; after the boundary of a checkpoint brought forward the press holds
(R336). -/
def ckptBoundary (s0 : State) (n step : Nat) : State :=
  let s := s0.openWanted n
  let period := s.frc (0x4080 + n) 1
  let x := s.ckpt n
  let due := x.forward || (step != 0 && period != 0 && step % period == 0)
  let writer := s.writerReplica n == some (s.rd (0x9080 + n) 5)
  let gen := s.nextGen n
  let s1 := if x.forward then s.setRecov n { s.recov n with hold := true } else s
  if !due then s
  else if !writer then s1.setCkpt n { x with forward := false, gen := gen, step := step, epoch := s.rd (0x9080 + n) 2 }
  else if s.skipsCkpt n gen then s.bumpLive (0x4080 + n) 0x12 1
  else
    (s1.setCkpt n { x with wanted := true, forward := false, gen := gen, step := step }).openWanted n

/-- A copier channel's reservation set (15 R317). -/
def reserveChannel (s : State) (n : Nat) : Option State :=
  if (List.range 4).any fun k => (s.copier k).reserved == some n then some s
  else ((List.range 4).find? fun k => (s.copier k).reserved.isNone && (s.copier k).clearing.isNone).map fun k =>
    s.setCopier k { s.copier k with reserved := some n }

/-- A clearing's reservations dropped. -/
def unreserve (s : State) (n : Nat) : State :=
  { s with copiers := s.copiers.map fun p =>
      (p.1, if p.2.reserved == some n then { p.2 with reserved := none } else p.2) }

/-- The check table of a shard: the CRC-32C of each block (15 R321). -/
def checkTable (s : State) (n : Nat) : List Byte :=
  ((List.range (s.blockList n).length).map fun i => leBytes 4 ((look (s.ckpt n).crcs i).getD 0)).flatten

/-- The shard header (15 R320). -/
def shardHeader (s : State) (n : Nat) : List Byte :=
  let x := s.ckpt n
  let p := match s.planOf n with
    | some p => (p.ckptShard, p.ckptShards)
    | none => (0, 0)
  let h := ascii "CRIRONCS" ++ leBytes 4 (s.tenantOf n) ++ leBytes 4 (s.jobOf n) ++ leBytes 4 x.gen ++ leBytes 4 p.1
    ++ leBytes 4 p.2 ++ leBytes 4 (s.rd 0x1000 3) ++ leBytes 8 x.step
    ++ leBytes 8 ((s.blockList n).length * blockBytes) ++ leBytes 2 s.ownModule ++ leBytes 1 n ++ leBytes 1 x.version
    ++ leBytes 4 (crc32c (s.checkTable n)) ++ zeros 4
  h ++ leBytes 4 (crc32c h)

/-- The last block is COPIED: the check table and then the header are written, and the channel is free (15 R322). -/
def endSnapshot (s : State) (n k : Nat) : State :=
  let x := s.ckpt n
  if !s.slotFits n x.gen then s.failSnapshot k else
  let s1 := (s.toBuddy n x.gen (blockBytes + 64) (s.checkTable n)).toBuddy n x.gen blockBytes (s.shardHeader n)
  let s2 := s1.setCopier k { s1.copier k with clearing := none }
  ((s2.publishChannel k 0).setCkpt n { x with channel := none }).setCkptState n 2

/-- The next block of a channel: a redirected one first, else the next of the list (11 R249, R251). -/
def nextBlock (x : Copier) : Option Nat :=
  match x.redirected with
  | b :: _ => some b
  | [] => x.blocks.head?

/-- One block COPIED (11 R249, R251; 15 R319, R321), its read charged to the owner (11 R250). A line of it that cannot
be read is counted and fails the snapshot, as a slot out of reach does (11 R248, R253). -/
def copyBlock (s : State) (n k b : Nat) : State :=
  let bad := s.badRange n 1 (b * blockBytes) blockBytes
  if !bad.isEmpty then
    ((s.bump 0x4012 (b % 12 + 1) bad.length).postMemoryLost n 0 (b * blockBytes + 64 * bad.headD 0) bad.length).failSnapshot k
  else if !s.slotFits n (s.ckpt n).gen then s.failSnapshot k else
  let x := s.copier k
  let c := s.ckpt n
  let pos := (s.blockList n).findIdx fun y => y == b
  let data := s.peek (regionAddr 1 n (b * blockBytes)) blockBytes
  let s1 := s.setCkpt n { c with crcs := ins c.crcs pos (crc32c data) }
  let s2 := (s1.toBuddy n c.gen ((2 + pos) * blockBytes) data).charge n (1 + groupOfBlock b) 0 blockBytes
  let s3 := s2.setCopier k { x with
    blocks := x.blocks.filter (· != b), redirected := x.redirected.filter (· != b) }
  let s4 := (s3.publishChannel k 1).releaseWrites n k
  if (s4.copier k).blocks.isEmpty then s4.endSnapshot n k else s4

/-- PLAN_SHAPE of a clearing's accepted plan. -/
def planShape (s : State) (n : Nat) : Nat :=
  match (s.clr n).planGen with
  | some g => g.shape
  | none => 0

/-- The press clearings of a clearing's job on this module whose shards of the generation under way are verified. -/
def verifiedShards (s : State) (n : Nat) : List Nat :=
  s.present.filter fun m => s.sameJob n m && s.jobRole m == 1 && s.ckptState m == 2 && (s.ckpt m).verified

/-- A clearing's entry of the manifest, with its shard number (15 R323). -/
def manifestEntry (s : State) (m gen : Nat) : Option (Nat × List Byte) :=
  (s.planOf m).map fun p =>
    let b := s.buddyOf m gen
    (p.ckptShard, leBytes 4 p.ckptShard ++ leBytes 2 s.ownModule ++ leBytes 1 m ++ zeros 1 ++ leBytes 2 b.1
      ++ leBytes 1 b.2.1 ++ zeros 1 ++ leBytes 4 (s.blockList m).length ++ leBytes 8 b.2.2
      ++ leBytes 4 (crc32c (s.checkTable m)) ++ zeros 4)

/-- A manifest's entries in ascending shard number; `others` are those of other modules' shards. -/
def manifestEntries (s : State) (n gen : Nat) (others : List (Nat × List Byte)) : List (List Byte) :=
  let own := (s.verifiedShards n).filterMap fun m => s.manifestEntry m gen
  let all := own.foldl (fun m e => ins m e.1 e.2) (others.foldl (fun m e => ins m e.1 (slice e.2 0 32)) ([] : Map (List Byte)))
  all.map (·.2)

/-- The manifest of a generation (15 R323). -/
def manifest (s : State) (n epoch : Nat) (g : GenCheck) (l : List (List Byte)) : List Byte :=
  let h := ascii "CRIRONCM" ++ leBytes 4 (s.tenantOf n) ++ leBytes 4 (s.jobOf n) ++ leBytes 4 g.generation
    ++ leBytes 4 l.length ++ leBytes 8 g.step ++ leBytes 4 g.scaleId ++ leBytes 1 g.version ++ zeros 3
    ++ leBytes 8 g.vatStep ++ leBytes 4 epoch ++ leBytes 4 g.planShape ++ leBytes 4 (crc32c l.flatten)
  h ++ leBytes 4 (crc32c h) ++ l.flatten

/-- The generation a writer has under way, as its manifest names it. -/
def genUnderWay (s : State) (n : Nat) : GenCheck :=
  let x := s.ckpt n
  { present := true, generation := x.gen, step := x.step, version := x.version, vatStep := x.vatStep,
    scaleId := s.rd 0x1000 3, planShape := s.planShape n, missing := none, mismatch := none, corrupt := none }

/-- A writer's generation is complete (15 R324). -/
def completeShard (s : State) (g : GenCheck) (m : Nat) : State :=
  let s1 := ((s.wr (0x4080 + m) 0xD g.generation).wr (0x4080 + m) 0xE g.step).wr (0x4080 + m) 0xC 0
  (s1.setCkptState m 0).setCkpt m { s1.ckpt m with verified := false }

/-- A complete generation noted by a press clearing of the job, with the one before it. -/
def noteGen (g : GenCheck) (s : State) (m : Nat) : State :=
  s.setCkpt m { s.ckpt m with prev := (s.ckpt m).last, last := some g }

/-- A generation is complete (15 R324): the leader writes the manifest, under JOB_EPOCH at the boundary, into every slot
that holds a shard of it and tells the members; every writer and every other press clearing of the job takes note of it.
-/
def completeGen (s : State) (n : Nat) (g : GenCheck) (others : List (Nat × List Byte)) : State :=
  let l := s.manifestEntries n g.generation others
  let doc := s.manifest n (s.ckpt n).epoch g l
  let s1 := if s.isLeader n then
      l.foldl (fun s e => s.toManifest n (field e 8 2) (field e 10 1) (field e 16 8) doc) s
    else s
  let s2 := (s.verifiedShards n).foldl (fun s m => s.completeShard g m) s1
  let s3 := (s2.jobPresses n).foldl (noteGen g) s2
  if s.isLeader n then (s3.post .ckptComplete n .ok 0 doc).tellMembers n "CKPT_COMPLETE" [g.generation] else s3

/-- Every shard of a generation is verified (15 R324): the leader has an entry of each. -/
def allShards (s : State) (n : Nat) (g : GenCheck) (others : List (Nat × List Byte)) : Bool :=
  match s.planOf n with
  | some p => (s.manifestEntries n g.generation others).length == p.ckptShards
  | none => false

/-- A generation that a member tells has failed (15 R325): its shards here fail with it. -/
def failTold (s : State) (n : Nat) (g : GenCheck) : State :=
  ((s.jobPresses n).filter fun m => s.rd (0x4080 + m) 0xC == g.generation && g.generation != 0).foldl failWriter s

/-! ### The buddy's read-back (15 R322, step 4) -/

/-- The shard header in a slot of a clearing's tier-2 region. -/
def slotHeader (s : State) (m off : Nat) : List Byte := s.peek (regionAddr 2 m (off + blockBytes)) 64
/-- The data blocks a shard header counts. -/
def headBlocks (h : List Byte) : Nat := min (field h 40 8 / blockBytes) 524272
/-- The bytes of a slot from its shard header to the end of its data. -/
def shardBytes (h : List Byte) : Nat := (1 + headBlocks h) * blockBytes

/-- The lines of a slot's header, table and data that cannot be read, counted from the header. -/
def slotBad (s : State) (m off : Nat) : List Nat :=
  let k := headBlocks (s.slotHeader m off)
  s.badRange m 2 (off + blockBytes) (64 + 4 * k)
    ++ (s.badRange m 2 (off + 2 * blockBytes) (k * blockBytes)).map (· + blockBytes / 64)

/-- A slot's header checks, and its table and blocks agree with it. -/
def slotSound (s : State) (m off : Nat) : Bool :=
  let h := s.slotHeader m off
  let k := headBlocks h
  let table := s.peek (regionAddr 2 m (off + blockBytes + 64)) (4 * k)
  slice h 0 8 == ascii "CRIRONCS" && field h 60 4 == crc32c (slice h 0 60) && field h 40 8 % blockBytes == 0
    && field h 52 4 == crc32c table && (List.range k).all fun i =>
      field table (4 * i) 4 == crc32c (s.peek (regionAddr 2 m (off + (2 + i) * blockBytes)) blockBytes)

/-- A slot read back at the buddy clearing's cellar share: lost lines are counted to it, and the answer is VERIFIED (15
R322). -/
def readBackSlot (s : State) (m off : Nat) : Bool × State :=
  let bad := s.slotBad m off
  let s1 := s.charge m 5 0 (shardBytes (s.slotHeader m off))
  (bad.isEmpty && s.slotSound m off, if bad.isEmpty then s1 else s1.bump (0x4040 + m) 0xB bad.length)

/-- The buddy's report to the writer that the header names: module, clearing, generation and shard. -/
def reportSlot (s : State) (m off : Nat) : State :=
  let h := s.slotHeader m off
  let r := s.readBackSlot m off
  r.2.emit (.job m (if r.1 then "VERIFIED" else "BAD") (s.rd (0x9080 + m) 2)
    [field h 48 2 % 16384, field h 50 1 % 64, field h 16 4, field h 20 4])

/-- A shard is VERIFIED: counted, and its manifest entry sent to the leader. -/
def shardGood (s : State) (n : Nat) : State :=
  let x := s.ckpt n
  let s1 := ((s.setCkpt n { x with verified := true }).bumpLive (0x4080 + n) 0x10 1).wr (0x4080 + n) 0x13 (s.time - x.openedAt)
  if s.isLeader n then s1
  else match s.manifestEntry n x.gen with
    | some e => s1.emit (.job n "SHARD" x.epoch (e.2.map (·.toNat)))
    | none => s1

/-! ### What is known of a complete generation (15 R328) -/

/-- A shard's header agrees with the generation's manifest (15 R328, row 4). -/
def headAgrees (s : State) (m : Nat) (g : GenCheck) (h : List Byte) : Bool :=
  let shards := match s.planOf m with
    | some p => p.ckptShards
    | none => 0
  field h 60 4 == crc32c (slice h 0 60) && field h 8 4 == s.tenantOf m && field h 12 4 == s.jobOf m
    && field h 16 4 == g.generation && field h 32 8 == g.step && field h 24 4 == shards && field h 28 4 == g.scaleId

/-- What the check of a press clearing's shard of a generation finds (15 R328, rows 3 to 5), so far as its slot can be
read from here: its buddy is out of reach, or its slot on this module does not agree. -/
def checkShard (s : State) (g : GenCheck) (m : Nat) : GenCheck :=
  let b := s.buddyOf m g.generation
  let k := match s.planOf m with
    | some p => p.ckptShard
    | none => 0
  let h := s.slotHeader b.2.1 b.2.2
  if !s.slotReach m b.1 b.2.1 b.2.2 blockBytes then { g with missing := g.missing.or (some k) }
  else if b.1 != s.ownModule then g
  else if !s.headAgrees m g h then { g with mismatch := g.mismatch.or (some k) }
  else if !(s.slotBad b.2.1 b.2.2).isEmpty || !s.slotSound b.2.1 b.2.2 then { g with corrupt := g.corrupt.or (some k) }
  else g

/-- A complete generation as its check from here finds it. -/
def checkGen (s : State) (n : Nat) (g : GenCheck) : GenCheck :=
  ((s.jobPresses n).filter fun m => s.rd (0x9080 + m) 5 == (s.writerReplica n).getD 0).foldl s.checkShard g

end State

/-! ### The commands -/

/-- SNAPSHOT_OPEN: a snapshot that found no channel free opens at the first step boundary of its clearing at which
one is (11 R249). -/
def execSnapshotOpen (n : Nat) (s : State) : Ans :=
  inRange (wfClearing n) s (onlyIf (!(s.clr n).inStep && s.exists? n) s (s.openWanted n))

/-- SHARD_VERIFIED: the buddy's report after its read-back reaches the writer `n`; a slot on this module is read back here
(15 R322, R325). With `slot`, this module is the buddy: it reads back that slot of its clearing `n` and reports. -/
def execShardVerified (n : Nat) (ok : Bool) (s : State) (slot : Option Nat := none) : Ans :=
  let x := s.ckpt n
  let b := s.buddyOf n x.gen
  let own := b.1 == s.ownModule
  let r := if own then s.readBackSlot b.2.1 b.2.2 else (ok, s)
  let k := match slot with
    | some off => if s.exists? n && s.jobRole n == 1 && off + 2 * blockBytes ≤ s.regionLen n 2 then s.reportSlot n off else s
    | none => onlyIf (s.ckptState n == 2 && !x.verified) s (if r.1 then r.2.shardGood n else r.2.failGen n 2)
  inRange (wfClearing n) s k

/-- CKPT_COMPLETE: every shard is verified and the leader has written and read back every manifest copy (15 R324). A
copy that does not read back leaves the generation incomplete. `others` are the manifest entries of other modules'
shards and `vatSteps` the vat steps that other modules had begun, as their reports give them to the leader. `told` is
the generation as the leader names it to a press clearing that wrote no shard of it; with copies that are not good, one
that another member tells has failed (R325). -/
def execCkptComplete (n : Nat) (copiesOk : Bool) (others : List (Nat × List Byte)) (s : State)
    (told : Option GenCheck := none) (vatSteps : List Nat := []) : Ans :=
  let own := (s.verifiedShards n).contains n
  let idle := s.rd (0x4080 + n) 0xC == 0 && s.exists? n && s.jobRole n == 1
  let g := if own then some (s.genUnderWay n) else if idle then told else none
  let k := match copiesOk, g with
    | true, some g => onlyIf (!s.isLeader n || s.allShards n g others) s
        (s.completeGen n { g with vatStep := vatSteps.foldl max g.vatStep } others)
    | false, _ => match told with
      | some g => s.failTold n g
      | none => s
    | true, none => s
  inRange (wfClearing n) s k

/-- CKPT_DRAIN_END: a drain's last line has been sent, and its hold on the slots ends (15 R326). -/
def execCkptDrainEnd (n : Nat) (s : State) : Ans :=
  inRange (wfClearing n) s (s.setCkpt n { s.ckpt n with drains := [] })

end Sys2Proof.Machine
end

