-- ==== Sys2Proof/Machine/Lines.lean ====
section
/-! DEFINITION. Lines of the two memory tiers that their codes correct or lose: remapping, POISON, degraded devices and
cellar channels and groups (11 R245 to R248; 20 R422, R423). -/

namespace Sys2Proof.Machine

/-- 24 hours in ns. -/
def day : Nat := 86400000000000

namespace State

/-- How many remapped lines the device of a line has place for (11 R248). -/
def remapPlaces (p : Place) : Nat := if p.tier == 2 then 512 else 4096

/-- A line remapped to a spare of its device; the last spare taken posts REMAP_FULL, and the device is degraded once
(11 R248, 20 R423). Without a spare the line stays in place. -/
def remapLine (s : State) (p : Place) : State :=
  let idx := if p.tier == 2 then 0x4C22 else 0x4010
  let used := s.rd idx (p.dev + 1)
  let key := 64 * p.tier + p.dev
  if remapPlaces p ≤ used then s
  else
    let s1 := s.wr idx (p.dev + 1) (used + 1)
    if used + 1 < remapPlaces p then s1
    else
      let s2 := s1.postAll .remapFull .ok (words [p.tier, p.dev])
      if s.degraded.contains key then s2
      else ({ s2 with degraded := s2.degraded ++ [key] }).postAll
        (if p.tier == 2 then .channelDegraded else .stackDegraded) .ok (words [p.dev])

/-- A line returned corrected; the second correction within 24 h remaps it (11 R248). -/
def correctLine (s : State) (p : Place) : State :=
  let s1 := s.bump (if p.tier == 2 then 0x4C20 else 0x4011) (p.dev + 1) 1
  let again : Bool := match look s.onceAt p.addr with
    | some t => decide (s.time - t < day)
    | none => false
  if again then ({ s1 with onceAt := del s1.onceAt p.addr }).remapLine p
  else { s1 with onceAt := ins s1.onceAt p.addr s.time }

/-- A waiting request that resumes a conversation which is no longer held ends LOST (11 R246). -/
def endResumes (s : State) (n tag : Nat) : State :=
  let ends := (s.vat n).waiting.filter fun q => tag != 0 && q.resumeTag == tag
  let s1 := s.setVat n { s.vat n with waiting := (s.vat n).waiting.filter fun q => !(tag != 0 && q.resumeTag == tag) }
  ends.foldl (fun s q => s.endRequest n q none 0x14 0xFF) s1

/-- The paused images of a clearing with blocks in a cellar group freed (11 R246). -/
def loseImages (s : State) (k n : Nat) : State :=
  ((s.vat n).paused.filter fun p => (imageGroups p).contains k).foldl (fun s p =>
    ((s.dropImage n p.tag).endResumes n p.tag).post .pauseLost n .ok p.tag) s

/-- A cellar group becomes FAILED (11 R246). -/
def failGroup (s : State) (k : Nat) : State :=
  if s.groupFailed k then s
  else
    let s1 := (s.wr 0x4C01 (k + 1) 1).postAll .cellarGroupFailed .ok (words [k])
    s1.present.foldl (fun s n => s.loseImages k n) s1

/-- An uncorrectable cellar line noted: three different pieces of a channel within 1 s fail its group (11 R246). -/
def notePiece (s : State) (p : Place) : State :=
  let old := ((look s.pieces p.dev).getD []).filter fun q => s.time - q.2 < 1000000000
  let piece := p.addr / 4096
  let all := old.filter (·.1 != piece) ++ [(piece, s.time)]
  let s1 := { s with pieces := ins s.pieces p.dev all }
  if 3 ≤ all.length then s1.failGroup (p.dev / 8) else s1

/-- A line that a read finds lost: one that fails its code is counted, remapped and POISON from then on; one of a FAILED
group is only lost (11 R246, R248). -/
def loseLine (s : State) (p : Place) : State :=
  if s.inFailed p then s
  else
    let s1 := s.bump (if p.tier == 2 then 0x4C21 else 0x4012) (p.dev + 1) 1
    let s2 := if s.poison.contains p.addr then s1 else ({ s1 with poison := s1.poison ++ [p.addr] }).remapLine p
    if p.tier == 2 then s2.notePiece p else s2

/-- A fault of the step noted for the sequence of a slot (08 R170). -/
def faultSeq (s : State) (n slot code : Nat) : State :=
  s.setVat n { s.vat n with
    seqs := (s.vat n).seqs.map fun x => if x.slot == slot && x.active then { x with fault := x.fault ++ [code] } else x }

end State

/-- The die on which an arbiter group's arbiters run, in the numbering of 02 R31. -/
def arbDie (group : Nat) : Nat :=
  if group < 0x6150 then group % 16 + 1
  else if group < 0x6160 then 0x16 + group % 4
  else if group < 0x6170 then 0x11
  else 0x12 + dieOfPort (group - 0x6170)

/-- A lock overrun outside a bank port: HW_FAULT, and DIE_FAULT at the third of one arbiter within 24 h (20 R422). -/
def State.hwFault (s : State) (group unit input : Nat) : State :=
  let key := group * 65536 + unit
  let l := ((look s.overruns key).getD []).filter fun t => s.time - t < day
  let s1 := ({ s with overruns := ins s.overruns key (l ++ [s.time]) }).postAll .hwFault .ok (words [group, input])
  if 3 ≤ (l ++ [s.time]).length then s1.postAll .dieFault .ok (words [arbDie group]) else s1

/-- LOCK_OVERRUN: an arbiter ends a lock that its input holds for 16 beats, counts it and takes what its owner still
asks as new; the fault is reported, for a bank port by retiring its physical cell (13 R284; 20 R422). `unit` is the
arbiter's number in its group. -/
def execLockOverrun (group unit input : Nat) (s : State) : Ans :=
  let k := match s.breakLock group unit input with
    | none => s
    | some s1 => if group ≤ 0x611F then s1.retireCell (group - 0x6110) (unit / 16) true else s1.hwFault group unit input
  inRange (wfArb group unit input) s k

/-- CELLAR_GROUP_FAILED: a channel of the group fails retraining, and the group with it (11 R246). -/
def execCellarGroupFailed (group : Nat) (s : State) : Ans := inRange (group < 4) s (s.failGroup group)

end Sys2Proof.Machine
end

