-- ==== Sys2Proof/Machine/Secure.lean ====
section
/-! DEFINITION. Sessions, manager keys and tenant keys (19 R401 to R409; 17 R358). The standard algorithms that no
rule of the manual computes are the uninterpreted constants of Config (log entry 10). -/

namespace Sys2Proof.Machine

namespace State

/-- CRYPTO_STATE reads OK. -/
def cryptoOk (s : State) : Bool := s.rd 0x8003 1 == 0

/-- The TAG of a message (19 R407): the first 16 bytes of HMAC-SHA-256(SK, d ‖ covered), d 0 from the opener and 1
from the module. -/
def tagOf (sk : List Byte) (d : Byte) (covered : List Byte) : List Byte := (hmac sk (d :: covered)).take 16

/-- The next output of the DRBG (19 R401). -/
def drbg (s : State) (len : Nat) : List Byte × State :=
  (Config.drbg s.otp.startCount s.sec.drbgCount len, { s with sec := { s.sec with drbgCount := s.sec.drbgCount + 1 } })

/-- A session closed. -/
def closeSession (s : State) (num : Nat) : State :=
  { s with sec := { s.sec with sessions := s.sec.sessions.filter fun x => x.num != num } }

/-- Whether a tenant has a DELIVERED or INSTALLED key on the module (19 R406, R408). -/
def tenantKeyed (s : State) (t : Nat) : Bool :=
  (List.range 64).any fun n => s.tenantOf n == t && (s.rd (0x8040 + n) 2 == 1 || s.rd (0x8040 + n) 2 == 2)

/-- Tenant sessions whose tenant has no key any more close (19 R408). -/
def closeKeyless (s : State) : State :=
  { s with sec := { s.sec with sessions := s.sec.sessions.filter fun x => match x.role with
      | .tenant t => s.tenantKeyed t
      | _ => true } }

/-- The shared secret of a ciphertext under the encapsulation key (19 R401), which a zeroised module has no more. -/
def kemOpen (s : State) (ct : List Byte) : List Byte :=
  match s.sec.kemKey with
  | some k => Config.kemSecret k ct
  | none => []

/-- The key a wrapped value opens to (19 R402). -/
def unwrap (s : State) (v : List Byte) : Option (List Byte) :=
  let aad := slice v 0 48
  let key := hkdf (s.kemOpen (slice v 48 1568)) [] (ascii "CRIRON-KW" ++ aad) 32
  Config.gcmOpen key (slice v 1616 12) aad (slice v 1628 32) (slice v 1660 16)

/-- The tenant key K_T known for a tenant: installed, or opened for one of its clearings. -/
def tenantKey (s : State) (t : Nat) : Option (List Byte) :=
  match look s.sec.tenantKeys t with
  | some k => some k
  | none => (s.sec.delivered.find? fun p => s.tenantOf p.1 == t).map (·.2)

/-- A session with a session key opened: the next number, unused since START (19 R406). -/
def addSession (s : State) (r : Role) (sk : List Byte) : Nat × State :=
  let num := s.sec.nextSession
  let x : Session := {
    num := num, role := r, sk := sk, counter := 0, lastReq := [], lastReply := [], lastEv := none, lastAt := s.time,
    evSelect := 0, nonce := zeros 32 }
  (num, { s with sec := { s.sec with sessions := s.sec.sessions ++ [x], nextSession := num + 1 } })

/-- The reply of 112 bytes to a SESSION_OPEN (19 R405). -/
def sessionReply (kind : Nat) (status : Name) (num : Nat) (opener reply sk : List Byte) : List Byte :=
  let b := leBytes 1 1 ++ leBytes 1 kind ++ zeros 2 ++ leBytes 4 status.code ++ leBytes 4 num ++ zeros 4
    ++ slice opener 0 32 ++ slice reply 0 32
  b ++ (if status == .ok then hmac sk (ascii "CRIRON-SR" ++ b) else zeros 32)

/-- SESSION_REPLY written: the reply names the request's nonce. -/
def putReply (s : State) (b : List Byte) : State := s.wrBlob 0x8002 2 b

/-- Whether a SESSION_OPEN request proves the key `a` (19 R406). -/
def proves (a v : List Byte) : Bool := slice v 1664 32 == hmac a (ascii "CRIRON-SO" ++ slice v 0 1664)

/-- The session key of an open (19 R406). -/
def sessionKey (s : State) (v a rn : List Byte) : List Byte :=
  hkdf (s.kemOpen (slice v 48 1568)) a (ascii "CRIRON-SK" ++ slice v 16 32 ++ rn) 32

/-- An open or a COMMISSION refused: the reply carries the status (19 R405). -/
def refuseOpen (s : State) (v : List Byte) (status : Name) : State :=
  let r := s.drbg 32
  r.2.putReply (sessionReply (field v 1 1) status 0 (slice v 16 32) r.1 [])

/-- A MANAGER or TENANT open with proving key `a` (19 R406, R408). -/
def openWith (s : State) (v : List Byte) (r : Role) (a : Option (List Byte)) (absent : Name) : State :=
  if !s.cryptoOk then s.refuseOpen v .cryptoUnavailable
  else match a with
    | none => s.refuseOpen v absent
    | some key =>
      if !proves key v then s.refuseOpen v .sessionProof
      else if 64 ≤ s.sec.sessions.length then s.refuseOpen v .sessionsFull
      else
        let d := s.drbg 32
        let sk := s.sessionKey v key d.1
        let o := d.2.addSession r sk
        o.2.putReply (sessionReply (field v 1 1) .ok o.1 (slice v 16 32) d.1 sk)

/-- A MANAGER open is proven with MK (19 R406, R409). -/
def openManager (s : State) (v : List Byte) : State := s.openWith v .manager s.managerKey .managerAbsent

/-- The key that proves a tenant: the one known, or the one that a delivered value still being opened yields (19 R403, R406;
DEDUCED, log entry 10). -/
def provingKey (s : State) (t : Nat) : Option (List Byte) :=
  (s.tenantKey t).or ((s.sec.opening.find? fun p => s.tenantOf p.1 == t).bind fun p => s.unwrap p.2)

/-- A TENANT open is proven with the tenant's K_T (19 R406): refused with KEY_ABSENT where none is DELIVERED or
INSTALLED, and without proof where the one delivered does not open. -/
def openTenant (s : State) (v : List Byte) : State :=
  let t := field v 4 4
  if s.tenantKeyed t then s.openWith v (.tenant t) (s.provingKey t) .sessionProof
  else s.openWith v (.tenant t) none .keyAbsent

/-- COMMISSION installs a manager key (19 R409): the new MK is opened from SEALED_MK and written to the next free slot
under the device secret, and every manager session closes. Its reply names a session number, which is used up; no
session is opened under it (19 R405; DESIGN CHOICE, log entry 10). -/
def commission (s : State) (v : List Byte) : State :=
  let a := s.managerKey.getD (zeros 32)
  if !s.cryptoOk then s.refuseOpen v .cryptoUnavailable
  else if 8 ≤ s.otp.managerKeys.length then s.refuseOpen v .commissionFull
  else if !proves a v then s.refuseOpen v .sessionProof
  else
    let secret := s.kemOpen (slice v 48 1568)
    match Config.gcmOpen (hkdf secret [] (ascii "CRIRON-CM") 32) (zeros 12) (slice v 0 48) (slice v 1616 32)
        (slice v 1648 16) with
    | none => s.refuseOpen v .sessionProof
    | some fresh =>
      let d := s.drbg 32
      let sk := s.sessionKey v a d.1
      let s1 := { d.2 with
        otp := { d.2.otp with managerKeys := { under := d.2.otp.deviceSecret, content := fresh } :: d.2.otp.managerKeys },
        sec := { d.2.sec with
          sessions := d.2.sec.sessions.filter (fun x => x.role != Role.manager), nextSession := d.2.sec.nextSession + 1 } }
      (s1.putReply (sessionReply 3 .ok d.2.sec.nextSession (slice v 16 32) d.1 sk)).postAll .managerCommissioned

/-- CLOSE ends the named session, proven with its SK (19 R406, R408). -/
def closeReq (s : State) (v : List Byte) : State :=
  match s.session (field v 8 4) with
  | none => s.refuseOpen v .sessionUnknown
  | some x =>
    if !proves x.sk v then s.refuseOpen v .sessionProof
    else
      let d := s.drbg 32
      (d.2.closeSession x.num).putReply (sessionReply 4 .ok x.num (slice v 16 32) d.1 x.sk)

/-- The reserved fields and codes of a SESSION_OPEN (19 R405). -/
def sessionReserved (v : List Byte) : Bool :=
  let kind := field v 1 1
  field v 0 1 != 1 || kind == 0 || 4 < kind || field v 2 2 != 0 || field v 12 4 != 0
    || (kind != 2 && field v 4 4 != 0) || (kind != 4 && field v 8 4 != 0)
    || (kind == 4 && !allZero (slice v 48 1568)) || (kind != 3 && !allZero (slice v 1616 48))

/-- A SESSION_OPEN value accepted: what its KIND asks for. -/
def sessionOpen (s : State) (v : List Byte) : State :=
  match field v 1 1 with
  | 1 => s.openManager v
  | 2 => s.openTenant v
  | 3 => s.commission v
  | _ => s.closeReq v

/-! ### Requests under a session (17 R358) -/

/-- What the session checks find. -/
inductive SessCheck where
  | pass
  | again
  | refuse (n : Name)
deriving DecidableEq, Repr

/-- The checks of 17 R358 on a request: its session, counter, tag, the bytes the tag covers, and all its bytes. -/
def checkSession (s : State) (num counter : Nat) (tag covered whole : List Byte) : SessCheck :=
  if num == 0 then .pass
  else match s.session num with
    | none => .refuse .sessionUnknown
    | some x =>
      if tag != tagOf x.sk 0 covered then .refuse .sessionTag
      else if x.counter < counter then .pass
      else if x.counter == counter && x.lastReq == whole then .again
      else .refuse .sessionReplay

/-- The counter recorded at once as the session's last accepted one (17 R358). -/
def recordCounter (s : State) (num counter : Nat) (whole : List Byte) : State :=
  match s.session num with
  | none => s
  | some x => s.setSession { x with counter := counter, lastReq := whole, lastReply := [], lastEv := none,
                                    lastAt := s.time }

/-- What answered the session's last request. -/
def recordReply (s : State) (num : Nat) (reply : List Byte) (ev : Option Ev) : State :=
  match s.session num with
  | none => s
  | some x => s.setSession { x with lastReply := reply, lastEv := ev }

/-! ### Wrapped keys (19 R402, R403) -/

/-- SHA-256 of KEM_CERT. -/
def kemHash (s : State) : List Byte := sha256 (s.rdBlob 0x8000 4)

/-- The reserved fields of a KEY_WRAPPED value (19 R402, R403). -/
def keyReserved (v : List Byte) : Bool :=
  field v 0 1 != 1 || 64 ≤ field v 1 1 || field v 2 2 != 0 || field v 12 4 != 0

/-- The checks at order 8 of a KEY_WRAPPED write (18 R394, 19 R403). -/
def keyChecks (s : State) (n : Nat) (v : List Byte) : Name :=
  if s.exists? n then .clearingExists
  else if (s.clr n).heldCreate then .clearingBusy
  else if field v 1 1 != n || field v 4 4 != s.tenantOf n || field v 8 4 != s.jobOf n then .keyBinding
  else if slice v 16 32 != s.kemHash then .keyStale
  else if !s.cryptoOk then .cryptoUnavailable
  else .ok

/-- A KEY_WRAPPED write accepted: DELIVERED, and the security block starts opening it. -/
def deliverKey (s : State) (n : Nat) (v : List Byte) : State :=
  { s with sec := { s.sec with
    opening := ins s.sec.opening n v,
    delivered := del s.sec.delivered n } }.wr (0x8040 + n) 2 1

/-- The end of a key opening, the held CREATE aside (19 R403). -/
def openKey (s : State) (n : Nat) (v : List Byte) : State :=
  let s1 := { s with sec := { s.sec with opening := del s.sec.opening n } }
  let refuse (why : Name) := ((s1.wr (0x8040 + n) 2 3).post .keyRefused n why).closeKeyless
  match s.unwrap v with
  | none => refuse .keyRefused
  | some k =>
    match s1.tenantKey (s.tenantOf n) with
    | some held => if held == k then { s1 with sec := { s1.sec with delivered := ins s1.sec.delivered n k } }
        else refuse .keyTenantConflict
    | none => { s1 with sec := { s1.sec with delivered := ins s1.sec.delivered n k } }

/-- A salt and the clearing key it gives; a salt whose key has equal halves is drawn again (19 R404). The bound on the draws
is beyond what any module draws (DESIGN CHOICE, log entry 10). -/
def clearingKey (s : State) : Nat → Nat → List Byte → List Byte × State
  | 0, n, kt =>
    let d := s.drbg 32
    (d.1 ++ hkdf kt d.1 (ascii "CRIRON-XTS" ++ leBytes 1 n ++ leBytes 4 (s.tenantOf n) ++ leBytes 4 (s.jobOf n)) 64, d.2)
  | tries + 1, n, kt =>
    let d := s.drbg 32
    let k := hkdf kt d.1 (ascii "CRIRON-XTS" ++ leBytes 1 n ++ leBytes 4 (s.tenantOf n) ++ leBytes 4 (s.jobOf n)) 64
    if k.take 32 == k.drop 32 then clearingKey d.2 tries n kt else (d.1 ++ k, d.2)

/-- The key delivered to a clearing installed at its creation (12 R258, step 2; 19 R403, R404). -/
def installKey (s : State) (n : Nat) : State :=
  match look s.sec.delivered n with
  | none => s
  | some kt =>
    let r := s.clearingKey 0x10000000000000000 n kt
    { r.2 with sec := { r.2.sec with
      tenantKeys := ins r.2.sec.tenantKeys (s.tenantOf n) kt,
      delivered := del r.2.sec.delivered n,
      clearingKeys := ins r.2.sec.clearingKeys n r.1 } }.wr (0x8040 + n) 2 2

/-- A clearing's key erased; the tenant's key goes with its last clearing (19 R401, R404). -/
def eraseKey (s : State) (n t : Nat) : State :=
  let last := !((List.range 64).any fun m => m != n && s.exists? m && s.tenantOf m == t)
  { s with sec := { s.sec with
    clearingKeys := del s.sec.clearingKeys n,
    delivered := del s.sec.delivered n,
    opening := del s.sec.opening n,
    tenantKeys := if last then del s.sec.tenantKeys t else s.sec.tenantKeys } }

/-- Every volatile key and every session gone (19 R419, steps 1 to 3); the keys in one-time-programmable storage stay. -/
def zeroise (s : State) : State :=
  let s1 := { s with sec := { s.sec with
    sessions := [], attestKey := none, kemKey := none, tenantKeys := [], clearingKeys := [], opening := [], delivered := [] } }
  (List.range 64).foldl (fun s n => s.wr (0x8040 + n) 2 0) (s1.wr 0x8003 1 2)

end State

/-- SESSION_TIMEOUT: a session with no accepted request for 3,600 s closes (19 R408). -/
def execSessionTimeout (session : Nat) (s : State) : Ans :=
  let due := match s.session session with
    | some x => 3600000000000 ≤ s.time - x.lastAt
    | none => false
  whenOn s (onlyIf due s (s.closeSession session))

end Sys2Proof.Machine
end

