-- ==== Sys2Proof/Machine/Clearings.lean ====
section
/-! DEFINITION. Clearings: their checks, creation, resizing, destruction, the rings of cells, and claims (12 R255 to
R276, 11 R241, R242, 19 R403, R419). -/

namespace Sys2Proof.Machine

/-- The first of a list of conditions that holds, as the status that refuses; OK when none does. -/
def firstBad : List (Bool × Name) → Name
  | [] => .ok
  | (bad, name) :: rest => if bad then name else firstBad rest

/-- X of 12 R263 for a class: 4,096 beats of tile, and for the compute class 96 of role change and 264 of program load. -/
def pickMax (cls : TileClass) : Nat :=
  match cls with
  | .compute => 4456
  | .move => 4096

/-- SPILL_ALLOWANCE: the share that carries spills (12 R265). -/
abbrev spillAllowance : Nat := 256

/-- The regulators of 12 R265: stack groups 1 to 4, the cellar 5, ports 20h to 3Fh. -/
def resources : List Nat := [1, 2, 3, 4, 5] ++ (List.range 32).map (· + 0x20)

namespace State

/-! ### What the checks count (12 R257) -/

/-- A CREATE of the clearing is held for a key opening (19 R403). -/
def held (s : State) (n : Nat) : Bool := (s.clr n).heldCreate

/-- The clearings the checks count: those created and not being destroyed, and held CREATEs as if accepted. -/
def counted (s : State) : List Nat :=
  (List.range 64).filter fun n => s.held n || (1 ≤ s.clearState n && s.clearState n ≤ 3)

/-- A counted clearing's cells on a grove, as a map. -/
def mapOf (s : State) (n g : Nat) : List Byte :=
  if s.held n then s.rdBlob (0x2001 + 16 * n) (g + 1) else s.frcBlob (0x2001 + 16 * n) (g + 1)

/-- A counted clearing's claim map on a grove. -/
def claimOf (s : State) (n g : Nat) : List Byte :=
  if s.held n then s.rdBlob (0x2002 + 16 * n) (g + 1) else s.frcBlob (0x2002 + 16 * n) (g + 1)

/-- The maps a CREATE or RESIZE of a clearing asks for. -/
def newMap (s : State) (n g : Nat) : List Byte := s.rdBlob (0x2001 + 16 * n) (g + 1)
/-- The claim maps it asks for. -/
def newClaim (s : State) (n g : Nat) : List Byte := s.rdBlob (0x2002 + 16 * n) (g + 1)

/-- The other counted clearings. -/
def others (s : State) (n : Nat) : List Nat := s.counted.filter (· != n)

/-- The groves a new map names. -/
def newGroves (s : State) (n : Nat) : List Nat := (List.range 16).filter fun g => !allZero (s.newMap n g)

/-- PRIORITY. -/
def priority (s : State) (n : Nat) : Nat := s.rd (0x2000 + 16 * n) 7
/-- SCRATCH_GRANULES as accepted. -/
def scratchQuota (s : State) (n : Nat) : Nat := s.rd (0x4040 + n) 1
/-- SIDE_GRANULES as accepted. -/
def sideQuota (s : State) (n : Nat) : Nat := s.rd (0x4040 + n) 2

/-- A rule of 12 R256 on walls is broken. -/
def wallBroken (s : State) (n : Nat) : Bool :=
  (List.range 16).any fun g =>
    let named := !allZero (s.newMap n g)
    let claims := !allZero (s.newClaim n g)
    let others := s.others n
    let walledHere := others.any fun m => s.walled m && !allZero (s.mapOf m g)
    if s.walled n then
      (named && (claims || (mapCells (s.newMap n g)).length != 256
        || others.any fun m => !allZero (s.mapOf m g) || !allZero (s.claimOf m g))) || (claims && walledHere)
    else (named || claims) && walledHere

/-- The clearings with a cell assigned, claimants included (12 R256). -/
def crowdOn (s : State) (g c : Nat) : Nat :=
  (s.counted.filter fun m => mapBit (s.mapOf m g) c || mapBit (s.claimOf m g) c).length

/-- A cell would hold more than 4 clearings, claimants included (12 R256). -/
def crowded (s : State) (n : Nat) : Bool :=
  (List.range 16).any fun g => (List.range 256).any fun c =>
    (mapBit (s.newMap n g) c || mapBit (s.newClaim n g) c)
      && 4 ≤ ((s.others n).filter fun m => mapBit (s.mapOf m g) c || mapBit (s.claimOf m g) c).length

/-- One of the first four rules of 12 R273 is broken on a cell. -/
def claimConflictAt (s : State) (n g c : Nat) : Bool :=
  let cell := mapBit (s.newMap n g) c
  let claim := mapBit (s.newClaim n g) c
  let on := (s.others n).filter fun m => mapBit (s.mapOf m g) c
  let claimants := (s.others n).filter fun m => mapBit (s.claimOf m g) c
  (claim && (cell || !claimants.isEmpty || on.any fun m => s.walled m || s.priority n ≤ s.priority m))
    || (cell && claimants.any fun m => s.priority m ≤ s.priority n)

/-- The first four rules of 12 R273. -/
def claimConflict (s : State) (n : Nat) : Bool :=
  (List.range 16).any fun g => (List.range 256).any fun c => s.claimConflictAt n g c

/-- The fifth rule of 12 R273: on each named cell, the free granules and those of lower-priority clearings cover the
claimant's. -/
def claimShort (s : State) (n : Nat) : Bool :=
  (List.range 16).any fun g => (mapCells (s.newClaim n g)).any fun c =>
    let on := (s.others n).filter fun m => mapBit (s.mapOf m g) c && s.priority n ≤ s.priority m
    let used (q : Nat → Nat) := (on.map q).foldl (· + ·) 0
    64 < used s.scratchQuota + s.scratchQuota n || 16 < used s.sideQuota + s.sideQuota n

/-! ### Memory quotas (11 R241, R242) -/

/-- Spill bytes of a map on a grove: 1 MiB + 64 KiB a cell, rounded up to a multiple of 6 MiB. -/
def spillOn (b : List Byte) : Nat := ceilDiv ((mapCells b).length * 0x110000) 0x600000 * 0x600000

/-- HBM_BYTES as counted: accepted or in force, whichever is larger, since a shrink releases when it takes effect. -/
def hbmBytes (s : State) (n : Nat) : Nat := max (s.rd (0x4040 + n) 3) (s.frc (0x4040 + n) 3)
/-- CELLAR_BYTES as counted. -/
def cellarBytes (s : State) (n : Nat) : Nat := max (s.rd (0x4040 + n) 4) (s.frc (0x4040 + n) 4)

/-- Spill bytes in a quadrant's stack group. -/
def spillIn (q : Nat) (map : Nat → List Byte) : Nat :=
  (((List.range 16).filter fun g => quadrant g == q).map fun g => spillOn (map g)).foldl (· + ·) 0

/-- Regions and spill areas do not fit, clearing `n` having the given map: a stack holds 32,752 assignable blocks, the
cellar 2 TiB − 32 MiB (11 R229). -/
def memoryShort (s : State) (n : Nat) (own : Nat → List Byte) : Bool :=
  let all := n :: s.others n
  let map (m g : Nat) := if m == n then own g else s.mapOf m g
  let hbm := (all.map s.hbmBytes).foldl (· + ·) 0
  let cellar := (all.map s.cellarBytes).foldl (· + ·) 0
  0x1FFFE000000 < cellar || (List.range 4).any fun q =>
    let spill := (all.map fun m => spillIn q (map m)).foldl (· + ·) 0
    32752 < hbm / 0x1800000 + spill / 0x600000

/-- The granule sums of 11 R241, rule 1, fail on some cell of clearing `n`, which has the given map. -/
def granulesShort (s : State) (n : Nat) (own : Nat → List Byte) : Bool :=
  (List.range 16).any fun g => (mapCells (own g)).any fun c =>
    let on := n :: (s.others n).filter fun m => mapBit (s.mapOf m g) c
    64 < (on.map s.scratchQuota).foldl (· + ·) 0 || 16 < (on.map s.sideQuota).foldl (· + ·) 0

/-! ### Regulators (12 R267) -/

/-- REG_SHARE as accepted. -/
def share (s : State) (n res : Nat) : Nat := s.rd (0x2410 + n) res

/-- TRANSIT_SHARE of a port, as one more clearing's share there (14 R302); 0 on any other resource. -/
def transitShare (s : State) (res : Nat) : Nat := if 0x20 ≤ res then s.rd (0x5000 + 16 * (res - 0x20)) 0xC else 0

/-- The shares of all clearings on a resource, those of absent clearings and a port's transit share included, sum to more
than 4,096. -/
def overShared (s : State) (res : Nat) : Bool :=
  4096 < ((List.range 64).map fun m => s.share m res).foldl (· + ·) (s.transitShare res)

/-- A clearing above PRIORITY 0 holds less than 256 on a stack group of a quadrant in which a claim map names a
cell. -/
def claimantPoor (s : State) (n : Nat) (claim : Nat → List Byte) : Bool :=
  0 < s.priority n && (List.range 16).any fun g => !allZero (claim g) && s.share n (1 + quadrant g) < 256

/-- A clearing with a region of a tier holds no share of it, so that its scrub would have no guaranteed rate. -/
def scrubUnfed (s : State) (n : Nat) : Bool :=
  (s.rd (0x4040 + n) 3 != 0 && [1, 2, 3, 4].any fun r => s.share n r == 0)
    || (s.rd (0x4040 + n) 4 != 0 && s.share n 5 == 0)

/-- Order 7 of 12 R257. -/
def overcommitted (s : State) (n : Nat) : Bool :=
  resources.any s.overShared || s.claimantPoor n (s.newClaim n) || s.scrubUnfed n

/-! ### Interference (12 R263, R272) -/

/-- q of a clearing: 512 times SHARE_WEIGHT. -/
def quantum (s : State) (n : Nat) : Nat := 512 * s.rd (0x2000 + 16 * n) 6

/-- G of a clearing and class on a cell for a choice of the clearings that count there (12 R263). -/
def pickBound (s : State) (cls : TileClass) (n : Nat) (others : List Nat) : Nat :=
  ceilDiv (pickMax cls) (s.quantum n) * (others.map fun o => s.quantum o + pickMax cls).foldl (· + ·) 0

/-- The G a plan records by cell for a class (12 R272). -/
def recordedG (p : PlanClearing) (cls : TileClass) : List (Nat × Nat) :=
  match cls with
  | .compute => p.gMax
  | .move => p.gMove

/-- Whether some accepted plan's recorded G of a class would be exceeded, with clearing `n`'s maps as given (12 R272): a
clearing counts on every cell of its map and of its claim map. -/
def overBudgetIn (s : State) (cls : TileClass) (n : Nat) (map claim : Nat → List Byte) : Bool :=
  s.counted.any fun m => match s.planOf m with
    | none => false
    | some p => p.deadlines && (recordedG p cls).any fun k =>
        let g := k.1 / 256
        let c := k.1 % 256
        let on := (n :: s.others n).filter fun o => o != m &&
          (if o == n then mapBit (map g) c || mapBit (claim g) c
            else mapBit (s.mapOf o g) c || mapBit (s.claimOf o g) c)
        k.2 < s.pickBound cls m on

/-- Whether some accepted plan's recorded G would be exceeded in either class. -/
def overBudget (s : State) (n : Nat) (map claim : Nat → List Byte) : Bool :=
  s.overBudgetIn .compute n map claim || s.overBudgetIn .move n map claim

/-- A clearing has a non-zero seed other than `seed`, accepted or in force (05 R93, R97). -/
def hasOther (s : State) (m seed : Nat) : Bool :=
  (s.rd 0x3110 m != 0 && s.rd 0x3110 m != seed) || (s.frc 0x3110 m != 0 && s.frc 0x3110 m != seed)

/-- An assignment of cells that would put two different seeds on one grove (05 R93). -/
def seedConflict (s : State) (n : Nat) : Bool :=
  let seed := s.rd 0x3110 n
  seed != 0 && (s.newGroves n).any fun g => (s.others n).any fun m => !allZero (s.mapOf m g) && s.hasOther m seed

/-- Orders 3 to 8 of 12 R257; a named grove that has failed refuses at order 3 (20 R432), and 05 R93 comes last. -/
def assignChecks (s : State) (n : Nat) : List (Bool × Name) :=
  [ (s.wallBroken n, .wallConflict),
    ((s.newGroves n).any fun g => (s.grove g).failed, .groveFailed),
    (s.crowded n, .cellCrowded),
    (s.claimConflict n, .claimConflict),
    (s.claimShort n, .claimShort),
    (s.granulesShort n (s.newMap n) || s.memoryShort n (s.newMap n), .quotaShort),
    (s.overcommitted n, .regOvercommit),
    (s.overBudget n (s.newMap n) (s.newClaim n), .shareBudget),
    (s.seedConflict n, .cultureConflict) ]

/-! ### Rings of a cell (12 R261) -/

/-- A clearing's place entered in ascending number. -/
def ringPut (l : List RingPlace) (x : RingPlace) : List RingPlace :=
  (l.filter fun y => y.clearing < x.clearing) ++ [x] ++ l.filter fun y => x.clearing < y.clearing

/-- The clearing after `n` in a ring, wrapping to the lowest. -/
def ringNext (l : List RingPlace) (n : Nat) : Option Nat :=
  match l.find? fun y => n < y.clearing with
  | some y => some y.clearing
  | none => l.head?.map (·.clearing)

/-- The assigned counters of a cell's 16, those of some clearings left out (03 R53). -/
def ctrsBut (drop : Nat → Bool) (l : List (Nat × Nat)) : List (Nat × Nat) := l.filter fun k => k.1 != 64 && !drop k.1
/-- A cell's assigned counters with free ones up to 16 (03 R42, R53). -/
def sixteen (l : List (Nat × Nat)) : List (Nat × Nat) := l ++ List.replicate (16 - l.length) (64, 0)

/-- The counters of a cell in the order their clearings were assigned to it, then the free ones (12 R256). -/
def sortCtrs (s : State) (g c : Nat) : State :=
  let x := s.cell g c
  s.setCell g c { x with
    ctrs := sixteen (x.assigned.flatMap (fun n => x.ctrs.filter fun k => k.1 == n)
      ++ ctrsBut x.assigned.contains x.ctrs) }

/-- The event counters an accepted plan declares for a clearing on a cell, at zero (12 R256). -/
def installCtrs (s : State) (n g c : Nat) : State :=
  let x := s.cell g c
  let k := match s.planOf n with
    | some p => (look p.counters (g * 256 + c)).getD 0
    | none => 0
  if k == 0 || x.ctrs.any (fun q => q.1 == n) then s
  else (s.setCell g c { x with ctrs := ctrsBut (fun _ => false) x.ctrs ++ List.replicate k (n, 0) }).sortCtrs g c

/-- A clearing added to a cell's rings: an empty ring's pointer is set to it and its turn begins. -/
def joinCell (s : State) (n g c : Nat) : State :=
  let x0 := s.cell g c
  let x := { x0 with assigned := if x0.assigned.contains n then x0.assigned else x0.assigned ++ [n] }
  if x.ring.any fun y => y.clearing == n then s
  else if x.ring.isEmpty then
    s.setCell g c { x with
      ring := [{ clearing := n, compute := s.quantum n, move := s.quantum n }], computePtr := n, movePtr := n }
  else s.setCell g c { x with ring := ringPut x.ring { clearing := n, compute := 0, move := 0 } }

/-- A clearing leaves a cell's rings: a pointer on it passes on, and the next clearing's turn begins. -/
def leaveCell (s : State) (n g c : Nat) : State :=
  let x := s.cell g c
  let ring := x.ring.filter fun y => y.clearing != n
  let next := (ringNext ring n).getD 64
  let onC := x.computePtr == n
  let onM := x.movePtr == n
  let ring1 := ring.map fun y =>
    if y.clearing == next then { y with
      compute := if onC then y.compute + s.quantum next else y.compute,
      move := if onM then y.move + s.quantum next else y.move }
    else y
  s.setCell g c { x with
    ring := ring1, computePtr := if onC then next else x.computePtr, movePtr := if onM then next else x.movePtr }

/-! ### Culture tables (05 R97) -/

/-- Tables without a holder are zeroed and EMPTY, one that is being filled too; a retired one stays FAILED (05 R97, R105).
TABLE_CRC keeps the CRC of the last good fill (DESIGN CHOICE, log entry 29). -/
def zeroTables (s : State) : State :=
  (List.range 16).foldl (fun s g =>
    let x := s.grove g
    if x.seed != 0 && s.tableHolders g == 0 && !x.tableRetired then
      s.setGrove g { x with seed := 0, tableState := 0, badWords := [] }
    else s) s

/-! ### Creation (12 R257, R258) -/

/-- The positions of clearing `n` whose values take effect at a boundary: arithmetic modes, seed, shares and their
mode, quotas and windows, turning, key-value, checkpoint, health and recovery entries. -/
def forcePositions (n : Nat) : List (Nat × Nat) :=
  [(0x3020, n), (0x3021, n), (0x3022, n), (0x3023, n), (0x3110, n), (0x2450, n)]
    ++ resources.map (fun r => (0x2410 + n, r))
    ++ (List.range 6).map (fun k => (0x4040 + n, k + 1))
    ++ [(0x6040 + n, 1), (0x6040 + n, 2), (0x4140 + n, 1), (0x4140 + n, 6), (0x4140 + n, 7), (0x4140 + n, 8),
        (0x4140 + n, 0xA), (0x4080 + n, 1), (0x7090 + n, 1)]
    ++ (List.range 8).flatMap fun m => (List.range 5).map fun k => (0x7090 + n, 16 * (m + 1) + k)

/-- Values put in force. -/
def enforce (s : State) (l : List (Nat × Nat)) : State := l.foldl (fun s p => s.setFrc p.1 p.2 (s.rd p.1 p.2)) s

/-- The maps of a clearing put in force, and its spill area reserved (11 R242). -/
def enforceMaps (s : State) (n : Nat) : State :=
  let s1 := (List.range 16).foldl (fun s g =>
    (s.setFrcBlob (0x2001 + 16 * n) (g + 1) (s.newMap n g)).setFrcBlob (0x2002 + 16 * n) (g + 1) (s.newClaim n g)) s
  s1.wr (0x4040 + n) 7 (((List.range 16).map fun g => spillOn (s.newMap n g)).foldl (· + ·) 0)

/-- Every cell of a clearing, as (grove, logical cell). -/
def cellsOf (s : State) (n : Nat) : List (Nat × Nat) :=
  (List.range 16).flatMap fun g => (s.cellsOn n g).map fun c => (g, c)

/-- An accepted CREATE (12 R258, steps 1 to 3): CREATING. -/
def acceptCreate (s : State) (n : Nat) : State :=
  let s1 := s.setClr n { s.clr n with heldCreate := false, idleSince := s.time }
  let s2 := ((s1.setClearState n 1).enforceMaps n).enforce (forcePositions n)
  let s3 := s2.installKey n
  (s3.cellsOf n).foldl (fun s p => (s.joinCell n p.1 p.2).assignGranules n p.1 p.2) s3

/-- Order 9 of 12 R257 refuses: MEMORY_ENCRYPT is 01h and no key has been delivered. -/
def keyMissing (s : State) (n : Nat) : Bool := s.rd 0x4000 7 == 1 && (look s.sec.delivered n).isNone

/-- A command on a clearing is refused with CLEARING_BUSY before its checks (12 R257). -/
def busy (s : State) (n : Nat) : Bool := s.held n || s.clearState n == 1 || s.clearState n == 4

/-- TENANT, JOB or JOB_ROLE is zero, or CELL_MAP is empty (12 R257, order 2). -/
def incomplete (s : State) (n : Nat) : Bool :=
  s.tenantOf n == 0 || s.jobOf n == 0 || s.jobRole n == 0 || (s.newGroves n).isEmpty

/-- CREATE (12 R257; 19 R403). -/
def createCmd (s : State) (n : Nat) : Except Name State :=
  let bad := firstBad ([(s.busy n, .clearingBusy), (s.exists? n, .clearingExists), (s.incomplete n, .clearingIncomplete)]
    ++ s.assignChecks n)
  if bad != .ok then .error bad
  else if (look s.sec.opening n).isSome then .ok (s.setClr n { s.clr n with heldCreate := true })
  else if s.keyMissing n then .error .keyAbsent
  else .ok (s.acceptCreate n)

/-- The counters of a clearing, zeroed when it is created (12 R258, step 5): every position it can only read. -/
def counterKeys (n : Nat) : List (Nat × Nat) :=
  (List.range 16).flatMap (fun g => [(0x6001 + g, n), (0x6011 + g, n)])
    ++ (List.range 7).map (fun k => (0x6021 + k, n))
    ++ resources.flatMap (fun r => [(0x2460 + n, r), (0x24A0 + n, r)])
    ++ ([8, 9, 0xA, 0xB, 0xC].map fun k => (0x4040 + n, k))
    ++ (List.range 16).map (fun k => (0x60C0 + n, k + 1))
    ++ (List.range 16).map (fun k => (0x6040 + n, k + 8))
    ++ (List.range 16).map (fun k => (0x6080 + n, k + 1))
    ++ (List.range 6).map (fun k => (0x4140 + n, k + 0x10))
    ++ (List.range 4).map (fun k => (0x4080 + n, k + 0x10))
    ++ (List.range 5).map (fun k => (0x5220 + n, k + 3))
    ++ (List.range 66).map (fun k => (0x7010 + n, k)) ++ (List.range 80).map (fun k => (0x7050 + n, k))
    ++ [(0x7090 + n, 4), (0x9080 + n, 0xE), (0x9080 + n, 0xF), (0x9080 + n, 0x10)]

/-- Counters read zero, whether published or running. -/
def zeroKeys (s : State) (l : List (Nat × Nat)) : State :=
  { s with
    dict := l.foldl (fun m p => del m (keyOf p.1 p.2)) s.dict,
    live := l.foldl (fun m p => del m (keyOf p.1 p.2)) s.live,
    blobs := l.foldl (fun m p => del m (keyOf p.1 p.2)) s.blobs }

/-- The running beats of a clearing by grove and cell, kept at index 70000h + 16 n + g, dropped (12 R264). -/
def dropBeats (s : State) (n : Nat) : State := { s with live := s.live.filter fun p => p.1 / 4096 != 0x7000 + n }

/-- A clearing's memory scrubbed: every line of both regions and of the spill area written as zero. -/
def scrubRegions (s : State) (n : Nat) : State :=
  ((s.wipe (regionAddr 1 n 0) (2 ^ 52)).wipe (regionAddr 2 n 0) (2 ^ 52)).wipe (spillArea n 0) (2 ^ 52)

/-- The end of a creation (12 R258, steps 3 to 5): granules that a destruction has freed since are given, the scrub is
charged to the new clearing, its counters are zero, and it is IDLE. -/
def endCreate (s : State) (n : Nat) : State :=
  let z := (s.cellsOf n).foldl (fun s p => s.assignGranules n p.1 p.2) (s.scrubRegions n)
  let charged := [1, 2, 3, 4].foldl (fun s r => s.charge n r 0 (s.frc (0x4040 + n) 3 / 4)) z
  let s1 := charged.charge n 5 0 (s.frc (0x4040 + n) 4)
  let s2 := (s1.zeroKeys (counterKeys n)).dropBeats n
  (s2.setClearState n 2).post .clearingCreated n

/-! ### Resizing (12 R259) -/

/-- Whether a RESIZE removes a cell or a claim cell. -/
def removesCells (s : State) (n : Nat) : Bool :=
  (List.range 16).any fun g => (List.range 256).any fun c =>
    (s.holds n g c && !mapBit (s.newMap n g) c) || (s.mayClaim n g c && !mapBit (s.newClaim n g) c)

/-- Spilled slots of a clearing moved to the ranks its map in force gives them now; `old` is the state under the map before
(11 R242; DEDUCED, log entry 23). They go by way of a part of the spill area that no slot takes. -/
def moveSlots (s old : State) (n : Nat) : State :=
  let l := (s.cellsOf n).filter fun p =>
    old.holds n p.1 p.2 && s.spilled n p.1 p.2 && old.spillRank n p.1 p.2 != s.spillRank n p.1 p.2
  let spare (p : Nat × Nat) : Nat := spillArea n (2 ^ 39 + spillOff p.1 p.2 0)
  let s1 := l.foldl (fun s p => s.moveMem (old.spillAddr n p.1 p.2 0) 0x110000 (spare p)) s
  l.foldl (fun s p => s.moveMem (spare p) 0x110000 (s.spillAddr n p.1 p.2 0)) s1

/-- The cells a clearing holds by claim. -/
def claimedBy (s : State) (n : Nat) : List (Nat × Nat) :=
  (s.cells.filter fun p => p.2.claimed == some n).map fun p => (p.1 / 256, p.1 % 256)

/-- A clearing leaves a cell: its slots, its granules, its place in the rings and what is parked of it. -/
def vacate (s : State) (n g c : Nat) : State :=
  let x := s.cell g c
  let s1 := s.setCell g c { x with
    slots := x.slots.filter fun t => t.desc.clearing != n || t.st == .running,
    held := x.held.filter fun d => d.clearing != n,
    ctrs := sixteen (ctrsBut (· == n) x.ctrs),
    assigned := x.assigned.filter (· != n),
    parked := x.parked.filter fun q => q.victim != n,
    claimed := if x.claimed == some n then none else x.claimed }
  (s1.releaseGranules n g c).leaveCell n g c

/-- An accepted RESIZE. Cells added to an ACTIVE clearing get their granules at its next boundary; a cell held by a
claim that the new claim map does not name is given up. -/
def acceptResize (s : State) (n : Nat) : State :=
  let old := s.cellsOf n
  let s1 := s.enforceMaps n
  let new := s1.cellsOf n
  let unclaimed := (s.claimedBy n).filter fun p => !s1.mayClaim n p.1 p.2 && !new.contains p
  let gone := old.filter (fun p => !new.contains p) ++ unclaimed
  let s2 := ((gone.foldl (fun s p => s.vacate n p.1 p.2) s).enforceMaps n).moveSlots s n
  let s3 := (new.filter fun p => !old.contains p).foldl (fun s p => s.joinCell n p.1 p.2) s2
  let s4 := if s.clearState n == 2 then new.foldl (fun s p => s.assignGranules n p.1 p.2) s3
    else s3.setClr n { s3.clr n with addCells := true }
  s4.zeroTables

/-- RESIZE (12 R259). -/
def resizeCmd (s : State) (n : Nat) : Except Name State :=
  let bad := firstBad ([(s.busy n, .clearingBusy), (!s.exists? n, .clearingAbsent)] ++ s.assignChecks n
    ++ [(s.clearState n == 3 && s.removesCells n, .clearingInUse)])
  if bad == .ok then .ok (s.acceptResize n) else .error bad

/-! ### Claims (12 R274, R276) -/

/-- The claim cells of a clearing's plan on a grove that it does not hold. -/
def wanted (s : State) (n g : Nat) : List Nat :=
  match s.planOf n with
  | none => []
  | some p => ((p.claimCells.filter fun k => k / 256 == g).map (· % 256)).filter fun c =>
      s.mayClaim n g c && (s.cell g c).claimed != some n

/-- The clearings of a cell in the order victims are taken: ascending PRIORITY, then descending number. -/
def victimOrder (s : State) (n g c : Nat) : List Nat :=
  let on := (s.clearingsOn g c).filter (· != n)
  [0, 1, 2, 3].flatMap fun p => (on.filter fun m => s.priority m == p).reverse

/-- Victims taken until their granules and the free ones cover the claim (12 R274, step 1). -/
def takeVictims (x : Cell) (needS needD : Nat) : List Nat → Nat → Nat → List Nat
  | [], _, _ => []
  | v :: rest, fs, fd =>
    if needS ≤ fs && needD ≤ fd then []
    else v :: takeVictims x needS needD rest (fs + (ownedBy x.scratchOwn v).length) (fd + (ownedBy x.sideOwn v).length)

/-- The victims of a claim on a cell. -/
def victims (s : State) (n g c : Nat) : List Nat :=
  let x := s.cell g c
  takeVictims x (s.frc (0x4040 + n) 1) (s.frc (0x4040 + n) 2) (s.victimOrder n g c) (freeScratch x).length
    (freeSide x).length

/-- Whether a clearing is being claimed from a cell: it picks no further tile there (12 R274, step 2). -/
def beingClaimed (s : State) (v g c : Nat) : Bool :=
  s.present.any fun n => (s.clr n).inStep && (s.wanted n g).contains c && (s.victims n g c).contains v

/-- The deficit of a place in the class's ring. -/
def deficit (cls : TileClass) (p : RingPlace) : Int := if cls == .move then p.move else p.compute
/-- It set. -/
def setDeficit (cls : TileClass) (p : RingPlace) (v : Int) : RingPlace :=
  if cls == .move then { p with move := v } else { p with compute := v }

/-- Beats charged to a clearing on a cell (12 R262, R264). -/
def chargeBeats (s : State) (g c n : Nat) (cls : TileClass) (beats : Nat) : State :=
  let x := s.cell g c
  let s1 := s.setCell g c { x with
    ring := x.ring.map fun y => if y.clearing == n then setDeficit cls y (deficit cls y - beats) else y }
  let s2 := s1.bumpLive (0x6001 + g) n beats
  let key := (0x70000 + n * 16 + g) * 256 + c
  let s3 : State := { s2 with live := ins s2.live key ((look s2.live key).getD 0 + beats) }
  let gv := s3.grove g
  match look gv.multi c with
  | some b => s3.setGrove g { gv with multi := ins gv.multi c (b + beats) }
  | none => s3

/-- A victim's granules on a cell brought to their spill slots and zeroed, unless they lie there already. -/
def spillVictim (s : State) (v g c : Nat) (sg dg : List Nat) : State :=
  if s.spilledOut g c then s
  else
    let s1 := sg.foldl (fun s i => s.copyMem (s.scrAddr g c (i * 0x4000)) 0x4000 (s.spillAddr v g c (i * 0x4000))) s
    let s2 := dg.foldl
      (fun s i => s.copyMem (s.sideAddr g c (i * 4096)) 4096 (s.spillAddr v g c (0x100000 + i * 4096))) s1
    (s2.zeroScratch g c sg).zeroSide g c dg

/-- The bytes of a victim's spill that the claimant's own bucket carries: SPILL_ALLOWANCE beside the victim's share
(12 R274, R275; DEDUCED, log entry 19). -/
def spillLent (s : State) (v res bytes : Nat) : Nat :=
  bytes * spillAllowance / (s.frc (0x2410 + v) res + spillAllowance)

/-- The regulator's bytes of a spill: the claimant lends its part, the victim carries the rest. -/
def chargeSpill (s : State) (n v g bytes : Nat) : State :=
  let lent := s.spillLent v (1 + quadrant g) bytes
  (s.charge n (1 + quadrant g) 0 lent).charge v (1 + quadrant g) 0 (bytes - lent)

/-- A victim parked on a cell: its context saved, its granules spilled, released and zeroed (12 R274, steps 3, 4). -/
def parkVictim (s : State) (n v g c : Nat) : State :=
  let x := s.cell g c
  let place := (x.ring.find? fun y => y.clearing == v).getD { clearing := v, compute := 0, move := 0 }
  let sg := ownedBy x.scratchOwn v
  let dg := ownedBy x.sideOwn v
  let p : Parked := {
    claimant := n, victim := v, compute := place.compute, move := place.move,
    slots := x.slots.filter fun t => t.desc.clearing == v,
    ctrs := x.ctrs.filter fun k => k.1 == v, scratch := sg, side := dg }
  let s1 := (s.spillVictim v g c sg dg).chargeSpill n v g (sg.length * 0x4000 + dg.length * 4096)
  let y := s1.cell g c
  let s2 := s1.setCell g c { y with
    slots := y.slots.filter fun t => t.desc.clearing != v,
    ctrs := sixteen (ctrsBut (· == v) y.ctrs),
    parked := y.parked ++ [p] }
  (((s2.freeScratchOf g c sg).freeSideOf g c dg).leaveCell v g c).bumpLive 0x6022 v 1

/-- One cell claimed (12 R274, steps 1 to 5): the claimant is charged the 64 beats of the park (R262). -/
def claimCell (s : State) (n g c : Nat) : State :=
  let l := s.victims n g c
  let s1 := l.foldl (fun s v => s.parkVictim n v g c) s
  let s2 := if l.isEmpty then s1 else s1.chargeBeats g c n .compute 64
  let s3 := (s2.setCell g c { s2.cell g c with claimed := some n }).joinCell n g c
  (((s3.assignGranules n g c).installCtrs n g c).bumpLive 0x6021 n 1).post .claimTaken n .ok 0 (words [g, c])

/-- No victim of a claim on a cell runs a tile there. -/
def claimReady (s : State) (n g c : Nat) : Bool :=
  !((s.cell g c).slots.any fun t => t.st == .running && (s.victims n g c).contains t.desc.clearing)

/-- A claimant gives up its claimed cells: its granules are zeroed (12 R276). -/
def dropClaims (s : State) (n : Nat) : State := (s.claimedBy n).foldl (fun s p => s.vacate n p.1 p.2) s

/-- A parked victim restored: granules reloaded, so that their spill slots read zero (03 R55), context back (12 R276). A
destroyed victim's part is skipped. -/
def unpark (s : State) (g c : Nat) (p : Parked) : State :=
  let x := s.cell g c
  let x1 := { x with
    parked := x.parked.filter fun q => q.claimant != p.claimant || q.victim != p.victim,
    scratchOwn := p.scratch.foldl (fun m i => ins m i p.victim) x.scratchOwn,
    sideOwn := p.side.foldl (fun m i => ins m i p.victim) x.sideOwn,
    slots := x.slots ++ p.slots,
    ctrs := ctrsBut (fun _ => false) x.ctrs ++ p.ctrs,
    ring := ringPut x.ring { clearing := p.victim, compute := p.compute, move := p.move },
    computePtr := if x.ring.isEmpty then p.victim else x.computePtr,
    movePtr := if x.ring.isEmpty then p.victim else x.movePtr }
  let s1 := s.setCell g c x1
  let s2 := p.scratch.foldl
    (fun s i => s.moveMem (s.spillAddr p.victim g c (i * 0x4000)) 0x4000 (s.scrAddr g c (i * 0x4000))) s1
  let s3 := p.side.foldl
    (fun s i => s.moveMem (s.spillAddr p.victim g c (0x100000 + i * 4096)) 4096 (s.sideAddr g c (i * 4096))) s2
  (s3.charge p.victim (1 + quadrant g) 0 (p.scratch.length * 0x4000 + p.side.length * 4096)).sortCtrs g c

/-- The parked victims of a claimant, with their cells. -/
def parkedOf (s : State) (n : Nat) : List (Nat × Nat × Parked) :=
  s.cells.flatMap fun p => (p.2.parked.filter fun q => q.claimant == n).map fun q => (p.1 / 256, p.1 % 256, q)

/-- Every victim of a claimant's released claims restored. -/
def restoreVictims (s : State) (n : Nat) : State :=
  (s.parkedOf n).foldl (fun s p => if (s.cell p.1 p.2.1).claimed == some n then s else s.unpark p.1 p.2.1 p.2.2) s

/-! ### Destruction (12 R260) -/

/-- Programs of the program store that only a clearing named (03 R475). -/
def dropPrograms (s : State) (n : Nat) : State :=
  { s with groves := s.groves.map fun p =>
      let users := p.2.progUsers.map fun u => (u.1, u.2.filter (· != n))
      let gone := (users.filter fun u => u.2.isEmpty).map (·.1)
      (p.1, { p.2 with
        progs := p.2.progs.filter fun q => !gone.contains q.1,
        progUsers := users.filter fun u => !u.2.isEmpty }) }

/-- The index of a store entry. -/
def mpIdx (e : Nat) : Nat := 0x3240 + e
/-- MP_STATE: 0 EMPTY, 1 LOADING, 2 LOADED, 3 IN_USE, 4 INVALID. -/
def mpState (s : State) (e : Nat) : Nat := s.rd (mpIdx e) 4
/-- Entries IN_USE that no accepted plan names any more become LOADED (06 R129). -/
def releaseMicro (s : State) : State :=
  (List.range 64).foldl (fun s e =>
    let used := s.clearings.any fun p => match p.2.planGen with
      | some g => g.micro.contains e
      | none => false
    if s.mpState e == 3 && !used then s.wr (mpIdx e) 4 2 else s) s

/-- A clearing's plan dropped, with the event counters it declared; its micro-programs are released with their last
user. -/
def dropPlan (s : State) (n : Nat) : State :=
  let clean (x : Cell) : Cell := { x with
    ctrs := sixteen (ctrsBut (· == n) x.ctrs),
    parked := x.parked.map fun q => if q.victim == n then { q with ctrs := [] } else q }
  let s1 := { s with cells := s.cells.map fun (p : Nat × Cell) => (p.1, clean p.2) }
  ((s1.dropPrograms n).setClr n
    { s1.clr n with plan := none, planGen := none, stopped := [], mismatch := [] }).releaseMicro

/-- The tiles of a clearing that do not run leave every cell, with the descriptors the wardens hold for it and
those of its parked contexts. -/
def dropTiles (s : State) (n : Nat) : State :=
  { s with cells := s.cells.map fun p =>
      (p.1, { p.2 with
        slots := p.2.slots.filter fun t => t.desc.clearing != n || t.st == .running,
        held := p.2.held.filter fun d => d.clearing != n,
        parked := p.2.parked.map fun q => if q.victim == n then { q with slots := [] } else q }) }

/-- What is parked of a clearing forgotten: a destroyed victim's part is skipped (12 R276). -/
def dropParked (s : State) (n : Nat) : State :=
  { s with cells := s.cells.map fun p => (p.1, { p.2 with parked := p.2.parked.filter fun q => q.victim != n }) }

/-- A clearing's outstanding remote requests abandoned: a reply that arrives later finds none (12 R260, step 4). -/
def dropRemotes (s : State) (n : Nat) : State := { s with remotes := s.remotes.filter fun r => r.clearing != n }

/-- An accepted DESTROY (12 R260, steps 1 to 4): DESTROYING. Tiles that run end at their boundary. -/
def beginDestroy (s : State) (n : Nat) : State :=
  let s1 := ((s.setClearState n 4).dropTiles n).dropParked n
  let s2 := s1.cancelAll n
  let s3 := match s2.channelOf n with
    | some k => s2.failSnapshot k
    | none => s2
  s3.dropRemotes n

/-- The claims of a destroyed clearing released as under 12 R276 (R260, step 5). -/
def releaseClaims (s : State) (n : Nat) : State :=
  if (s.claimedBy n).isEmpty && (s.parkedOf n).isEmpty then s
  else ((s.dropClaims n).restoreVictims n).post .claimReleased n

/-- DESTROY (12 R260). -/
def destroyCmd (s : State) (n : Nat) : Except Name State :=
  let bad := firstBad [(s.busy n, .clearingBusy), (!s.exists? n, .clearingAbsent)]
  if bad == .ok then .ok (s.beginDestroy n) else .error bad

/-- Whether a position of the dictionary belongs to a clearing. -/
def belongs (n key : Nat) : Bool :=
  match entryAt (key / 256) (key % 256) with
  | some e => e.clearing (key / 256) (key % 256) == some n
  | none => false

/-- Every entry of a clearing's positions returns to its default (12 R260, step 8). -/
def clearEntries (s : State) (n : Nat) : State :=
  { s with
    dict := s.dict.filter fun p => !belongs n p.1,
    force := s.force.filter fun p => !belongs n p.1,
    live := s.live.filter fun p => !belongs n p.1,
    blobs := s.blobs.filter fun p => !belongs n p.1,
    blobForce := s.blobForce.filter fun p => !belongs n p.1 }

/-- A clearing's trigger counters, descriptors and collectives on the link dies freed. -/
def freeTriggers (s : State) (n : Nat) : State :=
  { s with
    linkDies := s.linkDies.map (fun p => (p.1, { p.2 with
      ctrs := p.2.ctrs.filter fun k => look p.2.owners k.1 != some n,
      owners := p.2.owners.filter fun o => o.2 != n,
      slots := p.2.slots.filter fun t => t.2.clearing != n })),
    colls := s.colls.filter fun p => p.1 / 4096 != n,
    waitingChunks := s.waitingChunks.filter fun w => w.line.clearing != n }

/-- A clearing's record, its regulators' buckets and the plans under assembly for it removed. -/
def dropRecord (s : State) (n : Nat) : State :=
  { s with
    clearings := del s.clearings n,
    buckets := s.buckets.filter fun p => p.1 / 256 != n,
    hub := { s.hub with plans := s.hub.plans.filter fun a => a.clearing != n } }

/-- Granules freed on cells go to the clearings created while their owner still held them (12 R258, step 3). -/
def topUp (s : State) (cells : List Nat) : State :=
  cells.foldl (fun s k => ((s.clearingsOn (k / 256) (k % 256)).filter fun m => s.clearState m == 2 || s.clearState m == 3).foldl
    (fun s m => s.assignGranules m (k / 256) (k % 256)) s) s

/-- The end of a destruction, once no tile of the clearing runs (12 R260, steps 4 to 8): what a last tile still asked is
abandoned, claims released, granules zeroed, key erased, regions unassigned, entries at their defaults, ABSENT. -/
def endDestroy (s : State) (n : Nat) : State :=
  let t := s.tenantOf n
  let paused := (s.vat n).paused.length
  let s0 := (s.dropRemotes n).releaseClaims n
  let s1 := s0.cells.foldl (fun s p => s.vacate n (p.1 / 256) (p.1 % 256)) s0
  let s2 := (((s1.dropPlan n).eraseKey n t).freeTriggers n).scrubRegions n
  let s3 := (s2.unreserve n).wr 0x4C10 3 (s2.rd 0x4C10 3 - paused)
  let s4 := (((s3.dropRecord n).clearEntries n).zeroTables).topUp
    ((s.cells.filter fun p => !(ownedBy p.2.scratchOwn n).isEmpty || !(ownedBy p.2.sideOwn n).isEmpty).map (·.1))
  (s4.post .clearingDestroyed n).closeKeyless

/-- A tile of the clearing runs on some cell. -/
def hasRunning (s : State) (n : Nat) : Bool :=
  s.cells.any fun p => p.2.slots.any fun t => t.st == .running && t.desc.clearing == n

/-- Every clearing destroyed together: DESTROYING at once, their CLEARING_DESTROYED events in ascending number
(19 R419, step 4). -/
def destroyAll (s : State) : State :=
  let l := s.present
  let s1 := l.foldl (fun s n => if s.clearState n == 4 then s else s.beginDestroy n) s
  let s2 := { s1 with cells := s1.cells.map fun p => (p.1, { p.2 with slots := [] }) }
  l.foldl (fun s n => s.endDestroy n) s2

/-- Held CREATEs end with their openings: no key is left to open (19 R403, R419). -/
def refuseHeld (s : State) : State :=
  ((List.range 64).filter s.held).foldl (fun s n =>
    (s.setClr n { s.clr n with heldCreate := false }).post .clearingRefused n .keyAbsent) s

end State

/-! ### The commands -/

/-- CLEARING_CREATED: the scrub has ended (12 R258). -/
def execClearingCreated (n : Nat) (s : State) : Ans :=
  inRange (wfClearing n) s (onlyIf (s.clearState n == 1) s (s.endCreate n))

/-- CLEARING_DESTROYED: teardown ends, once no tile of the clearing runs (12 R260). -/
def execClearingDestroyed (n : Nat) (s : State) : Ans :=
  inRange (wfClearing n) s (onlyIf (s.clearState n == 4 && !s.hasRunning n) s (s.endDestroy n))

/-- KEY_OPENING_DONE: the opening ends, and a held CREATE proceeds or is refused (19 R403). -/
def execKeyOpeningDone (n : Nat) (s : State) : Ans :=
  let k := match look s.sec.opening n with
    | none => s
    | some v =>
      let s1 := s.openKey n v
      if !s.held n then s1
      else if s1.keyMissing n then
        (s1.setClr n { s1.clr n with heldCreate := false }).post .clearingRefused n .keyAbsent
      else s1.acceptCreate n
  inRange (wfClearing n) s k

/-- CRYPTO_ERROR: a self-test failed (19 R419). -/
def execCryptoError (s : State) : Ans :=
  whenOn s ((s.zeroise.refuseHeld.destroyAll).postAll .cryptoError)

/-- CLAIM_TAKEN: the victims' spill on a grove ends, and the claimant's granules are assigned on each cell it claims there
(12 R274). `ns` is the time since the claim's start. -/
def execClaimTaken (n g ns : Nat) (s : State) : Ans :=
  let cells := s.wanted n g
  let may := s.clearState n == 3 && (s.clr n).inStep && !cells.isEmpty && cells.all fun c => s.claimReady n g c
  let s1 := cells.foldl (fun s c => s.claimCell n g c) s
  let s2 := { s1 with live := ins s1.live (keyOf 0x6023 n) (max (s1.liveOf 0x6023 n) (min ns (pow2 32 - 1))) }
  inRange (wfClearing n && wfGrove g) s (onlyIf may s s2)

/-- CLAIM_HOLD_EXPIRE: a claimant that has started no step for CLAIM_HOLD_US has its claims released at its step
boundary (12 R276). With no victim to reload the release is complete. -/
def execClaimHoldExpire (n : Nat) (s : State) : Ans :=
  let c := s.clr n
  let due := !c.inStep && c.idleSince + s.rd (0x2000 + 16 * n) 8 * 1000 ≤ s.time && !(s.claimedBy n).isEmpty
  let s1 := s.dropClaims n
  inRange (wfClearing n) s (onlyIf due s (if (s1.parkedOf n).isEmpty then s1.post .claimReleased n else s1))

/-- CLAIM_RELEASED: the victims' granules are reloaded and their contexts restored (12 R276). -/
def execClaimReleased (n : Nat) (s : State) : Ans :=
  let due := (s.parkedOf n).any fun p => (s.cell p.1 p.2.1).claimed != some n
  inRange (wfClearing n) s (onlyIf due s ((s.restoreVictims n).post .claimReleased n))

end Sys2Proof.Machine
end

