-- ==== Sys2Proof/Machine/Turning.lean ====
section
/-! DEFINITION. Turning: versions and their sources on the press, staging, the front, failures and loads on the vats
(10 R208 to R227). -/

namespace Sys2Proof.Machine

/-- Blocks of a unit of `bytes` bytes that lie in stack `k` (10 R212). -/
def unitBlocks (bytes k : Nat) : Nat := (ceilDiv bytes blockBytes + 11 - k) / 12

/-! ### Shard descriptors (10 R214) -/

/-- A shard descriptor read from its 32 bytes. -/
def readShard (b : List Byte) : ShardDesc :=
  let fl := field b 9 1
  { unit := field b 0 2 % 1024, shard := field b 2 2, srcModule := field b 4 2 % 16384, dstModule := field b 6 2 % 16384,
    dstClearing := field b 8 1 % 64, last := fl.testBit 1, isLocal := fl.testBit 0, length := field b 12 4,
    srcOffset := field b 16 8, dstOffset := field b 24 4 }

/-- A reserved bit of a descriptor is set. -/
def shardReserved (b : List Byte) : Bool :=
  1024 ≤ field b 0 2 || 16384 ≤ field b 4 2 || 16384 ≤ field b 6 2 || 64 ≤ field b 8 1 || 4 ≤ field b 9 1
    || field b 10 2 != 0 || field b 28 4 != 0 || b.length != 32

/-- A descriptor's lengths and offsets keep the limits, and LOCAL says whether source and destination are one module. -/
def shardFits (d : ShardDesc) : Bool :=
  64 ≤ d.length && d.length ≤ 0x4000000 && d.length % 64 == 0 && d.dstOffset % 64 == 0
    && d.isLocal == (d.srcModule == d.dstModule)

/-- Within a unit on a module and clearing, shard numbers rise with their offsets and LAST marks the highest. -/
def shardOrder (l : List ShardDesc) : Bool :=
  l.all fun d =>
    let mine := l.filter fun e => e.unit == d.unit && e.dstModule == d.dstModule && e.dstClearing == d.dstClearing
    (mine.all fun e => decide (d.shard < e.shard) == decide (d.dstOffset < e.dstOffset))
      && d.last == mine.all fun e => e.shard ≤ d.shard

/-- The status of a plan's shard descriptors: RESERVED_SET for a reserved bit, VALUE_RANGE for a value outside its
limits (00 R9; DESIGN CHOICE, log entry 25). -/
def shardsBad (p : PlanClearing) : List (Bool × Name) :=
  let l := p.shards.map readShard
  [(p.shards.any shardReserved, .reservedSet), (!(l.all shardFits) || !shardOrder l, .valueRange)]

/-! ### Images in blocks (10 R212) -/

/-- The pieces of a range of an image whose blocks are given: offset in the range, region offset, bytes. -/
def imagePieces (blocks : List Nat) (off len : Nat) : List (Nat × Nat × Nat) :=
  (blocksIn off len).map fun b =>
    let lo := max off (b * blockBytes)
    let hi := min (off + len) ((b + 1) * blockBytes)
    (lo - off, blocks.getD b 0 * blockBytes + lo % blockBytes, hi - lo)

/-- The region offset of a byte of an image. -/
def imageOff (blocks : List Nat) (o : Nat) : Nat := blocks.getD (o / blockBytes) 0 * blockBytes + o % blockBytes

namespace State

/-- A clearing's turning state. -/
def turn (s : State) (n : Nat) : Turn := (s.clr n).turn
/-- A clearing's turning state set. -/
def setTurn (s : State) (n : Nat) (t : Turn) : State := s.setClr n { s.clr n with turn := t }
/-- TURN_STATE: 0 IDLE, 1 STAGING, 2 FRONT, 3 FAILED, 4 LOADING. -/
def turnState (s : State) (n : Nat) : Nat := s.rd (0x6040 + n) 3
/-- TURN_STATE set. -/
def setTurnState (s : State) (n v : Nat) : State := s.wr (0x6040 + n) 3 v
/-- A turning unit's record. -/
def unit (s : State) (n u : Nat) : TUnit := (look (s.turn n).units u).getD {}
/-- A turning unit's record set. -/
def setUnit (s : State) (n u : Nat) (x : TUnit) : State :=
  s.setTurn n { s.turn n with units := ins (s.turn n).units u x }
/-- The image bytes of each unit, by the plan. -/
def unitList (s : State) (n : Nat) : List Nat :=
  match s.planOf n with
  | some p => p.units
  | none => []
/-- The shard descriptors of a clearing's plan. -/
def shardList (s : State) (n : Nat) : List ShardDesc :=
  match s.planOf n with
  | some p => p.shards.map readShard
  | none => []
/-- The shards of a unit for this vat clearing, by the plan (10 R214). -/
def shardsOf (s : State) (n u : Nat) : List ShardDesc :=
  (s.shardList n).filter fun d => d.unit == u && d.dstClearing == n && d.dstModule == s.ownModule

/-- The vat clearings of a press clearing's job on this module. -/
def vatsOf (s : State) (n : Nat) : List Nat :=
  s.present.filter fun m => s.sameJob n m && s.jobRole m == 2

/-! ### Versions on the press (10 R209, R210) -/

/-- Every unit's staging record cleared; its home stays. -/
def clearStaging (t : Turn) : Turn :=
  { t with
    reported := false,
    units := t.units.map fun p =>
      (p.1, ({ home := p.2.home, held := p.2.held, refetch := p.2.refetch, refetched := p.2.refetched } : TUnit)) }

/-- A vat starts to stage a version (10 R216, R220). -/
def startTurn (s : State) (v m : Nat) : State :=
  if s.turnState m == 0 && s.jobRole m == 2 then
    let t := clearStaging (s.turn m)
    let s1 := s.setTurn m { t with version := v, frontStarted := false, draining := s.frc (0x6040 + m) 1 == 1 }
    ((s1.setTurnState m 1).wr (0x6040 + m) 6 0).wr (0x6040 + m) 7 0
  else s

/-- The clearing whose record follows the sources of a job on this module: its press, or, where the module holds none, its
lowest-numbered vat, whose keeper is told of each version (DESIGN CHOICE, log entry 25). -/
def sourceKeeper (s : State) (n : Nat) : Option Nat :=
  match s.present.find? fun m => s.sameJob n m && s.jobRole m == 1 with
  | some m => some m
  | none => (s.vatsOf n).head?

/-- The lowest of the press's three source places that no held version uses. -/
def freeSource (p : Press) : Nat := ([0, 1, 2].find? fun k => !(p.sources.any fun q => q.2 == k)).getD 0

/-- A source freed. -/
def freeVersion (p : Press) (v : Option Nat) : Press :=
  match v with
  | some k => { p with sources := del p.sources k, producedAt := del p.producedAt k }
  | none => p

/-- A version produced (10 R209, R210), noted on the press or on a module that only holds vats of the job. -/
def produce (s : State) (n : Nat) : State :=
  let v := (s.rd (0x6040 + n) 5 + 1) % 256
  let p := s.press n
  let gone := if p.sending.isSome then p.waiting else none
  let p1 := freeVersion p gone
  let p2 := { p1 with
    made := true,
    sending := if p.sending.isNone then some v else p.sending,
    waiting := if p.sending.isNone then p.waiting else some v,
    sources := ins p1.sources v (freeSource p1),
    producedAt := ins p1.producedAt v s.time }
  let s1 := (s.wr (0x6040 + n) 5 v).setPress n p2
  let s2 := (s.vatsOf n).foldl (fun s m => s.wr (0x6040 + m) 5 v) s1
  let s3 := match gone with
    | some w => (s2.vatsOf n).foldl (fun s m => s.bumpLive (0x6040 + m) 9 1)
        (s2.post .versionSuperseded n .ok 0 (words [w]))
    | none => s2
  if p.sending.isNone then (s3.vatsOf n).foldl (fun s m => s.startTurn v m) s3 else s3

/-- Pass 2 of a press step ends: a version is produced once in a step, which gives PRESS_STEP_NS (10 R209, 15 R332). -/
def endPass2 (s : State) (n : Nat) : State :=
  if (s.clr n).inStep && !(s.press n).made then
    (s.wr (0x9080 + n) 0xD (s.time - (s.clr n).stepAt)).produce n
  else s

/-- Where a press's turning source of a version lies in its region: the plan's place for it (log entry 25). -/
def sourceOff (s : State) (n v : Nat) : Option Nat :=
  match s.planOf n, look (s.press n).sources v with
  | some p, some k => p.sources[k]?
  | _, _ => none

/-! ### Staging (10 R212 to R215) -/

/-- Blocks of the turning pool in each stack. -/
def turnPool (s : State) (n : Nat) : Nat := s.frc (0x6040 + n) 2 / 0x1800000

/-- Pool blocks of stack `k` in use: those of units reserved and not replaced, whose exchange returns as many. -/
def poolTaken (s : State) (n k : Nat) : Nat :=
  (((s.turn n).units.filter fun p => p.2.reserved && !p.2.replaced).map fun p =>
    unitBlocks ((s.unitList n).getD p.1 0) k).foldl (· + ·) 0

/-- The next unit to reserve: units are reserved in ascending order (10 R213). -/
def nextReserve (s : State) (n : Nat) : Option Nat :=
  (List.range (s.unitList n).length).find? fun u => !(s.unit n u).reserved

/-- The 2 MiB blocks of each stack that the key-value pool takes (07 R136). -/
def kvRows (s : State) (n : Nat) : Nat :=
  let pages := s.frc (0x4140 + n) 1
  if pages == 0 then 0 else ceilDiv (s.stackSlices n * s.sliceLen n + ceilDiv pages 12 * 4096) blockBytes

/-- A region block is free for a unit's image: no unit has it, and the page pool does not lie there. -/
def blockFree (s : State) (n b : Nat) : Bool :=
  let kv := (s.clr n).kvBlock
  !(kv ≤ b / 12 && b / 12 < kv + s.kvRows n)
    && (s.turn n).units.all fun p => !p.2.home.contains b && !p.2.stage.contains b

/-- The lowest free blocks of stack `k` from the turning units' area on, as many as asked for (DESIGN CHOICE, log entry
25). -/
def freeBlocks (s : State) (n k count : Nat) : List Nat :=
  let first := (s.clr n).turnBlock
  (((List.range (s.regionLen n 1 / 0x1800000 - first)).map fun i => 12 * (first + i) + k).filter (s.blockFree n)).take count

/-- The blocks of a unit's new image, in its order: block i in stack i mod 12 (10 R212); none where some stack lacks
them. -/
def unitSpace (s : State) (n u : Nat) : Option (List Nat) :=
  let bytes := (s.unitList n).getD u 0
  let cols := (List.range 12).map fun k => s.freeBlocks n k (unitBlocks bytes k)
  if (List.range 12).all fun k => (cols.getD k []).length == unitBlocks bytes k then
    some ((List.range (ceilDiv bytes blockBytes)).map fun i => (cols.getD (i % 12) []).getD (i / 12) 0)
  else none

/-- A unit's blocks are free in every stack: of the pool, or for a load of the clearing's quota (10 R213, R225). -/
def canReserve (s : State) (n u : Nat) : Bool :=
  (s.unitSpace n u).isSome && ((s.turn n).loading ||
    (List.range 12).all fun k => s.poolTaken n k + unitBlocks ((s.unitList n).getD u 0) k ≤ s.turnPool n)

/-- UNITS_STAGED published. -/
def countStaged (s : State) (n : Nat) : State :=
  s.wr (0x6040 + n) 7 ((s.turn n).units.filter fun p => p.2.staged).length

/-- FRONT_UNIT with no unit next: it reads U, the units of the clearing's plan (10 R227). -/
def noFront (s : State) (n : Nat) : State := s.wr (0x6040 + n) 6 (s.unitList n).length

/-- FRONT_UNIT of a clearing whose plan changes: none is next unless a version is being turned or loaded (10 R227). -/
def restFront (s : State) (n : Nat) : State :=
  if s.turnState n == 0 || (s.turnState n == 3 && !(s.turn n).frontStarted) then s.noFront n else s

/-- A turning failure (10 R222, R223), or a load's (R225). -/
def turnFail (s : State) (n u shard : Nat) : State :=
  let t := s.turn n
  let s1 := s.setTurnState n 3
  if t.loading then
    (s1.setTurn n { t with blocked := true, loading := false }).post .loadFailed n .loadFailed 0 (words [u, shard])
  else if t.frontStarted then (s1.setTurn n { t with blocked := true }).post .turnFailed n .ok 0 (words [u, shard])
  else
    (((s1.setTurn n { clearStaging t with draining := false }).countStaged n).noFront n).post .turnFailed n .ok 0
      (words [u, shard])

/-- A unit is staged once every one of its shards for this module has landed (10 R215); UNITS_STAGED follows. -/
def judgeStaged (s : State) (n u : Nat) : State :=
  let x := s.unit n u
  let all := (s.shardsOf n u).all fun e => x.landed.contains e.shard
  (s.setUnit n u { x with staged := x.staged || all }).countStaged n

/-- The next unit's blocks reserved (10 R213); one with no shard for this module is staged with that. -/
def reserveUnit (s : State) (n u : Nat) : State :=
  (s.unitSpace n u).elim s fun l => (s.setUnit n u { s.unit n u with reserved := true, stage := l }).judgeStaged n u

/-- A shard could not be delivered or read back: it is fetched again once (10 R222, R224). -/
def shardBad (s : State) (n u shard : Nat) : State :=
  let x := s.unit n u
  if x.failedShards.contains shard then s.turnFail n u shard
  else (s.setUnit n u { x with
    failedShards := shard :: x.failedShards, landed := x.landed.filter (· != shard),
    written := x.written.filter (· != shard) }).bumpLive (0x6040 + n) 0xA 1

/-- A range of an image written into its blocks, charged where they lie (10 R213, 11 R238). -/
def writeImage (s : State) (n : Nat) (blocks : List Nat) (off : Nat) (data : List Byte) : State :=
  (imagePieces blocks off data.length).foldl (fun s p => s.writeRegion n 1 p.2.1 (slice data p.1 p.2.2)) s

/-- The charge of reading a range of an image. -/
def chargeImage (s : State) (n : Nat) (blocks : List Nat) (off len : Nat) : State :=
  (imagePieces blocks off len).foldl (fun s p => s.chargeRange n 1 p.2.1 p.2.2) s

/-- The bytes of a range of an image. -/
def readImage (s : State) (n : Nat) (blocks : List Nat) (off len : Nat) : List Byte :=
  (imagePieces blocks off len).flatMap fun p => s.peek (regionAddr 1 n p.2.1) p.2.2

/-- The blocks a shard goes to: the unit's home while a shard of it is fetched again, else the reserved ones. -/
def shardBlocks (s : State) (n : Nat) (d : ShardDesc) : List Nat :=
  let x := s.unit n d.unit
  if x.refetch.contains d.shard then x.home else x.stage

/-- A shard's lines written (10 R213, R215); it has not landed before its read-back. -/
def writeShard (s : State) (n : Nat) (d : ShardDesc) (data : List Byte) : State :=
  let s1 := s.writeImage n (s.shardBlocks n d) d.dstOffset (slice data 0 d.length)
  let x := s1.unit n d.unit
  s1.setUnit n d.unit { x with written := if x.written.contains d.shard then x.written else d.shard :: x.written }

/-- A shard's read-back charged (10 R213, R215). -/
def readBack (s : State) (n : Nat) (d : ShardDesc) : State := s.chargeImage n (s.shardBlocks n d) d.dstOffset d.length

/-- A shard written and read back (10 R215). -/
def landShard (s : State) (n : Nat) (d : ShardDesc) : State :=
  let x := s.unit n d.unit
  (s.setUnit n d.unit { x with
    written := x.written.filter (· != d.shard),
    landed := if x.landed.contains d.shard then x.landed else d.shard :: x.landed }).judgeStaged n d.unit

/-- A line of a unit's home failed its code: its shard is fetched again once, and a second failure is one after the
front has started (10 R223, R224). While the fetch is under way the tile waits. -/
def shardLost (s : State) (n u shard : Nat) : State :=
  let x := s.unit n u
  let t := s.turn n
  if x.refetch.contains shard then s
  else if !x.refetched.contains shard then
    (s.setUnit n u { x with refetch := shard :: x.refetch, refetched := shard :: x.refetched }).bumpLive (0x6040 + n) 0xA 1
  else if t.loading then s.turnFail n u shard
  else ((s.setTurnState n 3).setTurn n { t with blocked := true }).post .turnFailed n .ok 0 (words [u, shard])

/-- A shard of a unit's home fetched again, written and read back (10 R224). -/
def landRefetch (s : State) (n : Nat) (d : ShardDesc) : State :=
  let x := s.unit n d.unit
  s.setUnit n d.unit { x with
    refetch := x.refetch.filter (· != d.shard), written := x.written.filter (· != d.shard) }

/-- The fetch of such a shard fails. -/
def refetchBad (s : State) (n u shard : Nat) : State :=
  let x := s.unit n u
  (s.setUnit n u { x with
    refetch := x.refetch.filter (· != shard), written := x.written.filter (· != shard) }).shardLost n u shard

/-! ### Sending (10 R221, R224) -/

/-- The module that sends a shard: the plan's source; after a shrink that dropped its replica the one of the
lowest-numbered surviving replica that holds the same position (10 R221); where the source has failed, of the next
replica (R224); none where none survives. -/
def senderOf (s : State) (n : Nat) (d : ShardDesc) : Option Nat :=
  let r := s.recov n
  let lives (m : Member) : Bool := !r.dropped.contains m.replica && !r.failedMods.contains m.modNo
  let lowest (l : List Member) : Option Member := l.find? fun k => l.all fun j => k.replica ≤ j.replica
  match r.members.find? fun m => m.modNo == d.srcModule with
  | none => some d.srcModule
  | some m =>
    let l := r.members.filter fun k => lives k && k.position == m.position
    if lives m then some d.srcModule
    else if r.dropped.contains m.replica then (lowest l).map (·.modNo)
    else ((lowest (l.filter fun k => m.replica < k.replica)).or (lowest l)).map (·.modNo)

/-- The version a shard is sent of: CURRENT where it is fetched again for a unit in use, the loaded one for a load here,
else SENDING; none where the press holds no such source (10 R210, R224, R225; log entry 25). -/
def sendVersion (s : State) (n : Nat) (d : ShardDesc) (again : Bool) : Option Nat :=
  let p := s.press n
  let x := s.unit d.dstClearing d.unit
  let t := s.turn d.dstClearing
  let near := d.dstModule == s.ownModule
  if again || (near && x.refetch.contains d.shard) then p.current
  else if near && t.loading then (if (look p.sources t.version).isSome then some t.version else none)
  else p.sending.or p.current

/-- A shard sent (10 R221): by the source's move engines to a clearing of this module, which may take it once its blocks are
reserved, or over the links to a module that has reserved them. A source line that cannot be read ends the transfer
(11 R248). -/
def sendShard (s : State) (n : Nat) (d : ShardDesc) (granted again : Bool) : State :=
  let m := d.dstClearing
  match (s.sendVersion n d again).bind fun v => s.sourceOff n v with
  | none => s
  | some base =>
    let off := base + d.srcOffset
    let bad := s.badRange n 1 off d.length
    let near := d.dstModule == s.ownModule
    let x := s.unit m d.unit
    let may := if near then s.sameJob n m && s.jobRole m != 1 && (x.reserved || x.refetch.contains d.shard) else granted
    let r := s.readRegion n 1 off d.length
    if !may then s
    else if !bad.isEmpty then
      (bad.foldl (fun s i => s.bump 0x4012 ((off + 64 * i) / blockBytes % 12 + 1) 1) r.2).postMemoryLost n 0
        (off + 64 * bad.headD 0) bad.length
    else if near then r.2.writeShard m d r.1
    else (r.2.emit (.shard d.unit d.shard d.dstModule m r.1)).carry n d.dstModule
      { op := 1, clearing := m, job := s.jobOf n, target := locAt 1 d.dstOffset, data := r.1 }

/-- The port on which bytes from a module come in: by dimension order they come over the last dimension that differs, on the
port that faces the way they come from (14 R299). -/
def ingressPort (s : State) (src : Nat) : Option Nat :=
  match arrival src s.ownModule with
  | some d => some d
  | none => (List.range 32).find? fun p => s.portMode p == 3 && s.rd (0x5000 + 16 * p) 4 == src

/-- Link bytes charged on ingress to the receiving clearing (11 R238). -/
def chargeIngress (s : State) (n src bytes : Nat) : State :=
  match s.ingressPort src with
  | some p => s.charge n (0x20 + p) 1 bytes
  | none => s

/-! ### The front (10 R216 to R219) -/

/-- A member's report (10 R216): every unit is staged, or the next cannot be reserved and every reserved one is. -/
def pooled (s : State) (n : Nat) : Bool :=
  match s.nextReserve n with
  | none => (List.range (s.unitList n).length).all fun u => (s.unit n u).staged
  | some u => !s.canReserve n u && u != 0 && (List.range u).all fun w => (s.unit n w).staged

/-- No sequence admitted on the previous version remains (10 R220). -/
def drained (s : State) (n : Nat) : Bool :=
  !(s.turn n).draining || ((s.vat n).seqs.isEmpty && !(s.clr n).inStep)

/-- The member modules of a vat's spread group, by its plan. -/
def spreadOf (s : State) (n : Nat) : List Nat :=
  match s.planOf n with
  | some p => p.spreadMods
  | none => []

/-- The front leader's module: the lowest-numbered member (10 R216). -/
def frontLeader (s : State) (n : Nat) : Nat := (s.spreadOf n).foldl min s.ownModule

/-- The reports that the front waits for: at the leader one of every other member, `reports`; another member has sent
its own and is told by the leader (10 R216). -/
def allReported (s : State) (n : Nat) (reports : List Bool) : Bool :=
  if s.frontLeader n == s.ownModule then
    reports.all id && reports.length == ((s.spreadOf n).filter (· != s.ownModule)).length
  else (s.turn n).reported

/-- The keeper's report to the front leader, the keeper of the lowest-numbered member module, sent once (10 R216). -/
def reportStaged (s : State) (n : Nat) : State :=
  let t := s.turn n
  let leader := s.frontLeader n
  if s.turnState n == 1 && s.pooled n && !t.reported && leader != s.ownModule then
    (s.setTurn n { t with reported := true }).emit (.job n "STAGED" t.version [s.ownModule, leader])
  else s

/-- A tile names a unit that it reads. -/
def readsUnit (n u : Nat) (d : TileDesc) : Bool := d.clearing == n && d.kind == 0xA3 && bitsOf d.args 63 54 == u

/-- The step in flight still reads a unit: a WEIGHT_READ that is not DONE names it, loaded, held or parked, or fewer of them
have completed than the plan's step has (10 R217). -/
def unitWanted (s : State) (n u : Nat) : Bool :=
  let open_ (l : List TileSlot) : Bool := l.any fun t => readsUnit n u t.desc && t.st != .done
  let due := match s.planOf n with
    | some p => p.unitReads.getD u 0
    | none => 0
  (look (s.turn n).reads u).getD 0 < due
    || s.cells.any fun p => open_ p.2.slots || p.2.held.any (readsUnit n u) || p.2.parked.any fun q => open_ q.slots

/-- A WEIGHT_READ of the step has completed. -/
def countRead (s : State) (n u : Nat) : State :=
  let t := s.turn n
  if (s.clr n).inStep then s.setTurn n { t with reads := ins t.reads u ((look t.reads u).getD 0 + 1) } else s

/-- A tile that reads a unit may run (10 R218): the unit table has the unit, and the step is on the previous version or the
front has replaced it. A unit that no load has brought holds its readers back (DESIGN CHOICE, log entry 25). -/
def unitReady (s : State) (n u : Nat) : Bool :=
  let t := s.turn n
  !(s.unit n u).home.isEmpty && (!t.frontStarted || t.oldStep || (s.unit n u).replaced)

/-- The last unit is replaced on every member: the turning is complete (10 R217). -/
def endTurn (s : State) (n : Nat) : State :=
  let t := s.turn n
  let made := (s.present.filter fun m => s.sameJob n m).filterMap fun m => look (s.press m).producedAt t.version
  let s1 := s.setTurn n { clearStaging t with frontStarted := false, loaded := true }
  let s2 := ((s1.setTurnState n 0).wr (0x6040 + n) 4 t.version).bumpLive (0x6040 + n) 8 1
  let s3 := { s2 with live := ins s2.live (keyOf (0x6040 + n) 0xC) (s.time - made.headD s.time) }
  s3.post .turnDone n .ok 0 (words [t.version])

/-- A unit exchanged: the staged blocks become its home, and the old ones return to the pool; the keeper's beats are
charged to the clearing (10 R217). -/
def replaceUnit (s : State) (n u : Nat) : State :=
  let x := s.unit n u
  let y := { x with
    home := x.stage, stage := [], replaced := true, held := (s.turn n).version, refetch := [], refetched := [] }
  ((s.setUnit n u y).wr (0x6040 + n) 6 (u + 1)).chargeKeeper n 200

/-- A load of a version begins (10 R225). A step that is on the previous version stays on it. -/
def startLoad (s : State) (n version : Nat) : State :=
  let t := s.turn n
  let s1 := s.setTurn n { clearStaging t with
    version := version, loading := true, frontStarted := true, blocked := false, draining := false,
    oldStep := (s.clr n).inStep && (!t.frontStarted || t.oldStep) }
  (((s1.holdReaders n).setTurnState n 4).wr (0x6040 + n) 6 0).wr (0x6040 + n) 7 0

/-- A load ends (10 R225). Without a press of the job on this module the loaded version is the newest the module knows; a
version that is being sent is staged next (DEDUCED, log entry 25). -/
def endLoad (s : State) (n : Nat) : State :=
  let t := s.turn n
  let s1 := s.setTurn n { clearStaging t with loading := false, loaded := true, frontStarted := false }
  let s2 := ((s1.setTurnState n 0).wr (0x6040 + n) 4 t.version).post .loadDone n .ok 0 (words [t.version])
  match s.sourceKeeper n with
  | none => s2.wr (0x6040 + n) 5 t.version
  | some k =>
    let p := s.press k
    let new := p.sources.isEmpty && s.jobRole k != 1
    let s3 := if new then s2.wr (0x6040 + n) 5 t.version else s2.wr (0x6040 + n) 5 (s.rd (0x6040 + k) 5)
    match p.sending with
    | some v => if v == t.version then s3 else s3.startTurn v n
    | none => s3

/-- The SENDING version becomes CURRENT, the previous CURRENT is freed, and a WAITING source becomes SENDING (10 R210). -/
def advanceSource (s : State) (n v : Nat) : State :=
  let p := s.press n
  let p1 := freeVersion p (if p.current == some v then none else p.current)
  let s1 := s.setPress n { p1 with current := some v, sending := p.waiting, waiting := none }
  match p.waiting with
  | some w => (s.vatsOf n).foldl (fun s m => s.startTurn w m) s1
  | none => s1

end State

/-! ### The commands -/

/-- VERSION_PRODUCED: pass 2 of the press's update completes; on a module without the press, its vats are told of the
version (10 R209, R210). -/
def execVersionProduced (n : Nat) (s : State) : Ans :=
  inRange (wfClearing n) s
    (onlyIf (s.exists? n && s.sourceKeeper n == some n) s (if s.jobRole n == 1 then s.endPass2 n else s.produce n))

/-- LANDING_RESERVE: the keeper reserves the next unit's blocks once the pool has them all free (10 R213). -/
def execLandingReserve (n : Nat) (s : State) : Ans :=
  let st := s.turnState n
  let k := match s.nextReserve n with
    | none => s
    | some u => if s.canReserve n u then s.reserveUnit n u else s
  inRange (wfClearing n) s (onlyIf (st == 1 || st == 2 || st == 4) s (k.reportStaged n))

/-- SHARD_SEND: a shard for a destination module leaves, by its number there (10 R214, R221, R224). `granted` says that the
module has reserved the unit, `again` that the shard is fetched again for a unit in use. -/
def execShardSend (n unit shard : Nat) (s : State) (dst : Nat := 0) (granted : Bool := false) (again : Bool := false) : Ans :=
  let l := (s.shardList n).filter fun d =>
    d.unit == unit && d.shard == shard && d.dstModule == dst && s.senderOf n d == some s.ownModule
  inRange (wfClearing n && wfUnit unit && wfModule dst) s
    (onlyIf (s.jobRole n == 1) s (l.foldl (fun s d => s.sendShard n d granted again) s))

/-- SHARD_LANDED: a shard's lines are written and read back, or cannot be (10 R215, R222). Those of a shard sent on this
module are written already, so that only the read-back is left; in a load a LOCAL one may come by a gateway port (R225).
`bad` with lines is a read-back that fails, without lines a shard that could not be delivered; what was written and read
back is charged (R213). -/
def execShardLanded (n unit shard : Nat) (data : List Byte) (bad : Bool) (s : State) : Ans :=
  let st := s.turnState n
  let x := s.unit n unit
  let again := x.refetch.contains shard
  let k := match (s.shardsOf n unit).find? fun d => d.shard == shard with
    | none => s
    | some d =>
      let near := x.written.contains shard
      let own := s.senderOf n d == some s.ownModule
      let gone := bad && !near && data.isEmpty
      let s1 :=
        if gone then s
        else if near then s.readBack n d
        else ((s.writeShard n d data).chargeIngress n ((s.senderOf n d).getD d.srcModule) d.length).readBack n d
      if own && !near && !gone && !(s.turn n).loading then s
      else if again then (if bad then s1.refetchBad n unit shard else s1.landRefetch n d)
      else if bad then s1.shardBad n unit shard else s1.landShard n d
  inRange (wfClearing n && wfUnit unit) s
    (onlyIf (again || ((st == 1 || st == 2 || st == 4) && x.reserved && !x.replaced && !x.landed.contains shard)) s
      (k.reportStaged n))

/-- FRONT_START: every member has reported its staging, and under drain no old sequence is left (10 R216, R220). -/
def execFrontStart (n : Nat) (reports : List Bool) (s : State) : Ans :=
  let t := s.turn n
  let may := s.turnState n == 1 && s.pooled n && s.allReported n reports && s.drained n
  let s1 := (s.setTurn n { t with frontStarted := true, draining := false, oldStep := (s.clr n).inStep }).holdReaders n
  inRange (wfClearing n) s (onlyIf may s ((s1.setTurnState n 2).wr (0x6040 + n) 6 0))

/-- TURN_SOURCE_CURRENT: every vat of the job runs on the SENDING version, here and, by `others`, on the other modules (10
R210). -/
def execTurnSourceCurrent (n : Nat) (s : State) (others : Bool := false) : Ans :=
  let k := match (s.press n).sending with
    | none => s
    | some v =>
      let done := (s.vatsOf n).all fun m => s.turnState m == 0 && s.rd (0x6040 + m) 4 == v
      if done && others then s.advanceSource n v else s
  inRange (wfClearing n) s k

/-- VAT_LOAD: a load of a vat or taster clearing that has no version, or whose turning failed (10 R225). The front
starts with it. -/
def execVatLoad (n version : Nat) (s : State) : Ans :=
  let t := s.turn n
  let may := s.clearState n == 3 && s.jobRole n != 1 && (s.turnState n == 3 || !t.loaded) && s.turnState n != 4
  inRange (wfClearing n && version < 256) s (onlyIf may s (s.startLoad n version))

/-- LOAD_DONE: every unit of the load is in place (10 R225). -/
def execLoadDone (n : Nat) (s : State) : Ans :=
  let may := s.turnState n == 4 && s.rd (0x6040 + n) 6 == (s.unitList n).length
  inRange (wfClearing n) s (onlyIf may s (s.endLoad n))

end Sys2Proof.Machine
end

