-- ==== Sys2Proof/Machine/Health.lean ====
section
/-! DEFINITION. Run health: the samples, tests and states of the monitors (16 R342 to R352). -/

namespace Sys2Proof.Machine

namespace State

/-- Position of entry `k` of a monitor (16 R353). -/
def monSub (m k : Nat) : Nat := 16 * (m + 1) + k
/-- A monitor's configuration in force. -/
def monCfg (s : State) (n m k : Nat) : Nat := s.frc (0x7090 + n) (monSub m k)
/-- A monitor's hidden state. -/
def monitor (s : State) (n m : Nat) : Monitor := (look (s.clr n).monitors m).getD {}
/-- A monitor's hidden state set. -/
def setMonitor (s : State) (n m : Nat) (x : Monitor) : State :=
  s.setClr n { s.clr n with monitors := ins (s.clr n).monitors m x }

/-- A monitor in its starting state: WARMING under SPIKE, ARMED under ABOVE, OFF otherwise (16 R350). -/
def startMonitor (s : State) (n m : Nat) : State :=
  let st := match s.monCfg n m 0 / pow2 28 with
    | 1 => 2
    | 2 => 1
    | _ => 0
  (s.setMonitor n m {}).wr (0x7090 + n) (monSub m 5) st

/-- Every monitor of a clearing in its starting state. -/
def startMonitors (s : State) (n : Nat) : State := (List.range 8).foldl (fun s m => s.startMonitor n m) s

/-- The increase of a counter since the last boundary. -/
def increase (s : State) (idx sub : Nat) : Nat := s.liveOf idx sub - s.rd idx sub

/-- A share as FP32 bits; none when the converted increase is zero, or the converted counter has held (16 R347, R352). -/
def shareOf (s : State) (idx part whole : Nat) : Option Nat :=
  if s.increase idx whole == 0 || pow2 64 - 1 ≤ s.liveOf idx whole then none
  else some (fdiv (f32OfNat (s.increase idx part)) (f32OfNat (s.increase idx whole)))

/-- The sample of a MON_SOURCE, as FP32 bits; none when it is absent (16 R346, R347). `line` is the health line read. -/
def sampleOf (s : State) (n src : Nat) (line : Option (List Byte)) : Option Nat :=
  let sel := bitsOf src 23 16
  match bitsOf src 27 24 with
  | 0 => s.shareOf (0x7050 + n) (0x20 + sel) (0x10 + sel)
  | 1 => s.shareOf (0x7050 + n) (0x30 + sel) (0x10 + sel)
  | 2 => some (f32OfNat (s.increase (0x7050 + n) (0x40 + sel)))
  | 3 => s.shareOf (0x7010 + n) (0x10 + sel) sel
  | 4 => s.shareOf (0x7010 + n) (0x20 + sel) sel
  | 5 => some (f32OfNat (((List.range 7).map fun f => s.increase (0x7010 + n) (0x31 + f)).foldl (· + ·) 0))
  | 6 => some (f32OfNat (s.increase (0x7010 + n) 0x40))
  | 7 => some (f32OfNat (s.increase (0x7010 + n) 0x41))
  | _ => line.map fun b => field b (4 * sel) 4

/-- The baseline after a false test on a finite sample (16 R348). -/
def nextBase (b x shift : Nat) : Nat := fadd b (fmul (fsub x b) (toF32 (.fin false 1 (-(shift : Int)))))

/-- One monitor at a step boundary (16 R346 to R349): every one reads its sample, one that is OFF tests nothing. -/
def runMonitor (s : State) (n : Nat) (line : Option (List Byte)) (absent : Bool) (m : Nat) : State :=
  let src := s.monCfg n m 0
  let test := src / pow2 28
  let sample := if absent then none else s.sampleOf n src line
  if test == 0 || 2 < test then s.wr (0x7090 + n) (monSub m 7) (sample.getD 0x7FC00000)
  else
    let x := s.monitor n m
    let win := s.monCfg n m 2
    let b := s.rd (0x7090 + n) (monSub m 6)
    let st := s.rd (0x7090 + n) (monSub m 5)
    let v := sample.getD 0x7FC00000
    let finite := sample.isSome && FV.isFin (f32 v)
    let warming := test == 2 && x.warm < win
    let above := if test == 1 then flt (s.monCfg n m 1) v else flt (fmul b (s.monCfg n m 1)) v
    let hit := sample.isSome && !warming && (!finite || above)
    let b1 := if test == 2 && finite && !hit then (if x.fresh then v else nextBase b v (s.monCfg n m 4)) else b
    let x1 : Monitor := {
      window := (hit :: x.window).take win,
      warm := if sample.isSome && x.warm < win then x.warm + 1 else x.warm,
      fresh := x.fresh && !finite,
      falses := if hit then 0 else x.falses + 1 }
    let trips := st == 2 && s.monCfg n m 3 ≤ (x1.window.filter id).length
    let st1 := if st == 1 then (if win ≤ x1.warm then 2 else 1)
      else if trips then 3
      else if st == 3 && win ≤ x1.falses then 2
      else st
    let s1 := (((s.setMonitor n m x1).wr (0x7090 + n) (monSub m 5) st1).wr (0x7090 + n) (monSub m 6) b1).wr
      (0x7090 + n) (monSub m 7) v
    if trips then
      ((s1.bump (0x7090 + n) (monSub m 8) 1).bump (0x7090 + n) 4 1).post .healthTrip n .ok 0
        (leBytes 4 m ++ leBytes 8 (s.stepNumber n) ++ leBytes 4 v ++ leBytes 4 b)
    else s1

/-- The counters of 04 R88 and 16 R343 of a clearing. -/
def healthKeys (n : Nat) : List (Nat × Nat) :=
  (List.range 66).map (fun k => (0x7010 + n, k)) ++ (List.range 80).map fun k => (0x7050 + n, k)

/-- Health writes at a boundary (16 R350, R352): a clear first, then changed configurations. -/
def healthWrites (s : State) (n : Nat) : State :=
  let c := s.clr n
  let s1 := if c.healthClear then (s.zeroKeys (healthKeys n)).startMonitors n else s
  let s2 := c.monWrite.foldl (fun s m => s.startMonitor n m) s1
  s2.setClr n { s2.clr n with healthClear := false, monWrite := [] }

/-- A health line that fails its memory code: the line is counted, remapped and POISON, MEMORY_LOST is counted and
posted, the step has no sample, and the plan goes on (16 R345, 11 R248). -/
def healthLost (s : State) (n off : Nat) : State :=
  ((s.loseLine (regionPlace 1 n off)).postMemoryLost n 0 off 1).post .healthSampleLost n .ok 0 (leBytes 8 (s.stepNumber n))

/-- Run health at a boundary at which a step ended (16 R344 to R349): the line is read, and the monitors are evaluated
in ascending number; a boundary that cleared gives every monitor an absent sample. -/
def healthBoundary (s : State) (n : Nat) (lineOk cleared : Bool) : State :=
  let off := s.frc (0x7090 + n) 1 * 64
  let line := s.peek (regionAddr 1 n off) 64
  let ok := off != 0 && lineOk && !s.unreadable (regionPlace 1 n off)
  let s1 := if off == 0 then s
    else
      let s2 := s.charge n (1 + groupOfBlock (off / blockBytes)) 0 64
      if ok then s2.wrBlob (0x7090 + n) 3 line else s2.healthLost n off
  (List.range 8).foldl (fun s m => s.runMonitor n (if ok then some line else none) cleared m) s1

end State

end Sys2Proof.Machine
end

