-- ==== Sys2Proof/Machine/Boundary.lean ====
section
/-! DEFINITION. Step boundaries: the writes, checks, counters, fills and checkpoints that take effect there (22 R469,
R470; 02 R33; 04 R74, R75, R89; 05 R95, R97; 09 R202; 11 R241; 12 R259, R270; 15 R316; 16 R344). -/

namespace Sys2Proof.Machine

/-! ### Mask records (09 R189) -/

/-- Bytes of the gradient row array and of a block array of a mask record. -/
def maskSizes (b : List Byte) : Nat × Nat := (field b 4 4 / 32 * 4, field b 4 4 / 32 * (field b 8 4 / 32))

/-- The arrays of a mask record: whether it holds each, its offset and its bytes; the row array last. -/
def maskArrays (b : List Byte) : List (Bool × Nat × Nat) :=
  let k := field b 12 1
  let z := maskSizes b
  [(k.testBit 0, field b 16 4, z.2), (k.testBit 2, field b 24 4, z.2), (k.testBit 1, field b 20 4, z.1)]

/-- The length of a mask record, by its header. -/
def maskLen (b : List Byte) : Nat := (maskArrays b).foldl (fun m a => if a.1 then max m (a.2.1 + a.2.2) else m) 64

/-- A mask record sets no reserved field and uses no reserved byte. -/
def maskOk (b : List Byte) : Bool :=
  field b 0 2 < 4096 && field b 2 2 == 0 && field b 4 4 % 32 == 0 && field b 8 4 % 32 == 0 && field b 12 1 < 16
    && field b 13 3 == 0 && allZero (slice b 28 36)
    && ((maskArrays b).take 2).all fun a => !a.1 || (slice b a.2.1 a.2.2).all fun x => x.toNat ≤ 1

namespace State

/-- A mask record as it stands in a clearing's region. -/
def maskAt (s : State) (n off : Nat) : List Byte :=
  s.peek (regionAddr 1 n off) (maskLen (s.peek (regionAddr 1 n off) 64))

/-- The mask records of the plan taken up at a press step boundary (09 R189); one that sets a reserved field is refused as a
whole, and the record in effect at its place stays (00 R9). -/
def takeMasks (s : State) (n : Nat) : State :=
  let l := match s.planOf n with
    | some p => p.masks
    | none => []
  l.foldl (fun s off =>
    let b := s.maskAt n off
    let s1 := s.chargeRange n 1 off b.length
    if maskOk b then s1.setPress n { s1.press n with masks := ins (s1.press n).masks off b }
    else s1.emit (.status .reservedSet)) s

/-! ### Quotas (11 R241, rules 7 and 9) -/

/-- A cell's granules brought to the quotas in force: the highest-numbered ones beyond them released, the lowest free
ones assigned. -/
def fitGranules (s : State) (n : Nat) (p : Nat × Nat) : State :=
  let x := s.cell p.1 p.2
  let sg := (ownedBy x.scratchOwn n).drop (s.frc (0x4040 + n) 1)
  let dg := (ownedBy x.sideOwn n).drop (s.frc (0x4040 + n) 2)
  if x.parked.any fun q => q.victim == n then s
  else ((s.dropScratch p.1 p.2 sg).dropSide p.1 p.2 dg).assignGranules n p.1 p.2

/-- One memory quota at a boundary: a growth waits for its scrub; what a shrink releases is unassigned. -/
def fitRegion (s : State) (n sub tier : Nat) : State :=
  let new := s.rd (0x4040 + n) sub
  let old := s.frc (0x4040 + n) sub
  if old < new then (if (s.clr n).scrubDone then s.setFrc (0x4040 + n) sub new else s)
  else (s.wipe (regionAddr tier n new) (old - new)).setFrc (0x4040 + n) sub new

/-- Quota changes at a boundary. -/
def quotaBoundary (s : State) (n : Nat) : State :=
  let s1 := (s.fitRegion n 3 1).fitRegion n 4 2
  let s2 := s1.setClr n { s1.clr n with scrubDone := false, addCells := false }
  (s2.cellsOf n).foldl (fun s p => s.fitGranules n p) s2

/-- Every pending write of a clearing put in force (22 R469); TURN_DISCIPLINE waits for IDLE (10 R220), and the memory
quotas for their scrub. -/
def modesBoundary (s : State) (n : Nat) : State :=
  s.enforce ((forcePositions n).filter fun p =>
    p != (0x4040 + n, 3) && p != (0x4040 + n, 4) && (p != (0x6040 + n, 1) || s.turnState n == 0))

/-! ### Worst-case step time (12 R270) -/

/-- The stack groups and link dies a clearing's transfers go to: every group, over which a tier-1 region is striped
(11 R233), and the dies of the ports it has a share of. -/
def groupsUsed (s : State) (n : Nat) : List Nat :=
  (List.range 4).filter fun q => s.frc (0x4040 + n) 3 != 0
    || (List.range 32).any fun p => dieOfPort p == q && s.frc (0x2410 + n) (0x20 + p) != 0

/-- The groves a clearing's transfers cross in ring transit (01 R17, 22 R468 note 3). -/
def transitGroves (s : State) (n : Nat) : List Nat :=
  (s.reachOf n).flatMap fun g => (s.groupsUsed n).flatMap fun q => ringPath g q

/-- The dies whose floor rates bound a clearing's worst case: its groves and those its paths cross, the switches of its
quadrants and of the groups it uses, and the link dies of the ports it has a share of (02 R40, 12 R270). -/
def wcstDies (s : State) (n : Nat) : List Nat :=
  let gs := s.reachOf n
  let switches := gs.map quadrant ++ s.groupsUsed n
  let dies := (gs ++ s.transitGroves n).map (· + 1) ++ switches.map (· + 0x16)
    ++ (((List.range 32).filter fun p => s.frc (0x2410 + n) (0x20 + p) != 0).map fun p => 0x12 + dieOfPort p)
  (List.range 26).filter fun d => dies.contains d

/-- The guaranteed rate of a clearing's share of a grove's stack group for one grove's granules, with SPILL_ALLOWANCE, in
bytes per microsecond: r/4 + 0.12 TB/s (12 R266, R275). -/
def spillRate (s : State) (n g : Nat) : Nat :=
  (s.frc (0x2410 + n) (1 + quadrant g) * 255 / 256 + spillAllowance) * 7680000 / (4096 * 4)

/-- The nanoseconds in which the granules of the logical cells a host serves go out and come in, at their owners' rates. -/
def turnNs (s : State) (g : Nat) (served : List Nat) : Nat :=
  (s.present.map fun n =>
    let bytes := (served.map fun c => (ownedBy (s.cell g c).scratchOwn n).length * 0x4000
      + (ownedBy (s.cell g c).sideOwn n).length * 4096).foldl (· + ·) 0
    ceilDiv (2 * bytes * 1000) (s.spillRate n g)).foldl (· + ·) 0

/-- What multiplexed cells add to a step: for every pick of the plan's critical path on a host that serves k logical cells,
(k − 1) × 70,000 + 69,888 beats and the regulated time of the granule transfers (20 R431). -/
def hostWait (s : State) (p : PlanClearing) : Nat × Nat :=
  p.picks.foldl (fun a k =>
    let g := k.1 / 256
    let served := s.servedBy g (s.physOf g (k.1 % 256))
    if served.length < 2 then a
    else (a.1 + k.2 * ((served.length - 1) * 70000 + 69888), a.2 + k.2 * s.turnNs g served)) (0, 0)

/-- WCST = B / F + N in nanoseconds, rounded up, the largest over the kinds of step the plan records, and the FLOOR_EPOCH
values it used by die (12 R270, 02 R33, R40; that the largest is published: DESIGN CHOICE, log entry 23). -/
def computeWcst (s : State) (n : Nat) : State :=
  match s.planOf n with
  | none => s
  | some p =>
    if !p.deadlines then s
    else
      let dies := s.wcstDies n
      let f := (dies.map fun d => s.rd 0x1110 d).foldl min 0xFFFF
      let w := s.hostWait p
      let ns := (p.stepKinds.map fun k => ceilDiv ((k.1 + w.1) * 1000) (max 1 f) + k.2 + w.2).foldl max 0
      let s1 := { s with live := ins s.live (keyOf 0x6027 n) ns }
      s1.setClr n { s1.clr n with floorEpochs := dies.map fun d => (d, s.rd 0x1111 d) }

/-! ### Plan checks (22 R469, R470) -/

/-- The checks of an accepted plan that fail, in the order their statuses are posted. -/
def mismatches (s : State) (n : Nat) : List Name :=
  match s.planOf n with
  | none => []
  | some p =>
    (if s.frc 0x3020 n != p.accMode then [.accModeMismatch] else [])
      ++ (if p.role != 1 && s.frc (0x4140 + n) 6 != p.spread then [.kvSpreadMismatch] else [])
      ++ (if p.role == 2 && s.frc (0x6040 + n) 1 != p.discipline then [.turnDisciplineMismatch] else [])
      ++ (if !s.limitsHold n then [.arbLimitMismatch] else [])

/-- The checks made again: a status is posted when its mismatch begins, naming the step. -/
def checkPlan (s : State) (n : Nat) : State :=
  let new := s.mismatches n
  let old := (s.clr n).mismatch
  let s1 := (new.filter fun x => !old.contains x).foldl
    (fun s x => s.post x n x 0 (leBytes 8 (s.clr n).stepNo)) s
  s1.setClr n { s1.clr n with mismatch := new }

/-- The checks of every clearing made again: after RESUME, which ends the state in which limits may change, those
between two steps stand at their boundaries (13 R291). -/
def checkPlans (s : State) : State := (s.present.filter fun n => !(s.clr n).inStep).foldl checkPlan s

/-! ### Press steps -/

/-- Records of a completed step's batch released from the curd buffer. -/
def releaseBatch (s : State) (n : Nat) : State :=
  let s1 := s.freeCurds n (s.press n).batch
  s1.setPress n { s1.press n with batch := [] }

/-- The pages of a press's sequences given back at the end of its step (07 R159). -/
def closePages (s : State) (n : Nat) : State :=
  let s1 := (s.vat n).seqs.foldl (fun s x => s.dropPages n x.pages) s
  let s2 := ((s1.retirePages n).mapPages n fun r => { r with pins := 0 }).freePages n
  s2.setVat n { s2.vat n with seqs := [] }

/-- The sequence of a press for a record of its batch, all of its positions in the step (07 R159). -/
def pressSeq (slot : Nat) (c : Nat × List Nat) : Seqn :=
  let toks := c.2
  { req := { scoringReq c.1 toks with slot := 0xFFFE }, slot := slot, tokens := toks, start := toks.length, pos := 0,
    pages := [],
    kept := [], bucket := 0, curd := none, active := true, chunk := toks.length, fault := [] }

/-- A press step's sequences, record `i` of the batch in slot `i`, with pages of the press's own pool for their
positions, which its page tiles append to and gather from (07 R159; DESIGN CHOICE, log entry 22). -/
def openPages (s0 : State) (n : Nat) : State :=
  let s := s0.closePages n
  let l := (s.press n).batch.filterMap fun id => (look (s.press n).curds id).map fun c => (c.reqTag, s.curdTokens c)
  let s1 := s.setVat n { s.vat n with ver := s.rd (0x6040 + n) 5, seqs := l.mapIdx pressSeq }
  (s1.vat n).seqs.foldl (fun s x =>
    let a := (List.range (ceilDiv x.chunk 256)).foldl (fun (a : State × Seqn) k => a.1.givePage n k a.2) (s, x)
    a.2.pages.foldl (fun s p => s.putTokens n p.2 0 ((x.tokens.drop (256 * p.1)).take 256)) (a.1.setSeq n a.2)) s1

/-- A press step begins when nothing holds it: the plan's checks pass, its batch is taken, and no recovery holds the
press (15 R333); a checkpoint brought forward waits for the step's end (R336). -/
def startPress (s : State) (n : Nat) : State :=
  let c := s.clr n
  let ready := match c.plan with
    | some p => p.role == 1 && (p.batch == 0 || c.press.batch.length == p.batch)
    | none => false
  let st := s.rd (0x9080 + n) 0xA
  if s.mayStep n && ready && !c.recov.hold && (st == 0 || st == 3 && c.ckpt.forward) then
    ((s.setClr n { c with inStep := true, stepAt := s.time, press := { c.press with made := false } }).takeMasks n).openPages n
  else s

/-- The press counters of a step that ends: PRESS_STEPS, UPDATE_SKIPPED, TENSOR_CLAMPED, and the event SINGULAR_CLAMPED
with the number of blocks (09 R207). -/
def pressCounters (s : State) (n : Nat) : State :=
  let p := s.press n
  let blocks := (p.clamped.map (·.2)).foldl (· + ·) 0
  let s1 := s.bumpLive (0x6080 + n) 1 1
  let s2 := if p.skipRan then s1.bumpLive (0x6080 + n) 2 1 else s1
  let s3 := s2.wrBlob (0x6080 + n) 0x10
    (if p.clamped.isEmpty then zeros 16384
     else (List.range 4096).flatMap fun k => leBytes 4 ((look p.clamped k).getD 0))
  if blocks == 0 then s3 else s3.post .singularClamped n .ok 0 (leBytes 4 blocks)

/-- A press step ends at its boundary: STEP rises, its batch is released, UPDATE_SKIPPED is posted (09 R202), its time
goes to the leader (15 R332), and the job checkpoint is considered (15 R316). -/
def endPress (s : State) (n : Nat) : State :=
  let c := s.clr n
  let s0 := s.pressCounters n
  let s1 := if c.press.updateSkip then s0.post .updateSkipped n .ok 0 (leBytes 8 c.stepNo) else s0
  let s2 := ((s1.closePages n).publishPool n).releaseBatch n
  let c2 := s2.clr n
  let s3 := s2.setClr n { c2 with
    stepNo := c2.stepNo + 1, inStep := false, idleSince := s.time,
    recov := { c2.recov with totals := false },
    press := { c2.press with updateSkip := false, skipRan := false, clamped := [] } }
  let s4 := s3.emit (.job n "STEP_TIME" (s.rd (0x9080 + n) 2) [s.ownModule, c.stepNo, s.rd (0x9080 + n) 0xD])
  s4.ckptBoundary n (c.stepNo + 1)

/-- The counters of a clearing brought up to date (04 R89). -/
def countersBoundary (s : State) (n : Nat) : State :=
  let s1 := (s.publish (counterKeys n)).wr (0x2000 + 16 * n) 0xA (s.claimedBy n).length
  let blobs := (List.range 16).filter fun g => (s1.live.any fun p => p.1 / 256 == 0x70000 + n * 16 + g)
  blobs.foldl (fun s g =>
    let key (c : Nat) := (0x70000 + n * 16 + g) * 256 + c
    let old := s.rdBlob (0x6011 + g) n
    let new := (List.range 256).flatMap fun c =>
      leBytes 8 (min (field old (8 * c) 8 + (look s.live (key c)).getD 0) (pow2 64 - 1))
    { s.wrBlob (0x6011 + g) n new with live := s.live.filter fun p => p.1 / 256 != 0x70000 + n * 16 + g }) s1

/-- A plan withdrawn: at its boundary a clearing's open requests end CANCELLED and it returns to IDLE (17 R374). -/
def withdrawBoundary (s : State) (n : Nat) : State :=
  if (s.clr n).withdraw && !(s.clr n).inStep then
    let s1 := ((((s.cancelAll n).dropTiles n).dropPlan n).restFront n).setClearState n 2
    (s1.setClr n { s1.clr n with withdraw := false }).post .planWithdrawn n .ok (s.clr n).planId
  else s

/-- A step boundary of a clearing with an accepted plan: `ended` when a step ended there. -/
def boundary (s : State) (n : Nat) (ended lineOk : Bool) : State :=
  let press := s.jobRole n == 1
  let done := ended && (if press then (s.clr n).inStep else (s.clr n).due)
  let s1 := ((s.modesBoundary n).quotaBoundary n).healthWrites n
  let s2 := if done then s1.healthBoundary n lineOk (s.clr n).healthClear else s1
  let s3 := if done && press then s2.endPress n else s2
  let s4 := if done then s3.countersBoundary n else s3
  let s45 := if done then { s4 with colls := s4.colls.filter fun p => p.1 / 4096 != n } else s4
  let s5 := (s45.setClr n { s45.clr n with due := false }).withdrawBoundary n
  let s6 := (((s5.zeroTables).startFills n).computeWcst n).publish [(0x6027, n)]
  let s7 := s6.checkPlan n
  if press then s7.startPress n else s7

/-- A clearing without an accepted plan runs no step, so that what is written takes effect at once (log entry 23). -/
def settle (s : State) (n : Nat) : State :=
  if s.clearState n == 2 then (((s.modesBoundary n).quotaBoundary n).healthWrites n).zeroTables else s

end State

/-- QUOTA_SCRUB_DONE: the blocks a quota change added are scrubbed, and the change takes effect at the next boundary
(11 R241, rules 6 and 7). -/
def execQuotaScrubDone (n : Nat) (s : State) : Ans :=
  let hb := s.rd (0x4040 + n) 3 - s.frc (0x4040 + n) 3
  let cb := s.rd (0x4040 + n) 4 - s.frc (0x4040 + n) 4
  let z := (s.wipe (regionAddr 1 n (s.frc (0x4040 + n) 3)) hb).wipe (regionAddr 2 n (s.frc (0x4040 + n) 4)) cb
  let s1 := ([1, 2, 3, 4].foldl (fun s r => s.charge n r 0 (hb / 4)) z).charge n 5 0 cb
  inRange (wfClearing n) s
    (onlyIf (s.clr n).scrubbing s
      ((s1.setClr n { s1.clr n with scrubbing := false, scrubDone := true }).settle n))

/-- STEP_BOUNDARY: a clearing reaches a step boundary, between steps or at the end of one (22 R470). `lineOk` tells
whether the health line passed its memory code (16 R345). -/
def execStepBoundary (n : Nat) (ended lineOk : Bool) (s : State) : Ans :=
  let may := s.running && s.clearState n == 3 && ((s.clr n).inStep == (ended && s.jobRole n == 1))
  inRange (wfClearing n) s (onlyIf may s (s.boundary n ended lineOk))

/-- The reward state of a record of the ready list, as its bytes have it. -/
def State.rewardOf (s : State) (pr : Press) (id : Nat) : Nat :=
  match look pr.curds id with
  | some c => headReward (s.headOf c)
  | none => 2

/-- PRESS_BATCH_TAKE (08 R176): the press takes the first SCORED records of the ready list, one batch; records ahead of
them that are NOT_SCORED or SCORE_FAILED are released with it, and the step that waits for the batch may begin. -/
def execPressBatchTake (n : Nat) (s : State) : Ans :=
  let pr := s.press n
  let want := match s.planOf n with
    | some p => p.batch
    | none => 0
  let scored := (pr.ready.filter fun id => s.rewardOf pr id == 1).take want
  let last := scored.getLastD 0
  let ahead := (pr.ready.takeWhile fun id => id != last).filter fun id =>
    s.rewardOf pr id == 2 || s.rewardOf pr id == 3
  let s0 := s.freeCurds n ahead
  let s1 := s0.setPress n { s0.press n with
    ready := pr.ready.filter fun id => !scored.contains id && !ahead.contains id, batch := scored }
  inRange (wfClearing n) s
    (onlyIf (want != 0 && scored.length == want && pr.batch.isEmpty) s (s1.startPress n))

end Sys2Proof.Machine
end

