-- ==== Sys2Proof/Machine/Counters.lean ====
section
/-! DEFINITION. Event counters of a cell and the readiness of its tiles (03 R50, R51, R53; 12 R256; 10 R218). -/

namespace Sys2Proof.Machine

/-- The physical counter that carries a clearing's counter `i`: a plan numbers its counters from 0, and the warden maps
them in the order they were assigned (12 R256). -/
def ctrIndex : List (Nat × Nat) → Nat → Nat → Option Nat
  | [], _, _ => none
  | (o, _) :: rest, n, i =>
    if o == n then (if i == 0 then some 0 else (ctrIndex rest n (i - 1)).map (· + 1))
    else (ctrIndex rest n i).map (· + 1)

namespace State

/-- The value of a clearing's event counter among the counters of a cell or of a parked context. -/
def ctrIn (l : List (Nat × Nat)) (n i : Nat) : Nat :=
  match ctrIndex l n i with
  | some k => (l.getD k (64, 0)).2
  | none => 0

/-- The value of a clearing's event counter on a cell. -/
def ctrOf (s : State) (n g c i : Nat) : Nat := ctrIn (s.cell g c).ctrs n i

/-- A tile's wait value is met among some counters (03 R46). -/
def ctrMet (l : List (Nat × Nat)) (n : Nat) (d : TileDesc) : Bool :=
  d.waitValue == 0 || d.waitValue ≤ ctrIn l n (d.counters % 16)

/-- A tile's wait condition is met among some counters, and a weight read's unit is in place (10 R218). -/
def condMet (s : State) (l : List (Nat × Nat)) (n : Nat) (d : TileDesc) : Bool :=
  ctrMet l n d && (d.kind != 0xA3 || s.unitReady d.clearing (bitsOf d.args 63 54))

/-- A tile's wait condition is met on its cell. -/
def waitMet (s : State) (g c : Nat) (d : TileDesc) : Bool := s.condMet (s.cell g c).ctrs d.clearing d

/-- A LOADED tile judged again (03 R50): READY once its condition is met; one that only its unit holds back notes since
when. -/
def woken (s : State) (l : List (Nat × Nat)) (n : Nat) (t : TileSlot) : TileSlot :=
  if t.st != .loaded then t
  else if s.condMet l n t.desc then { t with st := .ready, barred := none }
  else if t.barred.isNone && ctrMet l n t.desc then { t with barred := some s.time }
  else t

/-- The nanoseconds for which a tile that becomes READY was held for its unit. -/
def barredNs (s : State) (l : List (Nat × Nat)) (n : Nat) (t : TileSlot) : Nat :=
  match t.barred with
  | some b => if t.st == .loaded && s.condMet l n t.desc then s.time - b else 0
  | none => 0

/-- The beats of a grove in which tiles of a list were held for their units, added to BARRIER_BEATS (10 R227). -/
def countBarred (s : State) (g : Nat) (l : List (Nat × Nat)) (n : Option Nat) (ts : List TileSlot) : State :=
  ts.foldl (fun a t =>
    let ns := s.barredNs l (n.getD t.desc.clearing) t
    if ns == 0 then a else a.bumpLive (0x6040 + t.desc.clearing) 0xB (ns * s.rd 0x1112 (g + 1) / 1000)) s

/-- LOADED tiles whose wait condition is met become READY (03 R50). -/
def refresh (s : State) (g c : Nat) : State :=
  let x := s.cell g c
  (s.countBarred g x.ctrs none x.slots).setCell g c { x with
    slots := x.slots.map fun t => s.woken x.ctrs t.desc.clearing t }

/-- Tiles of a clearing in parked contexts of a cell that only waited for a unit become READY (12 R274, 10 R218). -/
def refreshParked (s : State) (g c : Nat) : State :=
  let x := s.cell g c
  let s1 := x.parked.foldl (fun a p => a.countBarred g p.ctrs (some p.victim) p.slots) s
  s1.setCell g c { x with parked := x.parked.map fun p => { p with slots := p.slots.map (s.woken p.ctrs p.victim) } }

/-- Every cell that holds a tile of a clearing refreshed. -/
def refreshOf (s : State) (n : Nat) : State :=
  (s.cells.filter fun p => (p.2.slots.any fun t => t.desc.clearing == n) || p.2.parked.any fun q => q.victim == n).foldl
    (fun s p => (s.refresh (p.1 / 256) (p.1 % 256)).refreshParked (p.1 / 256) (p.1 % 256)) s

/-- A physical counter incremented; it holds at FFFFh, and says so when it reaches it (03 R53). -/
def bumpCtr (s : State) (g c k : Nat) : State :=
  let x := s.cell g c
  match x.ctrs[k]? with
  | none => s
  | some (o, v) =>
    if v == 0xFFFF then s
    else
      let s1 := (s.setCell g c { x with ctrs := x.ctrs.set k (o, v + 1) }).refresh g c
      if v + 1 == 0xFFFF then s1.post .counterSaturated o .ok 0 (words [g, c, k]) else s1

/-- A counter of a victim's saved context raised (12 R274, R277); it holds at FFFFh, and says so when it reaches it (03
R53). -/
def savedCtr (s : State) (n g c i : Nat) : State :=
  let up (p : Parked) : Parked :=
    match ctrIndex p.ctrs n i with
    | some k => { p with ctrs := p.ctrs.set k (n, min ((p.ctrs.getD k (64, 0)).2 + 1) 0xFFFF) }
    | none => p
  let x := s.cell g c
  let s1 := (s.setCell g c { x with parked := x.parked.map up }).refreshParked g c
  let full := x.parked.any fun p => (ctrIndex p.ctrs n i).isSome && ctrIn p.ctrs n i == 0xFFFE
  if full then s1.post .counterSaturated n .ok 0 (words [g, c, i]) else s1

/-- Whether a clearing has a counter `i` on a cell: in the cell, or in its context while it is parked. -/
def hasCtr (s : State) (n g c i : Nat) : Bool :=
  (ctrIndex (s.cell g c).ctrs n i).isSome || (s.cell g c).parked.any fun p => (ctrIndex p.ctrs n i).isSome

/-- A clearing's counter `i` incremented on a cell, or in its parked context. -/
def signalCtr (s : State) (n g c i : Nat) : State :=
  match ctrIndex (s.cell g c).ctrs n i with
  | some k => s.bumpCtr g c k
  | none => s.savedCtr n g c i

/-- A SIGNAL field of the link engines: grove, logical cell, event counter (14 R296). A counter that the clearing does not
hold is another's, and the signal is discarded (03 R53). -/
def linkSignal (s : State) (n v : Nat) : State :=
  let g := bitsOf v 15 12
  let c := bitsOf v 11 4
  let i := bitsOf v 3 0
  if s.hasCtr n g c i then s.signalCtr n g c i else s.post .signalForeign n .ok 0 (words [g, c, i])

end State

/-- COUNTER_SIGNAL: a signal from another cell, or a link engine, of clearing `src` for counter `ctr` (03 R53), which
its plan numbers from 0 (12 R256). A counter that the clearing does not hold there, in the cell or parked, is another's
or free: the signal is discarded with SIGNAL_FOREIGN (DESIGN CHOICE, log entry 29). -/
def execCounterSignal (g c ctr src : Nat) (s : State) : Ans :=
  let k := if s.hasCtr src g c ctr then s.signalCtr src g c ctr else s.post .signalForeign src .ok 0 (words [g, c, ctr])
  inRange (wfCell g c && wfClearing src) s (onlyIf (ctr < 16) s k)

/-- UNIT_REPLACE: the keeper exchanges the next unit once it is staged and no step on the previous version needs it; the
turning is complete once, by `others`, every other member has replaced its last one too (10 R217). -/
def execUnitReplace (n : Nat) (s : State) (others : Bool := false) : Ans :=
  let st := s.turnState n
  let u := s.rd (0x6040 + n) 6
  let count := (s.unitList n).length
  let may := u < count && (s.unit n u).staged && !((s.turn n).oldStep && s.unitWanted n u)
  let s1 := if may then (s.replaceUnit n u).refreshOf n else s
  let s2 := if st == 2 && others && s1.rd (0x6040 + n) 6 == count then s1.endTurn n else s1
  inRange (wfClearing n) s (onlyIf (st == 2 || st == 4) s s2)

end Sys2Proof.Machine
end

