-- ==== Sys2Proof/Machine/Tiers.lean ====
section
/-! DEFINITION. The two memory tiers as transfers meet them: regions and job windows, regulators of a byte range, writes
under an open snapshot, and the locations of the link engines (11 R233, R238, R239, R251; 14 R307). -/

namespace Sys2Proof.Machine

namespace State

/-- Where a cell byte of a clearing lies. -/
def cellHome (s : State) (n g c off : Nat) : Nat :=
  if s.spilled n g c then s.spillAddr n g c off else cellAddr g (s.physOf g c) off

/-- Bytes that arrive for a cell of a clearing land where its granules are (11 R242). -/
def landCell (s : State) (n g c off : Nat) (b : List Byte) : State :=
  if s.spilled n g c then s.poke (s.spillAddr n g c off) b else s.putCell g c off b

/-- The lines of a location that cannot be read, by index: none of a scratchpad. -/
def locBad (s : State) (n v len : Nat) : List Nat :=
  if locTier v == 1 || locTier v == 2 then s.badRange n (locTier v) (locOff v) len else []

/-- A read of a link engine that met lost lines: they are counted to the region's owner, a tier-1 line with its event, and
nothing is sent (11 R245, R246, R248; what a transfer without a tile does then: log entry 28). -/
def locLost (s : State) (n v : Nat) (bad : List Nat) : State :=
  let s1 := bad.foldl (fun s i => s.loseLine (regionPlace (locTier v) n (locOff v + 64 * i))) s
  if locTier v == 1 then
    s1.postMemoryLost n 0 (locOff v + 64 * bad.headD 0) bad.length
  else s1.bump (0x4040 + n) 0xB bad.length

/-- Bytes at a location of a clearing. -/
def locRead (s : State) (n v len : Nat) : List Byte × State :=
  if locTier v == 0 then (s.peek (s.cellHome n (locGrove v) (locCell v) (locOff v)) len, s)
  else s.readRegion n (locTier v) (locOff v) len

/-- Bytes written at a location of a clearing. -/
def locWrite (s : State) (n v : Nat) (data : List Byte) : State :=
  if locTier v == 0 then s.landCell n (locGrove v) (locCell v) (locOff v) data
  else s.writeRegion n (locTier v) (locOff v) data

/-- Whether a transfer of clearing `n` may touch a location of clearing `m`: granules that `m`, of the same job, owns, or a
tier range that R239 lets `n` reach (01 R21). -/
def locReach (s : State) (n m v len : Nat) : Bool :=
  if locTier v == 0 then (n == m || s.sameJob n m) && s.ownsScratch m (locGrove v) (locCell v) (locOff v) len
  else s.mayReach n m (locTier v) (locOff v) len

/-- Whether a request from another module, under a job number, may touch a location of a clearing: the clearing exists,
is of the job, and a tier range lies in its job window (11 R239). -/
def locRemote (s : State) (job n v len : Nat) : Bool :=
  s.exists? n && s.jobOf n == job
    && (if locTier v == 0 then s.ownsScratch n (locGrove v) (locCell v) (locOff v) len
        else locOff v + len ≤ s.windowLen n (locTier v) && locOff v + len ≤ s.regionLen n (locTier v))

end State

end Sys2Proof.Machine
end

