-- ==== Sys2Proof/Machine/Triggers.lean ====
section
/-! DEFINITION. Link engines: trigger counters, triggered operations, chunks and their check, collectives that fail
(14 R306 to R315). -/

namespace Sys2Proof.Machine

namespace State

/-! ### Trigger counters (14 R306, R315) -/

/-- The clearing a link die's trigger counter belongs to; a free one goes to the first clearing of quota that uses it
(log entry 27). None where the clearing may not use it. -/
def takeTrig (s : State) (die n k : Nat) : Option State :=
  let x := s.linkDie die
  match look x.owners k with
  | some o => if o == n then some s else none
  | none =>
    if 1024 ≤ k || s.rd (0x5220 + n) 1 ≤ (x.owners.filter fun p => p.2 == n).length then none
    else some (s.setDie die { x with owners := ins x.owners k n })

/-- The value of a trigger counter. -/
def trigOf (s : State) (die k : Nat) : Nat := (look (s.linkDie die).ctrs k).getD 0

/-- A trigger counter raised; it holds at FFFFh. -/
def raiseTrig (s : State) (die n k amount : Nat) : State :=
  match s.takeTrig die n k with
  | none => s
  | some s1 =>
    let x := s1.linkDie die
    s1.setDie die { x with ctrs := ins x.ctrs k (min (s1.trigOf die k + amount) 0xFFFF) }

/-! ### Firing (14 R307, R308, R311) -/

/-- The module a descriptor's transfer goes to: the plan's, or the one that fills its position since a rejoin; where its
replica is dropped, the same position in the next replica that remains, away from this module's own (15 R333, R336;
DEDUCED, log entry 24). -/
def chainModule (s : State) (n m : Nat) : Nat :=
  let r := s.recov n
  let planned := (s.planOf n).bind fun p => p.members.find? fun x => x.modNo == m
  match planned with
  | none => m
  | some x =>
    let same := r.members.filter fun y => y.position == x.position
    let left := same.filter fun y => !r.dropped.contains y.replica
    let up := left.filter fun y => x.replica ≤ y.replica
    let down := left.filter fun y => y.replica ≤ x.replica
    let first := if s.rd (0x9080 + n) 5 ≤ x.replica then up.find? fun y => up.all fun z => y.replica ≤ z.replica
      else down.find? fun y => down.all fun z => z.replica ≤ y.replica
    (first.map (·.modNo)).getD m

/-- The port set of a transmission: the descriptor's, or the choice of R300, moved on by one for each resend. -/
def setOf (s : State) (die dst : Nat) (t : Trig) : Nat :=
  ((if t.desc.portSet == 3 then s.pickSet die dst else t.desc.portSet) + t.attempt) % 3

/-- The transfer line of a chunk (14 R296). -/
def lineOf (s : State) (t : Trig) (data : List Byte) : ChunkLine :=
  let on := bitOf t.desc.tflags 1
  { src := s.ownModule, job := s.jobOf t.clearing, clearing := t.desc.dstClearing,
    line := leBytes 2 (t.desc.coll % 4096) ++ leBytes 2 ((if on then 4 else 0) + t.attempt % 4) ++ leBytes 4 t.desc.chunk
      ++ leBytes 4 (crc32c data) ++ leBytes 2 (t.desc.dstTrig % 1024) ++ leBytes 2 (if on then t.desc.signal else 0)
      ++ leBytes 2 (t.desc.srcAck % 1024) ++ zeros 6 ++ leBytes 8 t.desc.opId ++ zeros 32 }

/-- A link engine's transfer leaves for another module, under its transfer tag. -/
def launch (s : State) (n dst : Nat) (x : Carry) : State :=
  ({ s with nextTag := (s.nextTag + 1) % 65536 } : State).carry n dst { x with tag := s.nextTag, job := s.jobOf n }

/-- A chunk leaves, checked end to end, its source held for resends (14 R308, R311, R312). A source that the clearing may no
longer reach sends nothing (11 R239). -/
def sendChunk (s : State) (die : Nat) (t : Trig) : State :=
  let n := t.clearing
  let len := t.desc.length
  let d := s.locRead n t.desc.src len
  let bad := s.locBad n t.desc.src len
  let to_ := s.chainModule n t.desc.dstModule
  let l := s.lineOf t d.1
  let set := s.setOf die to_ t
  let s1 := if !bad.isEmpty then d.2.locLost n t.desc.src bad
    else (d.2.emit (.chunk to_ set l d.1)).launch n to_
      { die := die, set := set, op := 4, clearing := t.desc.dstClearing, job := 0, target := t.desc.dst, head := l.line,
        data := d.1 }
  let x := s1.linkDie die
  if !s.locReach n n t.desc.src len then s.emit (.status .tierForeign)
  else s1.setDie die { x with holds := x.holds ++ [{ t with tag := s.nextTag }] }

/-- The offset a location names, as the links' messages give it. -/
def locName (v : Nat) : Nat := if locTier v == 0 then bitsOf v 59 0 else locOff v

/-- A PUT's data leave unchecked, or land at once on this module (14 R307). What either end may no longer reach is not moved
(01 R21, 11 R239). -/
def sendPut (s : State) (die : Nat) (t : Trig) : State :=
  let n := t.clearing
  let len := t.desc.length
  let m := t.desc.dstClearing
  let d := s.locRead n t.desc.src len
  let bad := s.locBad n t.desc.src len
  let to_ := s.chainModule n t.desc.dstModule
  let set := s.setOf die to_ t
  if !s.locReach n n t.desc.src len then s.emit (.status .tierForeign)
  else if !bad.isEmpty then d.2.locLost n t.desc.src bad
  else if to_ == s.ownModule then
    if s.locReach n m t.desc.dst len then d.2.locWrite m t.desc.dst d.1 else s.emit (.status .tierForeign)
  else (d.2.emit (.lines to_ m (locTier t.desc.dst) (locName t.desc.dst) d.1 s.nextTag)).launch n to_
    { die := die, set := set, op := 1, clearing := m, job := 0, target := t.desc.dst, data := d.1 }

/-- A GET fetches the data at DST of the other clearing to SRC of the posting one (14 R307, log entry 27). -/
def sendGet (s : State) (die : Nat) (t : Trig) : State :=
  let n := t.clearing
  let len := t.desc.length
  let m := t.desc.dstClearing
  let to_ := s.chainModule n t.desc.dstModule
  let set := s.setOf die to_ t
  if !s.locReach n n t.desc.src len then s.emit (.status .tierForeign)
  else if to_ == s.ownModule then
    let d := s.locRead m t.desc.dst len
    let bad := s.locBad m t.desc.dst len
    if !s.locReach n m t.desc.dst len then s.emit (.status .tierForeign)
    else if !bad.isEmpty then d.2.locLost m t.desc.dst bad
    else d.2.locWrite n t.desc.src d.1
  else
    let r : Remote := {
      tag := s.nextTag, grove := 16, cell := 0, clearing := n, tileId := t.desc.opId, issued := s.time,
      lines := ceilDiv len 64, got := [], landing := t.desc.src }
    (({ s with remotes := s.remotes ++ [r] } : State).emit
        (.readReq r.tag to_ m (locTier t.desc.dst) (locName t.desc.dst) r.lines)).launch n to_
      { die := die, set := set, op := 2, clearing := m, job := 0, target := t.desc.dst, asks := r.lines }

/-- What a descriptor does when it fires. -/
def fireOp (s : State) (die : Nat) (t : Trig) : State :=
  let x := s.coll t.clearing t.desc.coll
  let s1 := if x.firstFire.isNone then s.setColl t.clearing t.desc.coll { x with firstFire := some s.time } else s
  match t.desc.top with
  | 1 => (s1.sendChunk die t).bump (0x5220 + t.clearing) 4 1
  | 2 => s1.sendPut die t
  | 3 => s1.sendGet die t
  | _ => s1.raiseTrig die t.clearing t.desc.srcAck 1

/-- A descriptor fires: its slot is freed, or re-armed with its threshold raised while that does not pass FFFFh. -/
def fireSlot (s : State) (die k : Nat) : State :=
  let x := s.linkDie die
  match look x.slots k with
  | none => s
  | some t =>
    let once := bitOf t.desc.tflags 0
    let next := t.desc.threshold + t.desc.step
    let s1 := if once && next ≤ 0xFFFF then
        s.setDie die { x with slots := ins x.slots k { t with desc := { t.desc with threshold := next } } }
      else s.setDie die { x with slots := del x.slots k }
    let s2 := if once && 0xFFFF < next then s1.post .trigExhausted t.clearing .ok 0 (leBytes 8 t.desc.opId) else s1
    s2.fireOp die t

/-- The slots whose counters meet their thresholds, ascending. -/
def readySlots (s : State) (die : Nat) : List Nat :=
  ((s.linkDie die).slots.filter fun p => p.2.desc.threshold ≤ s.trigOf die p.2.desc.trig).map (·.1)

/-- Waves of firings: the descriptors that are ready together fire in ascending slot order, then those that their firing
made ready. The bound on the waves lies beyond what counters of 16 bits can start, but for a descriptor that re-arms
with STEP 0 and keeps itself ready, which would fire for ever (14 R308; DESIGN CHOICE, log entry 27). -/
def fireAll (die : Nat) : Nat → State → State
  | 0, s => s
  | k + 1, s => match s.readySlots die with
    | [] => s
    | l => fireAll die k (l.foldl (fun s i => s.fireSlot die i) s)

/-- A trigger counter raised, and what it starts. -/
def bumpTrig (s : State) (die n k amount : Nat) : State := fireAll die 65536 (s.raiseTrig die n k amount)

/-! ### Posting (14 R307, R308, R315) -/

/-- A descriptor as its 64 bytes lay it out (14 R307). -/
def readTrig (b : List Byte) : TrigDesc :=
  { top := field b 0 1, tflags := field b 1 1, trig := field b 2 2, threshold := field b 4 2, step := field b 6 2,
    coll := field b 8 2, dstModule := field b 10 2, dstClearing := field b 12 1, portSet := field b 13 1,
    chunk := field b 16 4, length := field b 20 4, src := field b 24 8, dst := field b 32 8, dstTrig := field b 40 2,
    signal := field b 42 2, srcAck := field b 44 2, opId := field b 48 8,
    rsvSet := field b 14 2 != 0 || field b 46 2 != 0 || !allZero (b.drop 56) }

/-- A reserved field of a descriptor is set, or a value is reserved. -/
def trigReserved (d : TrigDesc) : Bool :=
  d.rsvSet || d.top == 0 || 4 < d.top || 4 ≤ d.tflags || 1024 ≤ d.trig || 4096 ≤ d.coll || 16384 ≤ d.dstModule
    || 64 ≤ d.dstClearing || 4 ≤ d.portSet || d.length % 64 != 0 || (d.top == 1 && 32768 < d.length)
    || !locOk d.src || !locOk d.dst || 1024 ≤ d.dstTrig || 1024 ≤ d.srcAck

/-- The ends of a transfer lie outside what the posting clearing may reach on this module (11 R239). -/
def trigForeign (s : State) (n : Nat) (d : TrigDesc) : Bool :=
  d.top != 4 && (!s.locReach n n d.src d.length
    || (d.dstModule == s.ownModule && !s.locReach n d.dstClearing d.dst d.length))

/-- The lowest free descriptor slot of a link die, within the clearing's quota. -/
def freeTrigSlot (s : State) (die n : Nat) : Option Nat :=
  let x := s.linkDie die
  if s.rd (0x5220 + n) 2 ≤ (x.slots.filter fun p => p.2.clearing == n).length then none
  else
    let k := firstGap 0 x.slots
    if k < 4096 then some k else none

/-- A descriptor posted, and what it starts at once; its status. -/
def postTrig (s : State) (die n : Nat) (d : TrigDesc) : State :=
  if trigReserved d then s.emit (.status .trigInvalid)
  else if s.trigForeign n d then s.emit (.status .tierForeign)
  else match s.takeTrig die n d.trig, s.freeTrigSlot die n with
    | some s1, some k =>
      let x := s1.linkDie die
      fireAll die 65536 (s1.setDie die { x with slots := ins x.slots k { clearing := n, desc := d, attempt := 0 } })
    | _, _ => s.emit (.status .quotaShort)

/-! ### Collectives that fail (14 R313) -/

/-- Whether a tile slot waits: it is LOADED and its wait condition is not met. -/
def waitingTile (s : State) (n g c : Nat) : Option Nat :=
  (((s.cell g c).slots.find? fun t => t.desc.clearing == n && t.st == .loaded)).map (·.desc.tileId)

/-- A clearing's plan stops at its waiting tiles (14 R313), in the form of 03 R49. -/
def stopWaiting (s : State) (n : Nat) (why : Name) : State :=
  (s.cells.map (·.1)).foldl (fun s k =>
    match s.waitingTile n (k / 256) (k % 256) with
    | some id => if (s.clr n).stopped.contains (k / 256) then s else s.stopPlan n (k / 256) (k % 256) id 0 why
    | none => s) s

/-- A module of a failed collective: its descriptors and held sources are freed, and later chunks are discarded. -/
def dropColl (s : State) (n coll : Nat) : State :=
  let x := s.coll n coll
  if x.failed then s
  else
    let mine (t : Trig) : Bool := t.clearing == n && t.desc.coll == coll
    let clean (x : LinkDie) : LinkDie := { x with
      slots := x.slots.filter (fun q => !mine q.2), holds := x.holds.filter (fun t => !mine t) }
    let s1 : State := { s with linkDies := s.linkDies.map fun p => (p.1, clean p.2) }
    ((s1.setColl n coll { x with failed := true }).bump (0x5220 + n) 3 1).stopWaiting n .collFailed

/-- A module that a failed collective of a job names: the job's press clearings here report it at the next sweep
(15 R331). -/
def suspect (s : State) (n modNo : Nat) : State :=
  (s.present.filter fun m => s.sameJob n m && s.jobRole m == 1).foldl (fun s m =>
    s.setRecov m { s.recov m with suspects := ((s.recov m).suspects ++ [modNo]).eraseDups }) s

/-- The module that finds the failure tells every module of the collective its plan names, and posts COLL_FAILED with the
status, COLL, CHUNK, OP_ID and both modules. -/
def failColl (s : State) (n coll chunk opId peer : Nat) (status : Name) : State :=
  let mods : List Nat := match s.planOf n with
    | some p => ((p.collMods.find? fun q => q.1 == coll).map (·.2)).getD []
    | none => []
  let line := leBytes 2 (coll % 4096) ++ zeros 2 ++ leBytes 4 chunk ++ zeros 12 ++ leBytes 4 status.code ++ leBytes 8 opId
    ++ zeros 32
  let s1 := mods.foldl (fun s m => if m == s.ownModule then s
    else (s.emit (.collFail m coll status opId)).launch n m { op := 7, clearing := n, job := 0, head := line }) s
  let s2 := if status == .chunkCorrupt || peer == s.ownModule then s1 else s1.suspect n peer
  (s2.post .collFailed n status opId
    (leBytes 4 coll ++ leBytes 4 chunk ++ leBytes 8 opId ++ leBytes 4 s.ownModule ++ leBytes 4 peer)).dropColl n coll

/-! ### Chunks (14 R311, R312) -/

/-- The port a transfer from a module arrives on: the die's port of the direction towards it. -/
def arrivalPort (s : State) (die src : Nat) : Option Nat :=
  (direction s.ownModule src).bind fun d => [d, d + 8, d + 16].find? fun p => dieOfPort p == die

/-- A message about a chunk to the module that sent it: CHUNK_ACK or CHUNK_RETRY, with the chunk's transfer line (14 R311,
R312). -/
def answerChunk (s : State) (die : Nat) (l : ChunkLine) (op : Nat) : State :=
  (s.emit (if op == 5 then .chunkAck l.src l else .chunkRetry l.src l)).carry l.clearing l.src
    { die := die, op := op, clearing := l.clearing, job := l.job, head := slice l.line 0 64 }

/-- A chunk whose lines have landed and whose check agrees is used: it counts in DST_TRIG, signals, and is acknowledged (14
R311). -/
def useChunk (s : State) (die : Nat) (l : ChunkLine) : State :=
  let n := l.clearing
  let x := s.coll n l.coll
  let s1 := (s.setColl n l.coll { x with accepted := l.chunk :: x.accepted }).bumpTrig die n l.dstTrig 1
  (if l.signalOn then s1.linkSignal n l.signal else s1).answerChunk die l 5

/-- The lines at a location wait for an open snapshot (11 R251). -/
def locStalled (s : State) (n v len : Nat) : Bool := locTier v == 1 && !(s.uncopied n (locOff v) len).isEmpty

/-- A chunk arrives at its destination: its lines land, and only where its check agrees do they count (14 R311, R312). Lines
that wait for a snapshot hold it back until they are written (11 R251). `asker` is the sender's clearing, which no field
of the transfer holds (log entry 28). -/
def takeChunk (s : State) (die : Nat) (l : ChunkLine) (dst : Nat) (data : List Byte) (asker : Nat := 0) : State :=
  let n := l.clearing
  let x := s.coll n l.coll
  let same (w : WaitChunk) : Bool := w.line.clearing == n && w.line.coll == l.coll && w.line.chunk == l.chunk
  if l.reserved || !locOk dst then s.emit (.status .reservedSet)
  else if !s.locRemote l.job n dst data.length then
    s.postAll .remoteForeign .ok (words [l.src, asker])
  else if x.failed then s
  else if x.accepted.contains l.chunk then (s.bump (0x5220 + n) 7 1).answerChunk die l 5
  else if s.waitingChunks.any same then s.bump (0x5220 + n) 7 1
  else
    let s1 := (match s.arrivalPort die l.src with
      | some p => s.charge n (0x20 + p) 1 data.length
      | none => s).locWrite n dst data
    if crc32c data != l.crc then (s1.bump (0x5220 + n) 6 1).answerChunk die l 6
    else if s.locStalled n dst data.length then
      { s1 with waitingChunks := s1.waitingChunks ++ [{ die := die, line := l, dst := dst, len := data.length }] }
    else s1.useChunk die l

/-- The chunks whose lines have been written since are used, in the order they arrived; those of a failed collective, or
of a clearing that is gone, are discarded (14 R311, R313). -/
def landWaiting (s : State) : State :=
  s.waitingChunks.foldl (fun s w =>
    if !s.exists? w.line.clearing || (s.coll w.line.clearing w.line.coll).failed then s
    else if s.locStalled w.line.clearing w.dst w.len then { s with waitingChunks := s.waitingChunks ++ [w] }
    else s.useChunk w.die w.line) { s with waitingChunks := [] }

/-- The held source of a chunk: its collective, chunk and OP_ID name it within its job (14 R312). -/
def heldChunk (s : State) (die : Nat) (l : ChunkLine) : Option Trig :=
  (s.linkDie die).holds.find? fun t =>
    s.jobOf t.clearing == l.job && t.desc.coll == l.coll && t.desc.chunk == l.chunk && t.desc.opId == l.opId

/-- A held source released. -/
def releaseHold (s : State) (die : Nat) (t : Trig) : State :=
  let x := s.linkDie die
  s.setDie die { x with holds := x.holds.filter (· != t) }

/-- A chunk is sent again on the next port set, or its fourth failure fails the collective. -/
def retryChunk (s : State) (die : Nat) (t : Trig) (undelivered : Bool) : State :=
  if t.attempt < 3 then
    ((s.releaseHold die t).sendChunk die { t with attempt := t.attempt + 1 }).bump (0x5220 + t.clearing) 5 1
  else s.failColl t.clearing t.desc.coll t.desc.chunk t.desc.opId t.desc.dstModule
    (if undelivered then .chunkUndelivered else .chunkCorrupt)

end State

/-! ### The commands -/

/-- TRIG_POST: a triggered-operation descriptor of 64 bytes is posted to a link die (14 R308). -/
def execTrigPost (die n : Nat) (d : List Byte) (s : State) : Ans :=
  inRange (wfLinkDie die && wfClearing n) s (onlyIf (s.exists? n) s (s.postTrig die n (State.readTrig d)))

/-- CHUNK_ARRIVE (14 R311, R312). -/
def execChunkArrive (die : Nat) (l : ChunkLine) (dst : Nat) (data : List Byte) (s : State) (asker : Nat := 0) : Ans :=
  inRange (wfLinkDie die && wfClearing l.clearing) s (s.landWaiting.takeChunk die l dst data asker)

/-- CHUNK_ACK: the acknowledgement counts in SRC_ACK and releases the held source (14 R308, R311). -/
def execChunkAck (die : Nat) (l : ChunkLine) (s : State) : Ans :=
  let k := match s.heldChunk die l with
    | none => s
    | some t => if l.reserved then s.emit (.status .reservedSet) else
      (s.releaseHold die t).bumpTrig die t.clearing t.desc.srcAck 1
  inRange (wfLinkDie die && wfClearing l.clearing) s k

/-- CHUNK_RETRY: a retry request, or an undeliverable report of the link layer (14 R312). -/
def execChunkRetry (die : Nat) (l : ChunkLine) (undelivered : Bool) (s : State) : Ans :=
  let k := match s.heldChunk die l with
    | none => s
    | some t => if l.reserved && !undelivered then s.emit (.status .reservedSet) else s.retryChunk die t undelivered
  inRange (wfLinkDie die && wfClearing l.clearing) s k

/-- COLL_FAIL arrives at a module of the collective (14 R313), with the transfer line it came in, which is refused as a
whole for a reserved bit (00 R9). -/
def execCollFail (n coll _status _opId : Nat) (s : State) (line : Option ChunkLine := none) : Ans :=
  let bad := match line with
    | some l => l.reserved true || l.coll != coll
    | none => false
  inRange (wfClearing n && wfColl coll) s
    (onlyIf (s.exists? n) s (if bad then s.emit (.status .reservedSet) else s.dropColl n coll))

/-- A collective is not complete on this module: a descriptor of it waits, or a chunk of it is not acknowledged (DEDUCED
from 14 R313: log entry 27). -/
def State.collOpen (s : State) (n coll : Nat) : Bool :=
  let mine (t : Trig) : Bool := t.clearing == n && t.desc.coll == coll
  s.linkDies.any fun p => (p.2.slots.any fun q => mine q.2) || p.2.holds.any mine

/-- The modules of the chunks of a collective that are not acknowledged. -/
def State.owing (s : State) (n coll : Nat) : List Nat :=
  s.linkDies.flatMap fun p =>
    (p.2.holds.filter fun t => t.clearing == n && t.desc.coll == coll).map fun t => s.chainModule n t.desc.dstModule

/-- COLL_TIMEOUT: a collective is not complete COLL_TIMEOUT_MS after its first descriptor fired (14 R313). `missing` is
the module whose chunk this one waits for; without one the failure names the first that owes an acknowledgement (15
R331). -/
def execCollTimeout (n coll : Nat) (s : State) (missing : Option Nat := none) : Ans :=
  let x := s.coll n coll
  let late := match x.firstFire with
    | some t => 1000000 * s.rd 0x5200 5 ≤ s.time - t
    | none => false
  let peer := missing.getD ((s.owing n coll).headD s.ownModule)
  inRange (wfClearing n && wfColl coll) s
    (onlyIf (late && !x.failed && (s.collOpen n coll || missing.isSome)) s (s.failColl n coll 0 0 peer .collTimeout))

/-! ### Snapshots whose writes proceed (11 R249, R251, R253) -/

/-- BLOCK_COPIED: the last line of a channel's block is at the destination (11 R249). -/
def execBlockCopied (ch : Nat) (s : State) : Ans :=
  let k := match (s.copier ch).clearing, State.nextBlock (s.copier ch) with
    | some n, some b => (s.copyBlock n ch b).landWaiting
    | some n, none => (s.endSnapshot n ch).landWaiting
    | none, _ => s
  inRange (wfChannel ch) s k

/-- SNAPSHOT_FAILED: the destination cannot be reached, or a line of the block being copied failed its code (11 R248,
R253). -/
def execSnapshotFailed (ch : Nat) (cause : SnapCause) (s : State) : Ans :=
  let s1 := match cause, (s.copier ch).clearing, State.nextBlock (s.copier ch) with
    | .badRead i, some n, some b =>
      let off := b * blockBytes + 64 * (i % 32768)
      (s.loseLine (regionPlace 1 n off)).postMemoryLost n 0 off 1
    | _, _, _ => s
  inRange (wfChannel ch) s (s1.failSnapshot ch).landWaiting

end Sys2Proof.Machine
end

