-- ==== Sys2Proof/Machine/Links.lean ====
section
/-! DEFINITION. Ports, their bring-up and identity, flits and their replay, transit, and gateways (14 R292 to R305,
19 R410, R417). -/

namespace Sys2Proof.Machine

/-! ### Certificates (19 R415) -/

/-- The certified public key. -/
def certKey (c : List Byte) : List Byte := slice c 84 (field c 80 2)
/-- A certificate of a kind whose signature verifies under a public key. -/
def certOk (kind : Nat) (signer c : List Byte) : Bool :=
  let n := 84 + field c 80 2
  slice c 0 8 == ascii "CRIRONKC" && field c 8 1 == kind && slice c 16 32 == sha256 signer
    && Config.slhVerify signer (c.take n) (slice c n 7856)
/-- An ID_CERT under a device CA key whose hash is in the boot ROM; the ROM names the key by its hash. -/
def idCertOk (c : List Byte) : Bool :=
  let n := 84 + field c 80 2
  slice c 0 8 == ascii "CRIRONKC" && field c 8 1 == 0 && (Config.romKeyIndex (slice c 16 32)).isSome
    && Config.slhVerify (slice c 16 32) (c.take n) (slice c n 7856)

namespace State

/-! ### Bring-up (14 R305, 21 R458, R460) -/

/-- The bytes of a cable's name fields as a STR value. -/
def setCable (s : State) (p : Nat) (c : Cable) : State :=
  let i := 0x5000 + 16 * p
  let s1 := (s.wrBlob i 9 (c.vendor.take 16)).wrBlob i 0xA (c.part.take 16)
  let s2 := (s1.wrBlob i 0xB (c.serial.take 16)).wr i 8 (min (c.lenDm + c.delayPs / 500) 0xFFFF)
  s2.setPort p { s2.port p with cable := some c }

/-- The link layer starts afresh: sequence numbers, credits and the replay buffer; what has not left yet stays queued. -/
def freshPort (s : State) (p : Nat) : State :=
  s.setPort p { s.port p with
    proven := none, expected := 0, sent := 0, acked := 0, replays := 0, replay := [], credits := [], held := [], owed := [] }

/-- A lane replaced by lane 8, and counted (14 R295): the other end is told. -/
def spareIn (s : State) (p lane : Nat) : State :=
  let x := s.port p
  let s1 := (s.wr (0x5000 + 16 * p) 3 lane).setPort p { x with lanesFailed := [lane], spares := x.spares + 1 }
  (s1.postAll .laneSpared .ok (words [p, lane])).emit (.spare p lane)

/-- A lane of a port that is up replaced by lane 8: the flits that were in flight are to be replayed (14 R295, R298). -/
def spareLane (s : State) (p lane : Nat) : State :=
  (s.spareIn p lane).emit (.replay p (((s.port p).expected + 4095) % 4096))

/-- This module's first IDENT on a port (14 R305 step 3): module number, port, ID_CERT, ATTEST_CERT and a nonce. -/
def sendIdent (s : State) (p : Nat) : State :=
  let d := s.drbg 32
  let s1 := d.2.setPort p { d.2.port p with nonce := d.1 }
  s1.emit (.ident p (leBytes 2 (s1.ownModule) ++ leBytes 1 p ++ s1.rdBlob 0x8000 2 ++ s1.rdBlob 0x8000 3 ++ d.1))

/-- A port brought up: its cable is read, its lanes train, and identity is exchanged. A gateway port has no peer module
and is UP once it is trained; the cable's media type tells which of its two PHYs it runs, and lane 8 is not used there
(14 R304, R305). A lane 8 that fails training leaves no spare. -/
def bringUp (s : State) (p : Nat) (e : PortEnv) : State :=
  let i := 0x5000 + 16 * p
  let s0 := (s.freshPort p).wr i 3 0xFF
  let s1 := s0.setPort p { s0.port p with lanesFailed := [], cable := none }
  if s.portMode p == 0 then s1.setPortState p 0
  else match e.cable with
    | none => (s1.setPortState p 0).postAll .cableUnknown .ok (words [p])
    | some c =>
      let s2 := s1.setCable p c
      if 3000 < c.powerMw then (s2.setPortState p 0).postAll .cablePower .ok (words [p, c.powerMw])
      else if !e.trained || (s.portMode p == 4 && e.badLane.any fun l => l != 8) then (s2.setPortState p 5).shiftQueue p
      else
        let s3 := match e.badLane with
          | some 8 => s2.setPort p { s2.port p with lanesFailed := [8] }
          | some l => s2.spareIn p l
          | none => s2
        if s.portMode p == 4 then s3.setPortState p 3 else (s3.setPortState p 2).sendIdent p

/-- The PHY that a gateway port runs (14 R304): 1.6TBASE-CR8 on copper cable, else 1.6TAUI-8; none without a cable. -/
def gatewayPhy (s : State) (p : Nat) : Option String :=
  if s.portMode p != 4 then none else (s.port p).cable.map fun c => if c.copper then "1.6TBASE-CR8" else "1.6TAUI-8"

/-- The die and held source of a chunk's last transmission, by its transfer tag. -/
def heldTag (s : State) (tag : Nat) : Option (Nat × Trig) :=
  ((List.range 4).flatMap fun die => (s.linkDie die).holds.map fun t => (die, t)).find? fun x => x.2.tag == tag

/-- A transfer of this module's engines that a port cannot deliver (14 R298): a chunk is sent again (R312), and of any
other the engine that sent it is told. -/
def reportLost (s : State) (f : Flit) : State :=
  match (if f.op == 4 then s.heldTag f.tag else none) with
  | some (die, t) => s.retryChunk die t true
  | none => s.emit (.undelivered f.dest f.tag)

/-- A port retrained: bring-up, identity exchange included (14 R295). Every transfer of this module with an
unacknowledged flit on it is reported (R298). -/
def retrain (s : State) (p : Nat) : State :=
  let mine := (s.port p).replay.filter fun f => f.src == s.ownModule
  let lost := (mine.map fun f => (f.dest, f.tag)).eraseDups.filterMap fun k => mine.find? fun f => (f.dest, f.tag) == k
  lost.foldl reportLost (((s.bump (0x5001 + 16 * p) 4 1).freshPort p).setPortState p 1)

/-- A port carries traffic again: SPARED when lane 8 is in use. What was queued for it leaves. -/
def portUp (s : State) (p : Nat) : State :=
  (s.setPortState p (if s.rd (0x5000 + 16 * p) 3 == 0xFF then 3 else 4)).pumpPort p

/-- What the exchange signature covers (14 R305): both nonces, both module numbers and both ports, the signer's first. -/
def identText (n1 n2 : List Byte) (m1 p1 m2 p2 : Nat) : List Byte :=
  n1 ++ n2 ++ leBytes 2 m1 ++ leBytes 2 m2 ++ leBytes 1 p1 ++ leBytes 1 p2

/-- The peer proves its identity (19 R417). -/
def peerOk (s : State) (p : Nat) (x : Ident) : Bool :=
  idCertOk x.idCert && certOk 1 (certKey x.idCert) x.attestCert
    && Config.slhVerify (certKey x.attestCert)
      (identText x.nonce (s.port p).nonce x.peerModule x.peerPort s.ownModule p) x.signature

/-- A peer whose proven identity is the expected one, or that any may be: it is recorded, and the port is UP (14 R305,
step 4). -/
def acceptPeer (s : State) (p : Nat) (hash : List Byte) : State :=
  let i := 0x5000 + 16 * p
  let s1 := (s.wrBlob i 6 hash).portUp p
  if allZero (slice (s.rdBlob i 7) 0 32) then
    s1.postAll .neighbourNew .ok (leBytes 2 (s.rd i 4) ++ leBytes 1 (s.rd i 5) ++ hash)
  else s1

/-- PEER_EXPECTED written: a port in IDENT_MISMATCH whose peer has proven the identity now expected becomes UP (19 R417). -/
def expectPeer (s : State) (p : Nat) : State :=
  let want := slice (s.rdBlob (0x5000 + 16 * p) 7) 0 32
  match (s.port p).proven with
  | some hash => if s.portState p == 6 && (allZero want || want == hash) then s.acceptPeer p hash else s
  | none => s

/-- The peer's identity judged against PEER_EXPECTED (14 R305 step 4, 19 R417). -/
def judgePeer (s : State) (p : Nat) (x : Ident) : State :=
  let i := 0x5000 + 16 * p
  let hash := sha256 (certKey x.idCert)
  let want := slice (s.rdBlob i 7) 0 32
  let d := leBytes 2 x.peerModule ++ leBytes 1 p ++ hash
  let own := s.signAttest
    (identText (s.port p).nonce x.nonce s.ownModule p x.peerModule x.peerPort)
  let s1 := ((s.wr i 4 x.peerModule).wr i 5 x.peerPort).emit (.ident p own)
  if !s.peerOk p x || (!allZero want && want != hash) then
    let s2 := s1.setPort p { s1.port p with proven := if s.peerOk p x then some hash else none }
    (s2.setPortState p 6).postAll .neighbourChanged .ok d
  else s1.acceptPeer p hash

/-- A lane fails (14 R295): the first on a port is replaced by lane 8, a second retrains the port, and so does a loss of
lock on all lanes (9); on a gateway port any failure of a lane it uses fails the port (14 R304). A port that still
exchanges identity, or whose peer is not accepted, stays so. -/
def laneFails (s : State) (p lane : Nat) : State :=
  let x := s.port p
  if s.portMode p == 4 then if lane == 8 then s else (s.setPortState p 5).shiftQueue p
  else if lane == 9 then s.retrain p
  else if x.lanesFailed.contains lane then s
  else if s.rd (0x5000 + 16 * p) 3 == 0xFF && lane < 8 && !x.lanesFailed.contains 8 then
    if s.portWorks p then (s.spareLane p lane).setPortState p 4 else s.spareLane p lane
  else if lane == 8 && s.rd (0x5000 + 16 * p) 3 == 0xFF then s.setPort p { x with lanesFailed := [8] }
  else s.retrain p

/-! ### Flits on a port (14 R296 to R298) -/

/-- A flit's LACK and credits taken in: acknowledged flits leave the replay buffer. -/
def takeLink (s : State) (p : Nat) (f : Flit) : State :=
  let x := s.port p
  let kept := x.replay.filter fun g => (g.lseq + 4096 - f.lack) % 4096 != 0 && (g.lseq + 4096 - f.lack) % 4096 < 2048
  s.setPort p { x with
    replay := kept, acked := f.lack, replays := if f.lack == x.acked then x.replays else 0,
    credits := if f.credits == 0 then x.credits
      else ins x.credits f.creditVc (min 192 (s.creditsOf p f.creditVc + 4 * f.credits)) }

/-- Credits that no flit of the port's own waits to carry back are returned by a CONTROL flit, four at a time (14 R297;
DESIGN CHOICE, log entry 27). -/
def returnCredits (s : State) (p : Nat) : State :=
  let c := s.creditsBack p
  let x := s.port p
  if c.2 == 0 || !x.queue.isEmpty || !s.portWorks p then s
  else
    let f : Flit := {
      portSet := 0, dest := s.rd (0x5000 + 16 * p) 4, src := s.ownModule, op := 9, vc := 0, lines := 0, expressDone := false,
      hops := 0, clearing := 0, job := 0, target := 0, lseq := 0, lack := 0, credits := 0, creditVc := 0, tag := 0,
      lineIdx := 0, payload := [], rsv := 0, fcrc := 0 }
    (s.setPort p { x with owed := countAt x.owed c.1 (-(4 * c.2 : Int)) }).emit (.flit p (s.sealFlit p f))

/-- A replay request (14 R298): every flit after LACK leaves again; the eighth replay of the same flit retrains. -/
def replayFrom (s : State) (p : Nat) : State :=
  let x := s.port p
  let n := x.replays + 1
  if 8 ≤ n then s.retrain p
  else
    let s1 := (s.setPort p { x with replays := n }).bump (0x5001 + 16 * p) 3 x.replay.length
    x.replay.foldl (fun s g => s.emit (.flit p g)) s1

/-- A flit has left the buffer of its virtual channel: the credit is to be returned (14 R297). -/
def leaveBuffer (s : State) (p vc : Nat) : State :=
  let x := s.port p
  if (look x.held vc).getD 0 == 0 then s
  else s.setPort p { x with held := countAt x.held vc (-1), owed := countAt x.owed vc 1 }

/-- The buffer of a channel is full: a flit that arrives nevertheless was sent without a credit (14 R297). -/
def bufferFull (s : State) (p vc : Nat) : Bool := 192 ≤ (look (s.port p).held vc).getD 0

/-- What a BUDDY port carries for this module (14 R303): snapshots and checkpoint reads, their replies, and identity. -/
def buddyCarries (f : Flit) : Bool := f.op == 1 || f.op == 2 || f.op == 3 || f.op == 8

/-- A flit stands in a buffer of the port; one for this module goes on to its engine at once, and so does one that the port
discards, which is counted where its port is a buddy's (14 R297, R303). One refused for a reserved field goes no
further (00 R9). -/
def enterBuffer (s : State) (p : Nat) (f : Flit) : State :=
  let x := s.port p
  let s1 := s.setPort p { x with held := countAt x.held f.vc 1 }
  if f.reserved then (s1.leaveBuffer p f.vc).emit (.status .reservedSet)
  else if s.portMode p == 3 && (f.dest != s.ownModule || !buddyCarries f) then
    (s1.leaveBuffer p f.vc).bump (0x5001 + 16 * p) 6 1
  else if f.dest == s.ownModule then s1.leaveBuffer p f.vc
  else s1

/-- A flit arrives on a port (14 R296 to R298, R303). One that is sound and in sequence is acknowledged, whatever becomes of
it; one for which no buffer is free is asked for again (DESIGN CHOICE, log entry 27). -/
def takeFlit (s : State) (p : Nat) (f : Flit) : State :=
  let x := s.port p
  let last := (x.expected + 4095) % 4096
  if !f.fcrcOk then s.emit (.replay p last)
  else if f.op == 9 then
    if f.reserved then s.emit (.status .reservedSet)
    else if f.credits == 0 then (s.takeLink p f).replayFrom p
    else (s.takeLink p f).pumpPort p
  else if f.lseq != x.expected || s.bufferFull p f.vc then s.emit (.replay p last)
  else
    let s1 := s.takeLink p f
    (((s1.setPort p { s1.port p with expected := (x.expected + 1) % 4096 }).enterBuffer p f).pumpPort p).returnCredits p

/-! ### Transit (14 R299 to R302) -/

/-- The virtual channel a flit leaves on: the lower of its class on entering a dimension, the higher once it crosses the
dateline. -/
def nextVc (s : State) (src dst vc : Nat) : Nat :=
  let low := vc / 2 * 2
  let kept := if dimOf src == dimOf dst && dimOf dst != none then vc else low
  if s.crosses dst then low + 1 else kept

/-- A flit bound elsewhere is forwarded, or discarded (14 R301 to R303). Without a working port, a credit or room for a
replay it waits. -/
def forward (s : State) (p : Nat) (f : Flit) : State :=
  let drop := (s.bump (0x5001 + 16 * p) 6 1).leaveBuffer p f.vc
  let done := f.expressDone || s.portMode p == 2
  if f.reserved then s.emit (.status .reservedSet)
  else if s.portMode p == 3 || 31 ≤ f.hops + 1 then drop
  else match s.hopPort (dieOfPort p) f.dest f.portSet done with
    | none => s
    | some q =>
      let vc := s.nextVc p q (if s.portMode p == 2 then f.vc / 2 * 2 else f.vc)
      let g : Flit := { f with hops := f.hops + 1, expressDone := done, vc := vc }
      if !s.canSend q vc then s
      else (((s.leaveBuffer p f.vc).sendFlit q g).bump (0x5001 + 16 * q) 5 (64 * f.lines)).returnCredits p

/-! ### Gateways (14 R304, 19 R410) -/

/-- The link-local address of the gateway's MAC address, by its modified EUI-64 (log entry 27). -/
def linkLocal (s : State) (p : Nat) : List Byte :=
  let m := beBytes 6 (s.rd (0x5002 + 16 * p) 1)
  [0xfe, 0x80] ++ zeros 6 ++ [(m.headD 0) ^^^ 2] ++ (m.drop 1).take 2 ++ [0xff, 0xfe] ++ m.drop 3

/-- Neighbor Discovery is answered for the gateway's own addresses only. -/
def ownAddress (s : State) (p : Nat) (a : List Byte) : Bool :=
  let g := slice (s.rdBlob (0x5002 + 16 * p) 2) 0 16
  (a == g && !allZero g) || a == s.linkLocal p

/-- A frame is one that the gateway takes: for its MAC and one of its addresses, on its UDP port and VLAN, of a length
it takes (14 R304). -/
def gatewayOwn (s : State) (p : Nat) (d : GwDatagram) : Bool :=
  let i := 0x5002 + 16 * p
  d.mac == s.rd i 1 && s.ownAddress p d.addr && d.udpPort == s.rd i 3 && d.vlan == s.rd i 4 && d.frameBytes ≤ 9216

/-- A slot of a clearing's tier-2 region holds a complete generation: its manifest copy is valid and names it (15 R324). -/
def slotHolds (s : State) (n off gen : Nat) : Bool :=
  let h := s.peek (regionAddr 2 n off) 64
  slice h 0 8 == ascii "CRIRONCM" && field h 60 4 == crc32c (slice h 0 60) && field h 16 4 == gen

/-- Bytes a datagram that this module sends carries at most, within the frames of R304 (DESIGN CHOICE, log entry 27). -/
abbrev datagramBytes : Nat := 8192

/-- Bytes of a clearing's tier-2 region sent in a transfer of a session: datagrams in ascending number, each sealed
under the transfer's key (19 R410), charged to the clearing. Numbers go on from the highest used in the transfer either
way, so that no nonce is used twice (DESIGN CHOICE, log entry 27). -/
def sendDatagrams (s : State) (p sess transfer n off len : Nat) : State :=
  match s.session sess with
  | none => s
  | some x =>
    let key := pow2 32 * sess + transfer
    let gk := hkdfExpand x.sk (ascii "CRIRON-GW" ++ leBytes 4 transfer) 32
    let k0 := max ((look s.sec.sendNext key).getD 0) ((((look s.sec.datagrams key).getD []).foldl max 0) + 1)
    let count := ceilDiv len datagramBytes
    let one (i : Nat) : Out :=
      let data := s.peek (regionAddr 2 n (off + datagramBytes * i)) (min datagramBytes (len - datagramBytes * i))
      let c := Config.gcmSeal gk (leBytes 4 transfer ++ leBytes 8 (k0 + i)) [] data
      .datagram p sess transfer (k0 + i) c.1 c.2
    let s1 := (s.chargeRange n 2 off len).charge n (0x20 + p) 0 len
    { s1 with
      sec := { s1.sec with sendNext := ins s1.sec.sendNext key (k0 + count) },
      outbox := s1.outbox ++ (List.range count).map one }

/-- A drain of a complete generation begins: of the newest or the one before it of a press clearing here, or of a slot
here that holds it for a writer elsewhere. It holds those slots until its last line is sent, and the members are told;
the slot that lies here is sent in the transfer of the session that asks (15 R326, 19 R410; what asks for it: DESIGN
CHOICE, log entry 27). -/
def startDrain (s : State) (p n off gen : Nat) (d : Nat × Nat) : State :=
  let x := s.ckpt n
  let known := s.rd (0x4080 + n) 0xD == gen || x.prev.map (·.generation) == some gen || s.slotHolds n off gen
  if s.jobRole n == 1 && known && gen != 0 then
    let s1 := ((s.setCkpt n { x with drains := if x.drains.contains gen then x.drains else x.drains ++ [gen] }).tellMembers n
      "DRAIN" [gen]).emit (.drain p n gen)
    if s.slotHolds n off gen then s1.sendDatagrams p d.1 d.2 n off (blockBytes + shardBytes (s.slotHeader n off)) else s1
  else s

/-- A datagram of a bulk transfer (19 R410): opened under the transfer's key, taken once, and written into the receiving
clearing's tier through its regulators. -/
def takeDatagram (s : State) (p : Nat) (d : GwDatagram) : State :=
  let fail := s.bump (0x5002 + 16 * p) 5 1
  match s.session d.session with
  | none => fail
  | some x =>
    let key := pow2 32 * d.session + d.transfer
    let seen := (look s.sec.datagrams key).getD []
    let top := seen.foldl max 0
    let gk := hkdfExpand x.sk (ascii "CRIRON-GW" ++ leBytes 4 d.transfer) 32
    match Config.gcmOpen gk (leBytes 4 d.transfer ++ leBytes 8 d.number) [] d.sealedData d.tag with
    | none => fail
    | some data =>
      if !seen.isEmpty && d.number + 1023 < top then fail
      else if seen.contains d.number then s
      else
        let kept := d.number :: seen.filter fun k => max top d.number ≤ k + 1023
        let s1 := { s with sec := { s.sec with datagrams := ins s.sec.datagrams key kept } }
        let own := (x.role == Role.manager || s.isTenantOf x.role d.clearing) && s.exists? d.clearing
        let may := own && (d.tier == 1 || d.tier == 2) && d.offset + data.length ≤ s.regionLen d.clearing d.tier
        match d.op with
        | .drain gen => if own then s1.startDrain p d.clearing d.offset gen (d.session, d.transfer) else s1
        | .data => if may then
            (s1.charge d.clearing (0x20 + p) 1 data.length).writeRegion d.clearing d.tier d.offset data
          else s1

end State

/-! ### The commands -/

/-- PORT_BRINGUP: at start-up, after a retraining and after a change of mode (14 R305). -/
def execPortBringup (p : Nat) (env : PortEnv) (s : State) : Ans := inRange (wfPort p) s (s.bringUp p env)

/-- IDENT_RECEIVE: the peer's identity and its exchange signature (14 R305, 19 R417). -/
def execIdentReceive (p : Nat) (id : Ident) (s : State) : Ans :=
  inRange (wfPort p) s (onlyIf (s.portState p == 2 || s.portState p == 6) s (s.judgePeer p id))

/-- LANE_FAILURE (14 R295), of a port that is up or exchanges identity. -/
def execLaneFailure (p lane : Nat) (s : State) : Ans :=
  inRange (wfPort p && wfLane lane) s
    (onlyIf (s.portWorks p || s.portState p == 2 || s.portState p == 6) s (s.laneFails p lane))

/-- FLIT_RECEIVE (14 R298), with the codewords that its port's FEC met; in IDENT and IDENT_MISMATCH a port carries
nothing but IDENT (R305). -/
def execFlitReceive (p : Nat) (f : Flit) (s : State) : Ans :=
  let open? := s.portMode p != 4 && (s.portWorks p || ((s.portState p == 2 || s.portState p == 6) && (f.op == 8 || f.op == 9)))
  let s1 := (s.bump (0x5001 + 16 * p) 1 f.fecFixed).bump (0x5001 + 16 * p) 2 f.fecLost
  inRange (wfPort p && wfModule f.src) s (onlyIf open? s (s1.takeFlit p f))

/-- TRANSIT_FORWARD (14 R302); CONTROL flits are never forwarded (R297). -/
def execTransitForward (p : Nat) (f : Flit) (s : State) : Ans :=
  inRange (wfPort p && wfModule f.dest) s
    (onlyIf (s.portWorks p && s.portMode p != 4 && f.op != 9 && f.dest != s.ownModule) s (s.forward p f))

/-- GW_DATAGRAM: a datagram of the bulk-transfer protocol on a gateway port (19 R410). -/
def execGwDatagram (port : Nat) (d : GwDatagram) (s : State) : Ans :=
  inRange (wfGwPort port) s (onlyIf (s.portMode port == 4 && s.portWorks port && s.gatewayOwn port d) s (s.takeDatagram port d))

/-- GATEWAY_FRAME: a frame that is no protocol datagram is answered when it solicits an own address, counted when it is
flow control, and otherwise discarded (14 R304). -/
def execGatewayFrame (p : Nat) (f : GwFrame) (s : State) : Ans :=
  let k := match f with
    | .solicit a => if s.ownAddress p a then s.emit (.advert p) else s
    | .pause => s.bump (0x5002 + 16 * p) 6 1
    | .other => s
  inRange (wfGwPort p) s (onlyIf (s.portMode p == 4 && s.portWorks p) s k)

end Sys2Proof.Machine
end

