-- ==== Sys2Proof/Machine/Exact.lean ====
section
/-! DEFINITION. The exact results the errors of 06 R122 and R133 are counted from: the nine built-in functions carried
far beyond FP32, as integers in units of 2^-256. The largest error of any of them is below 2^-190 of one FP32 unit in
the last place of its result, which no FP32 value comes that close to except where the result is exact. -/

namespace Sys2Proof.Machine

/-- One, in the fixed point of this file. -/
abbrev fxOne : Int := (pow2 256 : Nat)

/-- The product of two fixed-point numbers. -/
def fxMul (a b : Int) : Int := a * b / fxOne

/-- The quotient of two fixed-point numbers. -/
def fxDiv (a b : Int) : Int := a * fxOne / b

/-- A finite value in fixed point. -/
def fxOf : FV → Int
  | .fin s m e => if s then -(shiftBy m (e + 256) : Int) else (shiftBy m (e + 256) : Int)
  | _ => 0

/-- A fixed-point number as a value. -/
def fxVal (a : Int) : FV := .fin (decide (a < 0)) a.natAbs (-256)

/-- The terms of a series summed: `next k t` is the term after term `k`, and `part k t` what term `k` adds. -/
def fxSum (next part : Nat → Int → Int) : Nat → Nat → Int → Int → Int
  | 0, _, _, acc => acc
  | j + 1, k, t, acc => fxSum next part j (k + 1) (next k t) (acc + part k t)

/-- `e^x` for `|x| ≤ 1`. -/
def fxExpSmall (x : Int) : Int := fxSum (fun k t => fxMul t x / (k + 1 : Nat)) (fun _ t => t) 70 0 fxOne 0

/-- The natural logarithm of a number from 1 to 2. -/
def fxLog (m : Int) : Int :=
  let z := fxDiv (m - fxOne) (m + fxOne)
  let z2 := fxMul z z
  2 * fxSum (fun _ t => fxMul t z2) (fun k t => t / (2 * k + 1 : Nat)) 90 0 z 0

/-- The natural logarithm of 2. -/
def fxLn2 : Int := fxLog (2 * fxOne)

/-- `2^x` for `x` above −2,000 and below 2,000; 0 below that. -/
def fxExp2 (x : Int) : Int :=
  let n := x / fxOne
  let r := fxExpSmall (fxMul (x - n * fxOne) fxLn2)
  if n < -2000 then 0 else if n < 0 then r / (pow2 n.natAbs : Nat) else r * (pow2 n.natAbs : Nat)

/-- `e^-x` for `x ≥ 0`. -/
def fxExpNeg (x : Int) : Int := fxExp2 (-(fxDiv x fxLn2))

/-- `-|x|` times the base-2 logarithm of e. -/
def fxExpPower (x : FV) : Int := fxDiv (-(fxOf (FV.abs x))) fxLn2

/-- The arctangent of `1 / k`. -/
def fxAtanInv (k : Nat) : Int :=
  fxSum (fun _ t => -(t / (k * k : Nat))) (fun j t => t / (2 * j + 1 : Nat)) 120 0 (fxOne / k) 0

/-- `1 / √(2π)`. -/
def fxInvRoot : Int :=
  let pi := 16 * fxAtanInv 5 - 4 * fxAtanInv 239
  fxDiv fxOne (isqrt 260 ((2 * pi).toNat * pow2 256) 0)

/-- The normal distribution function, for `|x| ≤ 8`: GELU is `x` times it (06 R122, erf form). -/
def fxPhi (x : Int) : Int :=
  let h := fxMul x x
  fxOne / 2 + fxMul fxInvRoot
    (fxSum (fun k t => -(fxMul t h / (2 * (k + 1) : Nat))) (fun k t => t / (2 * k + 1 : Nat)) 280 0 x 0)

/-- `1 / (1 + e^-x)`. -/
def fxSigmoid (x : Int) : Int :=
  let e := fxExpNeg x.natAbs
  if 0 ≤ x then fxDiv fxOne (fxOne + e) else fxDiv e (fxOne + e)

/-- The hyperbolic tangent. -/
def fxTanh (x : Int) : Int :=
  let e := fxExpNeg (2 * x.natAbs)
  let r := fxDiv (fxOne - e) (fxOne + e)
  if 0 ≤ x then r else -r

/-- `ln (1 + e^x)`. -/
def fxSoftplus (x : Int) : Int := fxLog (fxOne + fxExpNeg x.natAbs) + (if 0 ≤ x then x else 0)

/-- The base-2 logarithm of a positive value. -/
def fxLog2 : FV → Int
  | .fin _ m e =>
    let n := Nat.log2 m
    ((n : Int) + e) * fxOne + fxDiv (fxLog (shiftBy m (256 - (n : Int)))) fxLn2
  | _ => 0

/-- `1 / v`. -/
def recipExact : FV → FV
  | .fin s m e => .fin s (pow2 400 / m) (-400 - e)
  | v => v

/-- `1 / √v` of a positive value. -/
def rsqrtExact : FV → FV
  | .fin _ m e =>
    let m2 := if e % 2 == 0 then m else 2 * m
    let e2 := if e % 2 == 0 then e else e - 1
    .fin false (isqrt 402 (pow2 800 / m2) 0) (-400 - e2 / 2)
  | v => v

/-- The exact result of built-in function `code` at a finite value inside its domain (06 R122). -/
def exactBuiltin (code : Nat) (v : FV) : FV :=
  match code with
  | 0 => fxVal (fxExp2 (fxOf v))
  | 1 => fxVal (fxLog2 v)
  | 2 => recipExact v
  | 3 => rsqrtExact v
  | 4 => fxVal (fxTanh (fxOf v))
  | 5 => fxVal (fxSigmoid (fxOf v))
  | 6 => fxVal (fxMul (fxOf v) (fxPhi (fxOf v)))
  | 7 => fxVal (fxMul (fxOf v) (fxSigmoid (fxOf v)))
  | _ => fxVal (fxSoftplus (fxOf v))

/-- The error allowed, in units in the last place of the exact result (06 R122, R133). -/
def errorUlps (ad08 : Bool) (code : Nat) : Nat :=
  match code with
  | 0 => if ad08 then 4 else 1
  | 1 => if ad08 then 4 else 1
  | 2 => if ad08 then 2 else 1
  | 3 => if ad08 then 2 else 1
  | 4 => if ad08 then 8 else 2
  | 5 => if ad08 then 8 else 2
  | 6 => if ad08 then 16 else 3
  | 7 => 3
  | _ => 2

/-- A result lies within the error allowed of the exact one: so many units in the last place, or for native LOG2 from
0.75 to 1.5 an absolute 2^-25 (06 R122). -/
def withinError (ad08 : Bool) (code : Nat) (v y : FV) : Bool :=
  match exactBuiltin code v with
  | .fin s m e =>
    let d := FV.abs (FV.add y (.fin (!s) m e))
    if !ad08 && code == 1 && FV.le (.fin false 3 (-2)) v && FV.lt v (.fin false 3 (-1)) then FV.le d (.fin false 1 (-25))
    else FV.le d (.fin false (errorUlps ad08 code) (fp32.ulpExp m e))
  | _ => false

end Sys2Proof.Machine
end

