-- ==== Sys2Proof/Machine/Micro.lean ====
section
/-! DEFINITION. Micro-programs: their steps, the store's validation and states, and the evaluator; the built-in
functions (06 R121 to R133). -/

namespace Sys2Proof.Machine

/-! ### The store (06 R128 to R131) -/

/-- The words of a micro-program's steps, at most 24; bytes that fill no word are none. -/
def stepWords (b : List Byte) : List Nat := (List.range (min 24 (b.length / 4))).map fun i => field b (4 * i) 4

/-- Opcode of a step (06 R126). -/
def opOf (w : Nat) : Nat := bitsOf w 31 27

/-- Segments of a RANGE immediate (06 R127). -/
def segCount (imm : Nat) : Nat := if bitsOf imm 17 15 == 1 then 2 ^ (bitsOf imm 14 11 + 1) else 2 ^ bitsOf imm 14 11

/-- A step uses a reserved opcode or code (06 R126, R127). -/
def reservedCode (w : Nat) : Bool :=
  match opOf w with
  | 1 => 5 ≤ bitsOf w 17 15 || 8 < bitsOf w 14 11
  | 7 => bitsOf w 1 0 == 3
  | 9 => 7 ≤ bitsOf w 3 0
  | 10 => bitsOf w 12 11 == 3
  | 11 => bitsOf w 1 0 == 3
  | op => 12 ≤ op

/-- The bits of a step that its opcode uses (06 R126). -/
def usedBits (w : Nat) : Nat :=
  let regs (d a b : Bool) := (if d then 0x07000000 else 0) + (if a then 0x00E00000 else 0) + (if b then 0x001C0000 else 0)
  match opOf w with
  | 0 => 0
  | 1 => regs false true false + 0x3FFE0
  | 2 => regs true false false + 0x7FF
  | 3 => regs true false false + 3
  | 4 => regs true true true
  | 5 => regs true true true + 1
  | 6 => regs true true true
  | 7 => regs true true false + 3
  | 8 => regs true false false + 1
  | 9 => regs true true true + 0xF
  | 10 => regs true false false + 0x1FFF
  | 11 => regs true true (bitsOf w 1 0 == 2) + 3
  | _ => 0x7FFFFFF

/-- A step sets a field its opcode does not use (00 R9). -/
def stepReserved (w : Nat) : Bool := w % pow2 27 &&& (0x7FFFFFF ^^^ usedBits w) != 0

/-- The steps up to and with END carry a reserved field. -/
def stepsReserved (b : List Byte) : Bool :=
  ((stepWords b).takeWhile fun w => opOf w != 0).any stepReserved
    || match (stepWords b).find? fun w => opOf w == 0 with
      | some w => stepReserved w
      | none => false

/-- The checks of 06 R129 along the steps: the segments of the last RANGE and whether a LOOKUP came. -/
def microWalk (len : Nat) : List Nat → Option Nat → Bool → Bool
  | [], _, _ => false
  | w :: rest, segs, looked =>
    if reservedCode w then false
    else match opOf w with
      | 0 => true
      | 1 => microWalk len rest (some (segCount w)) looked
      | 2 => (match segs with
        | none => false
        | some k => bitsOf w 10 0 + k ≤ len && microWalk len rest segs true)
      | 3 => looked && microWalk len rest segs looked
      | 8 => looked && microWalk len rest segs looked
      | 10 => bitsOf w 10 0 < len && microWalk len rest segs looked
      | _ => microWalk len rest segs looked

/-- Whether a CLAMP follows every LOOKUP before the next LOOKUP or END (06 R128). -/
def clampedWalk : List Nat → Bool → Bool
  | [], owed => !owed
  | w :: rest, owed =>
    match opOf w with
    | 0 => !owed
    | 2 => !owed && clampedWalk rest true
    | 8 => clampedWalk rest false
    | _ => clampedWalk rest owed

namespace State

/-- The records of an entry. -/
def mpRecords (s : State) (e : Nat) : List Byte :=
  slice (s.rdBlob 0x3201 1) (32 * s.rd (mpIdx e) 2) (32 * s.rd (mpIdx e) 3)

/-- Whether an entry passes the checks of 06 R129. -/
def mpValid (s : State) (e : Nat) : Bool :=
  s.rd (mpIdx e) 2 + s.rd (mpIdx e) 3 ≤ 2048 && microWalk (s.rd (mpIdx e) 3) (stepWords (s.rdBlob (mpIdx e) 1)) none false

/-- An entry validated: INVALID, or LOADING with its copy started from the beginning (06 R129). DESIGN CHOICE:
MP_CLAMPED and MP_CRC of an entry that becomes INVALID keep their values (log entry 29). -/
def validateMp (s : State) (e : Nat) : Name × State :=
  if s.mpValid e then
    let steps := s.rdBlob (mpIdx e) 1
    let s1 := (s.wr (mpIdx e) 4 1).wr (mpIdx e) 5 (if clampedWalk (stepWords steps) false then 1 else 0)
    (.ok, s1.wr (mpIdx e) 6 (crc32c (steps ++ s.mpRecords e)))
  else (.microprogInvalid, s.wr (mpIdx e) 4 4)

/-- The records a write to MP_TABLE changes within an entry's range. -/
def mpTouched (s : State) (e : Nat) (v : List Byte) : Bool :=
  s.mpRecords e != slice v (32 * s.rd (mpIdx e) 2) (32 * s.rd (mpIdx e) 3)

/-- A write to MP_TABLE would change a record of an IN_USE entry (06 R130). -/
def mpTableBusy (s : State) (v : List Byte) : Bool :=
  (List.range 64).any fun e => s.mpState e == 3 && s.mpTouched e v

/-- A write to MP_TABLE, and the copies it restarts (06 R129). DESIGN CHOICE: the records behind the bytes of a short write
read zero (log entry 29). -/
def writeMpTable (s : State) (v : List Byte) : State :=
  let hit := (List.range 64).filter fun e => (s.mpState e == 1 || s.mpState e == 2) && s.mpTouched e v
  hit.foldl (fun s e => (s.validateMp e).2) (s.wrBlob 0x3201 1 v)

end State

/-! ### The evaluator (06 R125 to R127) -/

/-- The registers of one evaluation: v0 to v7, n, t, the segment, the OUT flags, C0 to C3 and SEAM; and whether it runs
in AD08 mode. -/
structure Eval where
  ad08 : Bool
  v : List Nat
  n : Int
  t : FV
  seg : Nat
  high : Bool
  low : Bool
  coef : List Nat
  seam : Nat

/-- Register `i`. -/
def Eval.reg (x : Eval) (i : Nat) : Nat := x.v.getD i 0
/-- Register `i` set. -/
def Eval.put (x : Eval) (i v : Nat) : Eval := { x with v := x.v.set i v }

/-- `2^k` as a value. -/
def two (k : Int) : FV := .fin false 1 k

/-- The floor of a finite value. -/
def floorFV : FV → Int
  | .fin s m e =>
    if 0 ≤ e then (if s then -((m * 2 ^ e.toNat : Nat) : Int) else (m * 2 ^ e.toNat : Nat))
    else if s then -((ceilDiv m (2 ^ (-e).toNat) : Nat) : Int) else (m / 2 ^ (-e).toNat : Nat)
  | _ => 0

/-- An integer as a value. -/
def intFV (i : Int) : FV := .fin (decide (i < 0)) i.natAbs 0

/-- The reduced argument minus the left edge of its segment, `x − (lo + seg * 2^w)`, or minus its midpoint in AD08
mode. -/
def offsetOf (ad08 : Bool) (x lo : FV) (seg : Nat) (w : Int) : FV :=
  let place := if ad08 then FV.mul (intFV (2 * seg + 1)) (two (w - 1)) else FV.mul (intFV seg) (two w)
  FV.add x (FV.neg (FV.add lo place))

/-- RANGE in a binade mode: `par` asks for an even exponent and up to 4 (06 R127). -/
def rangeBinade (x : Eval) (par : Bool) (sb imm : Nat) (a : FV) : Eval :=
  let none := Config.unstatedStep [0, imm] % segCount imm
  match a with
  | .fin _ m e =>
    if m == 0 then { x with n := -1000, t := .fin false 0 0, seg := none, high := false, low := false }
    else
      let k := (Nat.log2 m : Int) + e
      let n := if par then k - k % 2 else k
      let r := FV.mul (FV.abs a) (two (-n))
      let upper := k != n
      let lo := if upper then two 1 else two 0
      let w : Int := (if upper then 1 else 0) - (sb : Int)
      let i := (floorFV (FV.mul (FV.add r (FV.neg lo)) (two (-w)))).toNat
      { x with n := n, t := offsetOf x.ad08 r lo i w, seg := if upper then i + 2 ^ sb else i, high := false, low := false }
  | .inf s => { x with n := if s then -1000 else 1000, t := .fin false 0 0, seg := none, high := false, low := false }
  | .nan => { x with n := 0, t := .fin false 0 0, seg := none, high := false, low := false }

/-- RANGE in mode INT_FRAC. -/
def rangeFrac (x : Eval) (sb imm : Nat) (a : FV) : Eval :=
  let none := Config.unstatedStep [0, imm] % segCount imm
  match a with
  | .fin _ _ _ =>
    let n := floorFV a
    let f := if FV.isZero a then .fin false 0 0 else FV.add a (FV.neg (intFV n))
    let i := (floorFV (FV.mul f (two sb))).toNat
    { x with n := n, t := offsetOf x.ad08 f (.fin false 0 0) i (-(sb : Int)), seg := i, high := false, low := false }
  | .inf s => { x with n := if s then -1000 else 1000, t := .fin false 0 0, seg := none, high := false, low := false }
  | .nan => { x with n := 0, t := .fin false 0 0, seg := none, high := false, low := false }

/-- RANGE in a fixed range `[lo, hi)`, of segments of width `2^w`. DESIGN CHOICE: `n` keeps its value (log entry 29). -/
def rangeFixed (x : Eval) (sb imm : Nat) (a lo hi : FV) (w : Int) : Eval :=
  let last := 2 ^ sb - 1
  if FV.le hi a then { x with t := offsetOf x.ad08 a lo last w, seg := last, high := true, low := false }
  else if FV.lt a lo then { x with t := offsetOf x.ad08 a lo 0 w, seg := 0, high := false, low := true }
  else match a with
    | .nan => { x with t := .nan, seg := Config.unstatedStep [0, imm] % segCount imm, high := false, low := false }
    | _ =>
      let i := (floorFV (FV.mul (FV.add a (FV.neg lo)) (two (-w)))).toNat
      { x with t := offsetOf x.ad08 a lo i w, seg := i, high := false, low := false }

/-- RANGE (06 R127). -/
def evalRange (x : Eval) (w : Nat) : Eval :=
  let a := f32 (x.reg (bitsOf w 23 21))
  let sb := bitsOf w 14 11
  let ex : Int := if bitsOf w 10 5 < 32 then bitsOf w 10 5 else (bitsOf w 10 5 : Int) - 64
  let imm := w % pow2 18
  match bitsOf w 17 15 with
  | 0 => rangeBinade x false sb imm a
  | 1 => rangeBinade x true sb imm a
  | 2 => rangeFrac x sb imm a
  | 3 => rangeFixed x sb imm a (FV.neg (two ex)) (two ex) (ex + 1 - sb)
  | _ => rangeFixed x sb imm (FV.abs a) (.fin false 0 0) (two ex) (ex - sb)

/-- RECON (06 R126). A scaling by half of an odd `n` is the square root of the scaled square. -/
def evalRecon (x : Eval) (w : Nat) : Nat :=
  let a := f32 (x.reg (bitsOf w 23 21))
  match bitsOf w 1 0 with
  | 0 => toF32 (FV.mul a (two x.n))
  | 1 => toF32 (FV.add a (intFV x.n))
  | _ =>
    if x.n % 2 == 0 || !FV.isFin a then toF32 (FV.mul a (two (-(x.n / 2))))
    else
      let r := FV.sqrtApprox (FV.mul (FV.mul a a) (two (-x.n)))
      toF32 (if FV.isNeg a then FV.neg r else r)

/-- The condition of a SELECT (06 R126). -/
def evalCond (x : Eval) (w : Nat) : Bool :=
  let a := x.reg (bitsOf w 23 21)
  match bitsOf w 3 0 with
  | 0 => a.testBit 31
  | 1 => f32 a == .nan
  | 2 => !(FV.isFin (f32 a)) && f32 a != .nan
  | 3 => FV.isZero (f32 a)
  | 4 => x.high
  | 5 => x.low
  | _ => true

/-- HORNER: fused, or in AD08 mode the product and the sum each rounded (06 R126). -/
def evalHorner (x : Eval) (d k : Nat) : Nat :=
  let p := FV.mul (f32 (x.reg d)) x.t
  toF32 (FV.add (if x.ad08 then fp32.round p else p) (f32 (x.coef.getD k 0)))

/-- One step of a micro-program over its records (06 R126). DESIGN CHOICE: a CLAMP of a NaN, by a NaN, or of a zero by
a zero of the other sign keeps its destination; the manual orders none of them (log entry 29). -/
def evalStep (records : List Byte) (x : Eval) (w : Nat) : Eval :=
  let d := bitsOf w 26 24
  let a := x.reg (bitsOf w 23 21)
  let b := x.reg (bitsOf w 20 18)
  match opOf w with
  | 1 => evalRange x w
  | 2 =>
    let r := (bitsOf w 10 0 + x.seg) * 32
    { x with coef := (List.range 4).map fun k => field records (r + 4 * k) 4, seam := field records (r + 16) 4 }.put d
      (field records (r + 12) 4)
  | 3 => x.put d (evalHorner x d (bitsOf w 1 0))
  | 4 => x.put d (fmul a b)
  | 5 => x.put d (if w.testBit 0 then fsub a b else fadd a b)
  | 6 => x.put d (ffma a b (x.reg d))
  | 7 => x.put d (evalRecon x w)
  | 8 =>
    if x.seg == 0 then x
    else if w.testBit 0 then x.put d (if flt x.seam (x.reg d) then x.seam else x.reg d)
    else x.put d (if flt (x.reg d) x.seam then x.seam else x.reg d)
  | 9 => if evalCond x w then x.put d b else x
  | 10 => x.put d (field records (bitsOf w 10 0 * 32 + 20 + 4 * bitsOf w 12 11) 4)
  | 11 =>
    (match bitsOf w 1 0 with
    | 0 => x.put d (fabs a)
    | 1 => x.put d (fneg a)
    | _ => x.put d (if a.testBit 31 == b.testBit 31 then toF32 (f32 a) else fneg a))
  | _ => x

/-- The steps of a micro-program up to END. -/
def evalSteps (records : List Byte) : List Nat → Eval → Eval
  | [], x => x
  | w :: rest, x => if opOf w == 0 then x else evalSteps records rest (evalStep records x w)

/-- An evaluation's registers at its start: v0 holds the input (06 R125). DESIGN CHOICE: all others are 0 (log entry 29). -/
def evalStart (ad08 : Bool) (v0 : Nat) : Eval :=
  { ad08 := ad08, v := [v0, 0, 0, 0, 0, 0, 0, 0], n := 0, t := .fin false 0 0, seg := 0, high := false, low := false,
    coef := [0, 0, 0, 0], seam := 0 }

/-- A micro-program evaluated on FP32 bits; a NaN result is the canonical one (06 R125, 04 R72). -/
def evalMicro (ad08 : Bool) (steps : List Nat) (records : List Byte) (v0 : Nat) : Nat :=
  toF32 (f32 ((evalSteps records steps (evalStart ad08 v0)).reg 0))

/-! ### Built-in functions (06 R122, R123, R127, R133) -/

/-- Canonical NaN. -/
abbrev nanBits : Nat := 0x7FC00000
/-- +∞. -/
abbrev infBits : Nat := 0x7F800000
/-- 1. -/
abbrev oneBits : Nat := 0x3F800000

/-- The results of 06 R123, of the tails of R122 and R133 that are stated values, and of EXP2 at integers (R127); none
where the manual states no bits. -/
def builtinStated (ad08 : Bool) (code x : Nat) : Option Nat :=
  let v := f32 x
  let neg := x.testBit 31
  let zero := FV.isZero v
  let inf := !(FV.isFin v) && v != .nan
  let pm (b : Nat) := if neg then b + pow2 31 else b
  if v == .nan then some nanBits
  else match code with
    | 0 =>
      if inf then some (if neg then 0 else infBits)
      else if FV.le (intFV 128) v then some infBits
      else if FV.lt v (intFV (-150)) then some 0
      else if zero then some oneBits
      else if !ad08 && FV.isZero (FV.add v (FV.neg (intFV (floorFV v)))) then some (toF32 (two (floorFV v)))
      else none
    | 1 => if zero then some (infBits + pow2 31) else if neg then some nanBits else if inf then some infBits else none
    | 2 => if inf then some (pm 0) else if zero then some (pm infBits) else none
    | 3 => if zero then some (pm infBits) else if neg then some nanBits else if inf then some 0 else none
    | 4 => if inf then some (pm oneBits) else if zero then some (pm 0)
      else if FV.le (intFV (if ad08 then 8 else 16)) (FV.abs v) then some (pm oneBits) else none
    | 5 => if inf then some (if neg then 0 else oneBits) else if zero then some 0x3F000000
      else if ad08 && FV.lt v (intFV (-8)) then some 0
      else if ad08 && FV.le (intFV 8) v then some oneBits else none
    | 6 => if inf then some (if neg then pow2 31 else infBits) else if zero then some (pm 0)
      else if FV.lt v (intFV (-8)) then some (pow2 31)
      else if FV.le (intFV 8) v then some (toF32 v) else none
    | 7 => if inf then some (if neg then pow2 31 else infBits) else if zero then some (pm 0) else none
    | _ => if inf then some (if neg then 0 else infBits) else if zero then some 0x3F317218 else none

/-- The native EXP2 program of 06 R127. -/
def exp2Steps : List Nat :=
  [0x08012800, 0x11000000, 0x19000002, 0x19000001, 0x19000000, 0x41000000, 0x39200000, 0x49000001, 0x48040006, 0]

/-- RANGE, LOOKUP and the cubic of a built-in function: its reduction and its segments (06 R122, R133). -/
def reductionSteps (ad08 : Bool) (code : Nat) : List Nat :=
  let fewer := if ad08 then 1 else 0
  let range (mode sb a : Nat) := 0x08000000 + mode * pow2 15 + sb * pow2 11 + a * pow2 5
  let first := match code with
    | 0 => range 2 (5 - fewer) 0
    | 1 => range 0 (5 - fewer) 0
    | 2 => range 0 (5 - fewer) 0
    | 3 => range 1 (5 - fewer) 0
    | 4 => range 4 (8 - fewer) (4 - fewer)
    | 5 => range 3 (8 - fewer) (4 - fewer)
    | 6 => range 3 (8 - fewer) 3
    | _ => range 3 8 4
  [first, 0x11000000, 0x19000002, 0x19000001, 0x19000000]

/-- The program of a built-in function: EXP2's whole, the others' reduction and cubic followed by the firmware's own
steps, which the manual does not list (log entry 9). -/
def builtinSteps (img : SfnImage) (ad08 : Bool) (code : Nat) : List Nat :=
  if !ad08 && code == 0 then exp2Steps
  else (reductionSteps ad08 code ++ match img.entries.find? fun e => e.ad08 == ad08 && e.code == code with
    | some e => stepWords e.finish
    | none => []).take 24

/-- The records of a built-in function in the built-in region (06 R125). -/
def builtinRecords (img : SfnImage) (ad08 : Bool) (code : Nat) : List Byte :=
  match img.entries.find? fun e => e.ad08 == ad08 && e.code == code with
  | some e => img.region.drop (32 * e.base)
  | none => []

/-- `e^-|x|` as the native EXP2 program computes it behind its RANGE: EXP2 of `-|x|` times log2 e, reduced before any
rounding (06 R122, R127). -/
def exp2Path (img : SfnImage) (x : Nat) : Nat :=
  let p := fxExpPower (f32 x)
  let n := p / fxOne
  let f := p - n * fxOne
  let seg := (32 * f / fxOne).toNat
  let e := { evalStart false x with n := n, seg := seg, t := fxVal (f - seg * (fxOne / 32)) }
  (evalSteps (builtinRecords img false 0) (exp2Steps.drop 1) e).reg 0

/-- The tail of a native SIGMOID, SILU or SOFTPLUS outside [-16, 16), from `e = e^-|x|`; none where the function has no such
tail or `x` lies inside (06 R122). DESIGN CHOICE: how the tail is formed from EXP2's value is not stated; here it is `e` or
`1 - e`, `x e` or `x - x e`, `e` or `x + e` (log entry 9). -/
def expTail (img : SfnImage) (code x : Nat) : Option Nat :=
  let neg := x.testBit 31
  let e := exp2Path img x
  if code < 5 || code == 6 || (FV.le (intFV (-16)) (f32 x) && FV.lt (f32 x) (intFV 16)) then none
  else some (match code with
    | 5 => if neg then e else fsub oneBits e
    | 7 => if neg then fmul x e else ffma (fneg x) e x
    | _ => if neg then e else fadd x e)

/-- What a built-in function's program gives where no bits are stated: its segments, or its tail by EXP2 (06 R122). -/
def builtinProgram (img : SfnImage) (ad08 : Bool) (code x : Nat) : Nat :=
  match (if ad08 then none else expTail img code x) with
  | some y => y
  | none => evalMicro ad08 (builtinSteps img ad08 code) (builtinRecords img ad08 code) x

/-- The bounds that the stated bits of 06 R123 and R122 set to the results of a native function that never steps backward
(R124): the value stated at or below `x`, and that stated above it. -/
def statedBounds (code x : Nat) : Nat × Nat :=
  let neg := x.testBit 31
  match code with
  | 0 =>
    let n := floorFV (f32 x)
    (toF32 (two n), toF32 (two (n + 1)))
  | 4 => if neg then (oneBits + pow2 31, pow2 31) else (0, oneBits)
  | 5 => if neg then (0, 0x3F000000) else (0x3F000000, oneBits)
  | 6 => if neg then (infBits + pow2 31, pow2 31) else (0, 0x41000000)
  | 7 => if neg then (infBits + pow2 31, pow2 31) else (0, infBits)
  | 8 => if neg then (0, 0x3F317218) else (0x3F317218, infBits)
  | _ => (infBits + pow2 31, infBits)

/-- A result brought between two bounds. -/
def between (b : Nat × Nat) (y : Nat) : Nat := if flt y b.1 then b.1 else if flt b.2 y then b.2 else y

/-- A built-in function before its clamps between segments: the stated bits, else what its program gives, which the
error stated for the function holds to the exact result (06 R122, R123). DESIGN CHOICE: a table whose result misses that
error gives the exact result, correctly rounded, in its place (log entry 9). -/
def builtinRaw (img : SfnImage) (ad08 : Bool) (code x : Nat) : Nat :=
  match builtinStated ad08 code x with
  | some b => b
  | none =>
    let y := builtinProgram img ad08 code x
    let r := toF32 (exactBuiltin code (f32 x))
    let z := if withinError ad08 code (f32 x) (f32 y) then y
      else if FV.isZero (f32 r) && x.testBit 31 && (code == 6 || code == 7) then pow2 31 else r
    if ad08 then z else between (statedBounds code x) z

/-- FP32 encodings in the order of their values: the place of `b` in it. -/
def placeOf (b : Nat) : Nat := if b.testBit 31 then pow2 31 - b % pow2 31 else pow2 31 + b

/-- The encoding at a place. -/
def atPlace (p : Nat) : Nat := if p < pow2 31 then pow2 32 - p else p - pow2 31

/-- The largest of a function's results from place `a` on over `k` further places, or the smallest. -/
def furthest (f : Nat → Nat) (up : Bool) (a : Nat) : Nat → Nat
  | 0 => f (atPlace a)
  | k + 1 =>
    let m := furthest f up a k
    let y := f (atPlace (a + k + 1))
    if up == flt m y then y else m

/-- The part of a native function's inputs over which it never steps backward and in which `x` lies: where it begins, where
the results that bound `x` end, and whether it increases (06 R122, R124). DEDUCED: the clamp at the seam that ends the
segment of GELU's or SILU's minimum compares with that segment's last result only, since that segment first falls and then
rises (log entry 9). -/
def risingPart (code x : Nat) : Nat × Nat × Bool :=
  let low := placeOf 0xFF800000
  let plus0 := placeOf 0
  let p := placeOf x
  let bend (left right : Nat) : Nat × Nat × Bool :=
    if placeOf right ≤ p then (placeOf right - 1, p, true) else (low, min p (placeOf left - 1), false)
  match code with
  | 1 => (plus0, p, true)
  | 2 => if x.testBit 31 then (low, p, false) else (plus0, p, false)
  | 3 => (plus0, p, false)
  | 4 => (plus0, p, true)
  | 6 => bend 0xBF500000 0xBF400000
  | 7 => bend 0xBFB00000 0xBFA00000
  | _ => (low, p, true)

/-- A native function's result: none steps back behind one of an earlier input of its part (06 R124). -/
def builtinNative (img : SfnImage) (code x : Nat) : Nat :=
  let y := builtinRaw img false code x
  let r := risingPart code x
  let m := furthest (builtinRaw img false code) r.2.2 r.1 (r.2.1 - r.1)
  if (builtinStated false code x).isSome then y
  else if r.2.2 then (if flt y m then m else y)
  else if flt m y then m
  else y

/-- A built-in function: under the AD08 set nothing clamps (06 R133); SILU and SOFTPLUS have no AD08 form. TANH is odd
(R122). -/
def builtin (img : SfnImage) (ad08 : Bool) (code x : Nat) : Nat :=
  let set := ad08 && code < 7
  let f (x : Nat) : Nat := if set then builtinRaw img true code x else builtinNative img code x
  if code == 4 && x.testBit 31 then fneg (f (fabs x)) else f x

/-- EXP2 under a set. -/
def exp2 (img : SfnImage) (ad08 : Bool) (x : Nat) : Nat := builtin img ad08 0 x
/-- RECIP under a set. -/
def recip (img : SfnImage) (ad08 : Bool) (x : Nat) : Nat := builtin img ad08 2 x
/-- RSQRT under a set. -/
def rsqrt (img : SfnImage) (ad08 : Bool) (x : Nat) : Nat := builtin img ad08 3 x

/-- The function a code of 06 R121 selects, for a clearing's set in force; a micro-program is evaluated natively under
either set (06 R133). -/
def State.applyFn (s : State) (n code x : Nat) : Nat :=
  if code ≤ 8 then builtin s.sfn (s.frc 0x3022 n == 1) code x
  else evalMicro false (stepWords (s.rdBlob (State.mpIdx (code - 0x40)) 1)) (s.mpRecords (code - 0x40)) x

/-- MICROPROG_LOADED: the copy into every cell ends (06 R129). -/
def execMicroprogLoaded (entry : Nat) (s : State) : Ans :=
  inRange (wfMicro entry) s (onlyIf (s.mpState entry == 1) s (s.wr (State.mpIdx entry) 4 2))

end Sys2Proof.Machine
end

