-- ==== Sys2Proof/Machine/Recover.lean ====
section
/-! DEFINITION. Recovery of a job: membership, failures, shrinks, restores and rejoins (15 R328 to R338). -/

namespace Sys2Proof.Machine

namespace State

/-- RECOVERY_STATE: 0 RUNNING, 1 SHRINKING, 2 RESTORING, 3 REJOINING, 4 FAILED. -/
def recState (s : State) (n : Nat) : Nat := s.rd (0x9080 + n) 0xA
/-- RECOVERY_STATE set. -/
def setRecState (s : State) (n v : Nat) : State := s.wr (0x9080 + n) 0xA v
/-- JOB_EPOCH. -/
def epochOf (s : State) (n : Nat) : Nat := s.rd (0x9080 + n) 2
/-- JOB_EPOCH set. -/
def setEpoch (s : State) (n v : Nat) : State := s.wr (0x9080 + n) 2 v

/-! ### Membership (15 R330) -/

/-- The lowest module of a membership. -/
def lowestModule : List Member → Option Nat
  | [] => none
  | m :: l => some (l.foldl (fun a x => min a x.modNo) m.modNo)
/-- The replica numbers of a membership. -/
def replicasOf (l : List Member) : List Nat := (l.map (·.replica)).eraseDups
/-- REPLICAS_LIVE's bytes. -/
def liveBits (l : List Nat) : List Byte :=
  (List.range 512).map fun k =>
    BitVec.ofNat 8 ((List.range 8).foldl (fun a i => if l.contains (8 * k + i) then a + pow2 i else a) 0)

/-- The membership in force published: JOB_LEADER and REPLICAS_LIVE. -/
def publishMembers (s : State) (n : Nat) : State :=
  let live := liveMembers (s.recov n)
  let s1 := s.wrBlob (0x9080 + n) 6 (liveBits (replicasOf live))
  match lowestModule live with
  | some m => s1.wr (0x9080 + n) 1 m
  | none => s1

/-- A press clearing takes up its plan's membership (15 R330). -/
def joinJob (s : State) (n : Nat) (p : PlanClearing) : State :=
  let heard := p.members.foldl (fun m x => ins m x.modNo s.time) ([] : Map Nat)
  let s1 := s.setRecov n { members := p.members, lastHeard := heard }
  ((s1.wr (0x9080 + n) 3 (replicasOf p.members).length).wr (0x9080 + n) 5 p.replica).publishMembers n

/-! ### Restore (15 R328, R329) -/

/-- What a generation's checks find: the first failing one with its shard (15 R328, rows 3 to 6). -/
def judgeGen (s : State) (n : Nat) (g : GenCheck) : Option (Name × Nat) :=
  match g.missing, g.mismatch, g.corrupt with
  | some k, _, _ => some (.shardMissing, k)
  | none, some k, _ => some (.shardMismatch, k)
  | none, none, some k => some (.shardCorrupt, k)
  | none, none, none =>
    if g.scaleId != s.rd 0x1000 3 || g.planShape != s.planShape n then some (.shardForeign, 0) else none

/-- A generation that is complete and passes rows 3 to 7. -/
def usableGen (s : State) (n : Nat) (g : GenCheck) : Option GenCheck :=
  if g.present && (s.judgeGen n g).isNone then some g else none

/-- The generation a restore takes, and what made it fall back (15 R328). -/
def chooseGen (s : State) (n : Nat) (older : Bool) (a b : GenCheck) : Option GenCheck × Option (Name × Nat) :=
  let swap := a.present && b.present && seqNewer b.generation a.generation
  let new := if swap then b else a
  let old := if swap then a else b
  let valid := new.present && !(old.present && new.step ≤ old.step)
  if older then (s.usableGen n old, none)
  else if !valid then (s.usableGen n old, none)
  else match s.judgeGen n new with
    | none => (some new, none)
    | some f => (s.usableGen n old, some f)

/-- The vat and taster clearings of a clearing's job on this module. -/
def jobVats (s : State) (n : Nat) : List Nat := s.present.filter fun m => s.sameJob n m && s.jobRole m != 1

/-- No generation can be restored (15 R328, row 8). -/
def restoreNone (s : State) (n : Nat) : State := (s.setRecState n 4).post .jobFailed n .restoreNone

/-- A press clearing of the job is RESTORING: it holds, and loads the generation (15 R329, steps 1 and 2). `back` is the
older generation it falls back on. -/
def restoring (g : GenCheck) (back : Option GenCheck) (s : State) (m : Nat) : State :=
  let s1 := s.setRecov m { s.recov m with
    chosen := some g, fallback := back, hold := true, shrinkAt := none, suspects := [], lostMem := false }
  (s1.setRecState m 2).setCkptState m 4

/-- A restore begins (15 R329, step 1): requests end CANCELLED, open snapshots fail, and the shards are loaded. -/
def beginRestore (s : State) (n : Nat) (g : GenCheck) (back : Option GenCheck) : State :=
  let s1 := (s.jobVats n).foldl cancelAll s
  let s2 := (s.jobPresses n).foldl (fun s m => s.failOpen m 4) s1
  let s4 := (s.jobPresses n).foldl (restoring g back) s2
  if s.isLeader n then s4.tellMembers n "RESTORE" [g.generation] else s4

/-- The older of two generations, where a restore takes the newer one: it is what a failing block falls back on (15
R329). -/
def olderGen (s : State) (n : Nat) (g a b : GenCheck) : Option GenCheck :=
  ([a, b].find? fun x => x.present && x.generation != g.generation && seqNewer g.generation x.generation).bind (s.usableGen n)

/-- A RESTORE or RESTORE_OLDER on the leader, with what the check of both generations finds (15 R328). -/
def restoreCmd (s : State) (n : Nat) (older : Bool) (a b : GenCheck) : State :=
  let c := s.chooseGen n older a b
  let s1 := match c.2 with
    | some f => s.post .ckptFallback n f.1 0 (words [f.2])
    | none => s
  match c.1 with
  | none => s1.restoreNone n
  | some g => s1.beginRestore n g (s1.olderGen n g a b)

/-- What a shard's bytes are charged to as they come from the buddy's slot: its cellar, or the spur port they arrive on (11
R238). -/
def chargeLoad (s : State) (n gen bytes : Nat) : State :=
  let b := s.buddyOf n gen
  if b.1 == s.ownModule then s.charge b.2.1 5 0 bytes
  else match s.buddyPort b.1 with
    | some p => s.charge n (0x20 + p) 1 bytes
    | none => s

/-- Blocks of the shard of a generation loaded to their list positions (15 R329, step 2). -/
def loadBlocks (s : State) (n gen : Nat) (blocks : List (Nat × List Byte)) : State :=
  blocks.foldl (fun s b => match (s.blockList n)[b.1]? with
    | some k =>
      let data := slice b.2 0 blockBytes
      ((s.pokeRegion 1 n (k * blockBytes) data).chargeLoad n gen blockBytes).charge n (1 + groupOfBlock k) 0 blockBytes
    | none => s) s

/-- Derived data made again (15 R329, step 3): each backward copy by a transposing move of its forward copy, and the CURRENT
turning source as the CONVERT tiles of the plan leave it (DESIGN CHOICE, log entry 24). -/
def regenerate (s : State) (n : Nat) (x : ShardLoad) : State :=
  let s1 := x.copies.foldl (fun s c =>
    let b := transposed 2 (s.peek (regionAddr 1 n c.1) c.2.2)
    if c.1 + c.2.2 ≤ s.regionLen n 1 && c.2.1 + c.2.2 ≤ s.regionLen n 1 then
      ((s.chargeRange n 1 c.1 c.2.2).pokeRegion 1 n c.2.1 b).chargeRange n 1 c.2.1 c.2.2 else s) s
  x.source.foldl (fun s w =>
    if w.1 + w.2.length ≤ s.regionLen n 1 then (s.pokeRegion 1 n w.1 w.2).chargeRange n 1 w.1 w.2.length else s) s1

/-- The shards of a module's press clearings of the job loaded and their derived data made again. -/
def loadShards (s : State) (n gen : Nat) (l : List ShardLoad) : State :=
  (l.filter fun x => (s.jobPresses n).contains x.clearing).foldl (fun s x =>
    (s.loadBlocks x.clearing gen x.blocks).regenerate x.clearing x) s

/-- The press is at the generation's STEP, with its turning source made again under the recorded version (15 R329, steps
3 and 5). -/
def setStep (s0 : State) (n : Nat) (g : GenCheck) : State :=
  let s := (s0.closePages n).dropTiles n
  let c := s.clr n
  let p := c.press
  let s1 := s.setClr n { c with
    stepNo := g.step, inStep := false,
    press := { p with
      current := some g.version, sending := none, waiting := none, batch := [], updateSkip := false,
      sources := [(g.version, 0)], producedAt := [(g.version, s.time)] } }
  (s.vatsOf n).foldl (fun s m => s.wr (0x6040 + m) 5 g.version) (s1.wr (0x6040 + n) 5 g.version)

/-- A block of the shard of number `shard` failed its check while it was loaded: the restore starts again from 15 R328,
row 5 (15 R329). -/
def fallBack (s : State) (n shard : Nat) : State :=
  let s1 := s.post .ckptFallback n .shardCorrupt 0 (words [shard])
  match (s.recov n).fallback with
  | some g => s1.beginRestore n g none
  | none => s1.restoreNone n

/-- A press clearing that has restored a generation, which is now the newest complete one it knows (15 R329, R338). -/
def restored (g : GenCheck) (s : State) (m : Nat) : State :=
  let s1 := (s.setStep m g).startMonitors m
  let s2 := s1.setRecov m { s1.recov m with
    chosen := none, fallback := none, reported := [], hold := false, discard := false, totals := false, failedMods := [] }
  let s3 := (s2.setCkpt m { s2.ckpt m with last := some g, prev := (s.recov m).fallback }).setEpoch m (s2.epochOf m + 1)
  let s4 := ((s3.setRecState m 0).setCkptState m 0).wr (0x4080 + m) 0xD g.generation
  (((s4.wr (0x4080 + m) 0xE g.step).wr (0x9080 + m) 0xB 0).bump (0x9080 + m) 0xF 1).publishMembers m

/-- The vats and tasters of the job resume at VAT_STEP, on the version loaded from the source (15 R329, steps 4 and 5; 16
R350). -/
def restoreVats (s : State) (n : Nat) (g : GenCheck) : State :=
  (s.jobVats n).foldl (fun s m =>
    ((s.setClr m { s.clr m with stepNo := g.vatStep, inStep := false }).startMonitors m).startLoad m g.version) s

/-- A restore ends (15 R329): every press clearing of the job here has loaded its shard. -/
def endRestore (s : State) (n : Nat) (g : GenCheck) (l : List ShardLoad) : State :=
  let s1 := s.loadShards n g.generation l
  ((s1.jobPresses n).foldl (restored g) s1).restoreVats n g

/-! ### Spares (15 R335, R336) -/

/-- SPARE_LIST's modules; a list of zeros names none. -/
def spares (s : State) (n : Nat) : List Nat :=
  let b := s.rdBlob (0x9080 + n) 9
  if allZero b then [] else (List.range (b.length / 2)).map fun i => field b (2 * i) 2

/-- The first spare that is not in the job, has not failed and is usable: its link ports are UP and it holds a press
clearing of the job with its plan accepted. -/
def nextSpare (s : State) (n : Nat) (usable : List Nat) : Option Nat :=
  let r := s.recov n
  (s.spares n).find? fun m =>
    m < 16384 && usable.contains m && !(r.members.any fun x => x.modNo == m) && !r.failedMods.contains m

/-- A failed module's position given to a spare; none when no spare is left. -/
def fillPosition (s : State) (n : Nat) (usable : List Nat) (modNo : Nat) : Option State :=
  (s.nextSpare n usable).map fun k =>
    let r := s.recov n
    s.setRecov n { r with members := r.members.map fun x => if x.modNo == modNo then { x with modNo := k } else x }

/-- Every failed position filled, in the order of the failed modules; true when one stays empty. -/
def fillAll (s : State) (n : Nat) (usable : List Nat) : List Nat → State × Bool
  | [] => (s, false)
  | m :: l =>
    if !(s.recov n).members.any fun x => x.modNo == m then s.fillAll n usable l
    else match s.fillPosition n usable m with
      | some s1 => s1.fillAll n usable l
      | none => let r := s.fillAll n usable l; (r.1, true)

/-- The modules of the dropped replicas whose every position is filled (15 R336, step 1). -/
def rejoiners (r : Recov) : List Nat :=
  let ok (k : Nat) : Bool := r.members.all fun x => x.replica != k || !r.failedMods.contains x.modNo
  ((r.members.filter fun x => r.dropped.contains x.replica && ok x.replica).map (·.modNo)).eraseDups

/-- The rejoin begins (15 R336, step 1). -/
def beginRejoin (s : State) (n : Nat) (usable : List Nat) : State :=
  let f := s.fillAll n usable (s.recov n).failedMods
  let s1 := if f.2 then f.1.post .rejoinNoSpare n else f.1
  s1.setRecov n { s1.recov n with rejoining := rejoiners (s1.recov n), readyMods := [] }

/-- The leader restores instead of shrinking, onto the membership with spares in the failed positions (15 R334, R335):
what the check of both generations finds decides which (15 R328). -/
def restoreInstead (s : State) (n : Nat) (env : LeadEnv) : State :=
  let f := s.fillAll n env.usable (s.recov n).failedMods
  if f.2 then (f.1.setRecState n 4).post .jobFailed n
  else (f.1.setRecov n { f.1.recov n with dropped := [] }).restoreCmd n false env.newer env.older

/-! ### Shrinking (15 R333 to R335) -/

/-- A clearing's collectives in flight freed: descriptors, held sources, and later chunks discarded (14 R313). -/
def freeColls (s : State) (n : Nat) : State :=
  let live := s.linkDies.flatMap fun p =>
    (p.2.slots.filter fun q => q.2.clearing == n).map (fun q => q.2.desc.coll)
      ++ (p.2.holds.filter fun t => t.clearing == n).map (fun t => t.desc.coll)
  let s1 := live.foldl (fun s i => s.setColl n i { s.coll n i with failed := true }) s
  let clean (x : LinkDie) : LinkDie := { x with
    slots := x.slots.filter (fun q => q.2.clearing != n), holds := x.holds.filter (fun t => t.clearing != n) }
  { s1 with
    linkDies := s1.linkDies.map fun p => (p.1, clean p.2)
    waitingChunks := s1.waitingChunks.filter fun w => w.line.clearing != n }

/-- A member takes a SHRINK (15 R333, step 3): it stops picking press tiles, frees its collectives, re-links its chains
over the remaining replicas (`chainModule`) and reports its totals; a generation whose writer is dropped fails (R325),
and a module of a dropped replica cancels its requests. -/
def takeShrink (s : State) (n : Nat) (drop : List Nat) (failed : List Nat := []) : State :=
  let own := drop.contains (s.rd (0x9080 + n) 5)
  let r := s.recov n
  let s1 := (s.setRecov n { r with
    dropped := (r.dropped ++ drop).eraseDups, failedMods := (r.failedMods ++ failed).eraseDups, told := [], hold := true,
    discard := !r.totals, rejoining := [], readyMods := [],
    shrinkAt := match r.shrinkAt with
      | some t => some t
      | none => some s.time }).setCkpt n { s.ckpt n with forward := false }
  let s2 := (s1.setRecState n 1).freeColls n
  let s3 := if own then (s2.jobVats n).foldl cancelAll (s2.failOpen n 3) else s2
  (s3.publishMembers n).emit (.job n "TOTALS" (s3.epochOf n) [s.ownModule, if r.totals then 1 else 0])

/-- NESTED_FAULTS on a member that takes a SHRINK: one more fault of this recovery (15 R335). -/
def noteFault (s : State) (n : Nat) : State :=
  s.wr (0x9080 + n) 0xB (if s.recState n == 1 then min (s.rd (0x9080 + n) 0xB + 1) 255 else 1)

/-- The replicas that contain a failed module. -/
def hitReplicas (r : Recov) : List Nat :=
  replicasOf (r.members.filter fun m => r.failedMods.contains m.modNo)

/-- The leader carries out a shrink, or restores instead (15 R333, R335). -/
def leadShrink (s : State) (n nested : Nat) (env : LeadEnv) : State :=
  let r := s.recov n
  let drop := hitReplicas r
  let left := (replicasOf r.members).filter fun k => !drop.contains k && !r.dropped.contains k
  let s1 := s.wr (0x9080 + n) 0xB (min nested 255)
  if s.rd 0x90C0 3 < nested || left.length < s.rd (0x9080 + n) 4 then s1.restoreInstead n env
  else
    let s2 := s1.setEpoch n (s1.epochOf n + 1)
    ((s2.tellMembers n "SHRINK" (drop.length :: drop ++ r.failedMods)).takeShrink n drop)

/-- A failure reaches the leader (15 R333, R335, R336): a fault of a module that is rejoining, or of a spare, only
changes the spare; any other is counted and shrinks the job. One during a restore is counted, and the restore begins again
with a spare in its place (DESIGN CHOICE, log entry 24). -/
def leadFailure (s : State) (n modNo : Nat) (env : LeadEnv) : State :=
  let r := s.recov n
  let s1 := s.setRecov n { r with
    failedMods := if r.failedMods.contains modNo then r.failedMods else r.failedMods ++ [modNo] }
  let count := min (s.rd (0x9080 + n) 0xB + 1) 255
  if r.rejoining.contains modNo then s1.beginRejoin n env.usable
  else if !(liveMembers r).any fun m => m.modNo == modNo then s1
  else if s.recState n == 1 then s1.leadShrink n count env
  else if s.recState n == 0 || s.recState n == 3 then s1.leadShrink n 1 env
  else if s.recState n == 2 then (s1.wr (0x9080 + n) 0xB count).restoreInstead n env
  else s1

/-- A finding that a module has failed (15 R331, R335): the leader acts on it, a member reports it; when the leader itself
has failed, the next member in order becomes leader. -/
def findFailure (s : State) (n modNo : Nat) (env : LeadEnv) : State :=
  if s.isLeader n && modNo != s.ownModule then s.leadFailure n modNo env
  else if modNo == s.rd (0x9080 + n) 1 && modNo != s.ownModule then
    let r := s.recov n
    match lowestModule ((liveMembers r).filter fun m => m.modNo != modNo) with
    | none => s
    | some k =>
      let s1 := s.wr (0x9080 + n) 1 k
      if k == s.ownModule then s1.leadFailure n modNo env
      else s1.emit (.job n "FAILURE_REPORT" (s1.epochOf n) [modNo])
  else s.emit (.job n "FAILURE_REPORT" (s.epochOf n) [modNo])

/-- TOTALS reports recorded by the leader: whether each member holds the update totals of the step (15 R333, step 3). -/
def noteTotals (s : State) (n : Nat) (reports : List (Nat × Bool)) : State :=
  let r := s.recov n
  if reports.isEmpty then s
  else s.setRecov n { r with told := r.told ++ reports.filter fun p => !r.told.any fun q => q.1 == p.1 }

/-- The other modules of the live replicas, each once. -/
def otherMembers (s : State) (n : Nat) : List Nat :=
  (((liveMembers (s.recov n)).map (·.modNo)).eraseDups).filter (· != s.ownModule)

/-- The leader may send RESUME: every member has reported (15 R333, step 5). -/
def allTold (s : State) (n : Nat) : Bool :=
  !s.isLeader n || (s.otherMembers n).all fun m => (s.recov n).told.any fun p => p.1 == m

/-- RESUME (15 R333, steps 4 and 5): pass 2 completes where any member held totals, which a member that lacks them is sent;
otherwise the step's gradients and partials are discarded and the step runs again from its start. The plan that the failed
collectives stopped runs on. -/
def resumeJob (s0 : State) (n : Nat) (held : Bool) (usable : List Nat) (sent : List (Nat × List Byte)) : State :=
  let s := s0.setClr n { s0.clr n with stopped := [] }
  let r := s.recov n
  let totals := held || r.totals || r.told.any (·.2)
  let lands := r.discard && totals
  let s1 := if r.discard && !totals && (s.clr n).inStep then
      let s0 := s.dropTiles n
      (s0.setClr n { s0.clr n with stepAt := s.time, press := { (s0.clr n).press with made := false } }).openPages n
    else if lands then sent.foldl (fun s w =>
      if w.1 + w.2.length ≤ s.regionLen n 1 then (s.pokeRegion 1 n w.1 w.2).chargeRange n 1 w.1 w.2.length else s) s
    else s
  let s2 := s1.setRecov n { s1.recov n with
    hold := false, discard := false, shrinkAt := none, told := [], totals := (s1.recov n).totals || lands }
  let s3 := ((s2.setRecState n 0).wr (0x9080 + n) 0xB 0).bump (0x9080 + n) 0xE 1
  let s4 := if s.isLeader n then s3.tellMembers n "RESUME" (if totals then
      (r.told.filter fun p => !p.2).map (·.1) else []) else s3
  let s5 := (s4.post .shrinkDone n).beginRejoin n usable
  if (s5.clr n).inStep then s5 else s5.startPress n

/-! ### Findings of the module itself (15 R331) -/

/-- Every torus port facing a module is FAILED, DOWN or IDENT_MISMATCH. -/
def cutOff (s : State) (modNo : Nat) : Bool :=
  let facing := (List.range 24).filter fun p => s.rd (0x5000 + 16 * p) 1 == 1 && s.rd (0x5000 + 16 * p) 4 == modNo
  !facing.isEmpty && facing.all fun p => [0, 5, 6].contains (s.rd (0x5000 + 16 * p) 2)

/-- This module must report itself: it lost memory of a press region, the press's plan is stopped, or it is HELD or THERM_N
is asserted. -/
def selfFailed (s : State) (n : Nat) : Bool :=
  (s.recov n).lostMem || !(s.clr n).stopped.isEmpty || s.power.mode == .held || s.power.thermN

/-- What a press clearing finds at a sweep is reported to the leader, each module once: neighbours cut off, modules that a
failed collective named, and the module itself. The report reaches the leader as FAILURE_REPORT. -/
def reportFindings (s : State) (n : Nat) : State :=
  let r := s.recov n
  let live := (liveMembers r).map (·.modNo)
  let own := if s.selfFailed n then [s.ownModule] else []
  let found := (own ++ r.suspects ++ live.filter s.cutOff).filter fun m => live.contains m && !r.reported.contains m
  found.eraseDups.foldl (fun s m => s.emit (.job n "FAILURE_REPORT" (s.epochOf n) [m]))
    (s.setRecov n { r with suspects := [], lostMem := false, reported := (r.reported ++ found).eraseDups })

/-- The findings of every press clearing with a membership. -/
def sweepFindings (s : State) : State :=
  (s.present.filter fun n => s.jobRole n == 1 && !(s.recov n).members.isEmpty).foldl reportFindings s

/-! ### Step times (15 R332) -/

/-- A list put in ascending order. -/
def sortIn (l : List Nat) : List Nat := l.foldl (fun a x => a.takeWhile (· ≤ x) ++ [x] ++ a.dropWhile (· ≤ x)) []

/-- The median of the reports, the lower of the two middle values with an even count. -/
def median (l : List Nat) : Nat := (sortIn l).getD ((l.length - 1) / 2) 0

/-- A step's reports judged by the leader: a module too slow in STRAGGLER_STEPS consecutive steps is taken as failed. -/
def judgeTimes (s : State) (n : Nat) (reports : List (Nat × Nat)) (env : LeadEnv) : State :=
  let mid := median (reports.map (·.2))
  let factor := s.rd (0x9080 + n) 7
  let s1 := reports.foldl (fun s p =>
    let r := s.recov n
    let k := if factor * mid < 256 * p.2 then (look r.slow p.1).getD 0 + 1 else 0
    s.setRecov n { r with slow := if k == 0 then del r.slow p.1 else ins r.slow p.1 k }) s
  let late := (reports.map (·.1)).filter fun m => s.rd (0x9080 + n) 8 ≤ (look (s1.recov n).slow m).getD 0
  late.foldl (fun s m =>
    ((s.setRecov n { s.recov n with slow := del (s.recov n).slow m }).post .straggler n .ok 0
      (words [m])).findFailure n m env) s1

/-! ### Rejoining (15 R336) -/

/-- The checkpoint is brought forward to the next press step boundary, and the job is REJOINING (15 R336, step 3). -/
def bringForward (s : State) (n : Nat) : State := (s.setCkpt n { s.ckpt n with forward := true }).setRecState n 3

/-- A rejoining module is ready; when every one is, the checkpoint is brought forward and the members are told which modules
rejoin, and where. -/
def modReady (s : State) (n modNo : Nat) : State :=
  let r := s.recov n
  let ready := if r.readyMods.contains modNo then r.readyMods else modNo :: r.readyMods
  let s1 := s.setRecov n { r with readyMods := ready }
  if r.rejoining.all fun m => ready.contains m then
    (s1.bringForward n).tellMembers n "REJOIN"
      ((r.members.filter fun m => r.rejoining.contains m.modNo).flatMap fun m => [m.replica, m.position, m.modNo, m.clearing])
  else s1

/-- A member takes the leader's REJOIN: the positions of the rejoining modules (15 R336, steps 1 and 3). -/
def takeRejoin (s : State) (n : Nat) (l : List Member) : State :=
  let r := s.recov n
  let at_ (m : Member) : Member :=
    (l.find? fun x => x.replica == m.replica && x.position == m.position).getD m
  (s.setRecov n { r with
    members := r.members.map at_, rejoining := (l.map (·.modNo)).eraseDups, readyMods := (l.map (·.modNo)).eraseDups
    }).bringForward n

/-- The generation brought forward is complete (15 R336, step 4). -/
def forwardDone (s : State) (n : Nat) : Bool :=
  let x := s.ckpt n
  !x.forward && s.rd (0x4080 + n) 0xC == 0 && x.last.map (·.generation) == some x.gen

/-- The rejoin is complete: the rejoining modules have loaded their shards, the chains run through their replicas again,
and the next press step runs at the full width. -/
def endRejoin (s : State) (n : Nat) (l : List ShardLoad) : State :=
  let r := s.recov n
  let back := replicasOf (r.members.filter fun m => r.rejoining.contains m.modNo)
  let s1 := if r.rejoining.contains s.ownModule then
      match (s.ckpt n).last with
      | some g => (s.loadShards n g.generation l).setStep n g
      | none => s
    else s
  let s2 := s1.setRecov n { s1.recov n with
    dropped := r.dropped.filter fun k => !back.contains k, rejoining := [], readyMods := [], hold := false,
    reported := r.reported.filter (fun m => !r.rejoining.contains m),
    failedMods := r.failedMods.filter fun m => (r.members.any fun x => x.modNo == m) }
  let s3 := ((s2.setEpoch n (s2.epochOf n + 1)).setRecState n 0).bump (0x9080 + n) 0x10 back.length
  let s4 := if s.isLeader n then s3.tellMembers n "RESUME" [] else s3
  ((s4.publishMembers n).post .rejoinDone n).startPress n

/-- A recovery message of a lower epoch is discarded (15 R330); the module's own finding carries none. -/
def epochOk (s : State) (n : Nat) (epoch : Option Nat) : Bool :=
  match epoch with
  | some e => s.epochOf n ≤ e
  | none => true

end State

/-! ### The commands -/

/-- RESTORE_DONE: every press clearing of the membership has loaded its shard (15 R329), or a block of the shard `bad`
failed its check, which a member tells the leader. `told` is the generation as the leader names it to another member:
the first that names it begins the restore there (DESIGN CHOICE, log entry 24); on a module that holds no press of the
job, its vats resume with it. `more` are the shards of this module's other press clearings, and what the derived data
are made from. -/
def execRestoreDone (n : Nat) (blocks : List (Nat × List Byte)) (s : State) (bad : Option Nat := none)
    (told : Option GenCheck := none) (more : List ShardLoad := []) (epoch : Option Nat := none) : Ans :=
  let here := s.exists? n && !s.isLeader n
  let l := { clearing := n, blocks := blocks } :: more
  let k := if s.recState n == 2 then
      match bad, (s.recov n).chosen with
      | some shard, _ => if s.isLeader n then s.fallBack n shard else s.emit (.job n "BAD" (s.epochOf n) [shard])
      | none, some g => s.endRestore n g l
      | none, none => s
    else match told with
      | some g =>
        if here && s.jobRole n == 1 && s.recState n != 4 then s.beginRestore n g none
        else if here && s.jobRole n != 1 && (s.jobPresses n).isEmpty then
          ((s.jobVats n).foldl State.cancelAll s).restoreVats n g
        else s
      | none => s
  inRange (wfClearing n) s (onlyIf (s.epochOk n epoch) s k)

/-- HEARTBEAT (15 R330): one from another module is recorded; this module's own, every HEARTBEAT_MS, is sent. A message of
a lower epoch is discarded. -/
def execHeartbeat (n src epoch : Nat) (s : State) : Ans :=
  let r := s.recov n
  let k := if src == s.ownModule then s.tellMembers n "HEARTBEAT" [src]
    else if epoch < s.epochOf n then s
    else s.setRecov n { r with missed := del r.missed src, lastHeard := ins r.lastHeard src s.time }
  inRange (wfClearing n && wfModule src) s (onlyIf (s.jobRole n == 1 && s.exists? n) s k)

/-- HEARTBEAT_MISS (15 R331): a heartbeat of a module is missing; HEARTBEAT_MISS consecutive ones take it as failed. -/
def execHeartbeatMiss (n modNo : Nat) (s : State) (env : LeadEnv := {}) : Ans :=
  let r := s.recov n
  let gone := (s.time - (look r.lastHeard modNo).getD 0) / (1000000 * s.rd 0x90C0 4)
  let watched := ((State.liveMembers r).any fun m => m.modNo == modNo) && modNo != s.ownModule
    && (s.isLeader n || modNo == s.rd (0x9080 + n) 1) && !r.failedMods.contains modNo
  let s1 := s.setRecov n { r with missed := ins r.missed modNo gone }
  inRange (wfClearing n && wfModule modNo) s
    (onlyIf (watched && gone != 0) s (if s.rd 0x90C0 5 ≤ gone then s1.findFailure n modNo env else s1))

/-- FAILURE_REPORT (15 R331, R333): a report of a lower epoch is discarded. -/
def execFailureReport (n modNo epoch : Nat) (s : State) (env : LeadEnv := {}) : Ans :=
  inRange (wfClearing n && wfModule modNo) s
    (onlyIf (s.exists? n && s.jobRole n == 1 && s.epochOf n ≤ epoch) s (s.findFailure n modNo env))

/-- SHRINK reaches a member (15 R333, step 3), with the modules that have failed, which a new leader counts too (R335). -/
def execShrink (n epoch : Nat) (drop : List Nat) (s : State) (failed : List Nat := []) : Ans :=
  inRange (wfClearing n) s
    (onlyIf (s.exists? n && s.jobRole n == 1 && s.epochOf n ≤ epoch) s
      (((s.setEpoch n epoch).noteFault n).takeShrink n drop failed))

/-- SHRINK_RESUME (15 R333, steps 4 and 5): `totals` tells whether any member reported that it holds the step's totals,
`sent` are the totals a member without them is sent, and `reports` the members' TOTALS reports that reach the leader,
which resumes when it has them all. -/
def execShrinkResume (n : Nat) (s : State) (totals : Bool := false) (usable : List Nat := [])
    (reports : List (Nat × Bool) := []) (sent : List (Nat × List Byte) := []) (epoch : Option Nat := none) : Ans :=
  let s1 := s.noteTotals n reports
  inRange (wfClearing n) s
    (onlyIf (s.recState n == 1 && s.epochOk n epoch) s (onlyIf (s1.allTold n) s1 (s1.resumeJob n totals usable sent)))

/-- SHRINK_LIMIT (15 R334): the leader could not send RESUME within SHRINK_LIMIT_S of the first failure report. -/
def execShrinkLimit (n : Nat) (s : State) (env : LeadEnv := {}) : Ans :=
  let due := match (s.recov n).shrinkAt with
    | some t => 1000000000 * s.rd 0x90C0 2 ≤ s.time - t
    | none => false
  inRange (wfClearing n) s (onlyIf (s.recState n == 1 && s.isLeader n && due) s (s.restoreInstead n env))

/-- STEP_TIME_REPORT (15 R332): the members' PRESS_STEP_NS of one step, at the leader. -/
def execStepTimeReport (n : Nat) (reports : List (Nat × Nat)) (s : State) (env : LeadEnv := {})
    (epoch : Option Nat := none) : Ans :=
  inRange (wfClearing n) s (onlyIf (s.epochOk n epoch && s.isLeader n && s.exists? n && s.jobRole n == 1) s
    (s.judgeTimes n reports env))

/-- REJOIN_READY (15 R336, steps 2 and 3): a rejoining module reports ready to the leader; `rejoin` is the leader's
REJOIN to a member, with the positions of the rejoining modules. -/
def execRejoinReady (n modNo : Nat) (s : State) (rejoin : List Member := []) (epoch : Option Nat := none) : Ans :=
  let k := if rejoin.isEmpty then onlyIf ((s.recov n).rejoining.contains modNo) s (s.modReady n modNo)
    else onlyIf (!s.isLeader n && s.exists? n && s.jobRole n == 1) s (s.takeRejoin n rejoin)
  inRange (wfClearing n && wfModule modNo) s (onlyIf (s.recState n == 0 && s.epochOk n epoch) s k)

/-- REJOIN_DONE (15 R336, steps 4 and 5), once the generation brought forward is complete. -/
def execRejoinDone (n : Nat) (blocks : List (Nat × List Byte)) (s : State) (more : List ShardLoad := [])
    (epoch : Option Nat := none) : Ans :=
  inRange (wfClearing n) s (onlyIf (s.recState n == 3 && s.forwardDone n && s.epochOk n epoch) s
    (s.endRejoin n ({ clearing := n, blocks := blocks } :: more)))

end Sys2Proof.Machine
end

