-- ==== Sys2Proof/Machine/Write.lean ====
section
/-! DEFINITION. Writing the dictionary: the checks of 17 R359 in their order, what each entry's own chapter checks at
order 8, and what an accepted write does. Every path ends here: field-network frames, DICT slots, BAR0, the aperture,
bank records, and the commands that are a write of one entry. -/

namespace Sys2Proof.Machine

/-- What kind of transfer carries a write (17 R363, R367): one that reaches every type, one for scalars, one for STR and
BLOB values. -/
inductive Kind where
  | any
  | scalar
  | long
deriving DecidableEq, Repr

/-- A fixed length an entry states (19 R403, R405). -/
def fixedLen (idx sub : Nat) : Option Nat :=
  if idx == 0x8002 && sub == 1 then some 1696
  else if 0x8040 ≤ idx && idx ≤ 0x807F && sub == 1 then some 1676
  else none

/-- Order 5 of 17 R359. -/
def lengthBad (e : Entry) (idx sub : Nat) (v : List Byte) : Bool :=
  match e.ty with
  | .str m => decide (m < v.length) || !utf8Valid v.length v
  | .blob m => decide (m < v.length) || (match fixedLen idx sub with
    | some k => v.length != k
    | none => false)
  | t => some v.length != t.width

/-- The transfer is of the wrong kind for the type. -/
def kindBad (e : Entry) (k : Kind) : Bool :=
  match k with
  | .any => false
  | .scalar => e.ty.width.isNone
  | .long => e.ty.width.isSome

/-- A MON_SOURCE that uses a reserved code or field (16 R346). -/
def sourceReserved (x : Nat) : Bool :=
  let q := bitsOf x 27 24
  let sel := bitsOf x 23 16
  3 ≤ bitsOf x 31 28 || bitsOf x 15 0 != 0 || 9 ≤ q ||
    (if q ≤ 2 || q == 8 then 16 ≤ sel
     else if q ≤ 4 then sel == 0 || 8 ≤ sel
     else sel != 0)

/-- A PORT_MODE that 14 R303 does not allow on the port. -/
def modeReserved (p x : Nat) : Bool := if p < 24 then 2 ≤ x else x == 1 || 5 ≤ x

/-- A routing table with a reserved byte or a port that is none (14 R301). -/
def tableReserved : List Byte → Bool
  | a :: b :: rest => b != 0 || (0x20 ≤ a.toNat && a != 0xFF) || tableReserved rest
  | _ => false

/-- Order 6 of 17 R359: a reserved bit or code. -/
def reservedBad (e : Entry) (idx sub : Nat) (v : List Byte) : Bool :=
  let x := leNat v
  let listed := match e.rng with
    | .codes l => !l.contains x
    | .bits n => decide (pow2 n ≤ x)
    | _ => false
  listed
    || ((arbKind idx).isSome && x == 0)
    || (0x3240 ≤ idx && idx ≤ 0x327F && sub == 1 && stepsReserved v)
    || (0x7090 ≤ idx && idx ≤ 0x70CF && 0x10 ≤ sub && sub % 16 == 0 && sourceReserved x)
    || (0x5000 ≤ idx && idx < 0x5200 && idx % 16 == 0 && sub == 1 && modeReserved ((idx - 0x5000) / 16) x)
    || (0x5210 ≤ idx && idx ≤ 0x5213 && tableReserved v)
    || (0x8040 ≤ idx && idx ≤ 0x807F && State.keyReserved v)
    || (idx == 0x8002 && State.sessionReserved v)

/-- Entries of a clearing's identity (12 R255). -/
def isIdentity (idx sub : Nat) : Bool := 0x2000 ≤ idx && idx < 0x2400 && idx % 16 == 0 && 2 ≤ sub && sub ≤ 5

namespace State

/-- Order 7 of 17 R359: a value outside its stated range. -/
def rangeBad (s : State) (e : Entry) (idx sub : Nat) (v : List Byte) : Bool :=
  let x := leNat v
  let stated := match e.rng with
    | .range lo hi => decide (x < lo) || decide (hi < x)
    | .mult m max => x % m != 0 || decide (max < x)
    | _ => false
  stated
    || (0x4040 ≤ idx && idx < 0x4080 && (sub == 5 || sub == 6) && decide (s.rd idx (sub - 2) < x))
    || (0x4140 ≤ idx && idx < 0x4180 && sub == 8 && decide (s.rd idx 7 ≤ x))

/-- Whether a role may write an entry (00 R12, 17 R357). -/
def mayWrite (s : State) (r : Role) (e : Entry) (idx sub : Nat) : Bool :=
  match e.acc with
  | .ro => false
  | .rw => true
  | .wm => r == .manager
  | .wh => r == .manager
  | .wt => match e.clearing idx sub with
    | some n => s.isTenantOf r n
    | none => false

/-- The input of an arbiter whose WAIT_LIMIT a position is does not exist (13 R290). -/
def absentInput (idx sub : Nat) : Bool :=
  match arbKind idx with
  | some k => 0x31 ≤ sub && sub ≤ 0x37 && arbLimit k (sub - 0x31) == 0
  | none => false

/-- Orders 1 to 7 of 17 R359. A bank record is applied with the authority of the manager, whatever the access code, and
not only in HELD (17 R381). -/
def checkForm (s : State) (r : Role) (bank : Bool) (idx sub : Nat) (v : List Byte) (kind : Kind) : Name :=
  match entryAt idx sub with
  | none => .entryAbsent
  | some e => firstBad
      [ (e.acc == .ro || absentInput idx sub, .entryReadOnly),
        (!s.mayWrite r e idx sub, .roleDenied),
        (e.acc == .wh && !bank && s.power.mode != .held, .notHeld),
        (kindBad e kind, .transferKind),
        (lengthBad e idx sub v, .typeMismatch),
        (reservedBad e idx sub v, .reservedSet),
        (s.rangeBad e idx sub v, .valueRange) ]

/-- The refusals of 18 R387 and 12 R255, the first of order 8. KEY_WRAPPED has its own (19 R403). -/
def stateRefusal (s : State) (e : Entry) (idx sub : Nat) : Name :=
  match e.clearing idx sub with
  | none => .ok
  | some n =>
    if 0x8040 ≤ idx && idx ≤ 0x807F then .ok
    else firstBad
      [ (isIdentity idx sub && s.exists? n, .clearingExists),
        (e.acc == .wt && !s.exists? n, .clearingAbsent),
        (s.clearState n == 1 || s.clearState n == 4, .clearingBusy) ]

/-- A value stored as the one most recently accepted (17 R355). -/
def store (s : State) (e : Entry) (idx sub : Nat) (v : List Byte) : State :=
  if e.ty.width.isSome then s.wr idx sub (leNat v) else s.wrBlob idx sub v

/-- A result that stores the value, or a refusal that changes nothing (00 R9). -/
def answer (s : State) (why : Name) (k : State) : Name × State := if why == .ok then (.ok, k) else (why, s)

/-- A command's result with its command code read back (17 R359). -/
def answerCmd (s : State) (idx sub v : Nat) (r : Except Name State) : Name × State :=
  match r with
  | .ok k => (.ok, k.wr idx sub v)
  | .error why => (why, s)

/-! ### Order 8, entry by entry -/

/-- A clearing block (12 R255, R257, R259, R260, R267, R272). `t` holds the value as written. -/
def writeBlock (s t : State) (idx sub x : Nat) : Name × State :=
  let n := (idx - 0x2000) / 16
  let weigh := s.exists? n && t.overBudget n (s.mapOf n) (s.claimOf n)
  let claim := s.exists? n && t.overBudget n (s.mapOf n) (t.newClaim n)
  let poor := t.claimantPoor n (if s.exists? n then s.claimOf n else s.newClaim n)
  match idx % 16, sub with
  | 0, 6 => s.answer (firstBad [(weigh, .shareBudget)]) t
  | 0, 7 => s.answer (firstBad [(poor, .regOvercommit)]) t
  | 2, _ => s.answer (firstBad [(claim, .shareBudget)]) t
  | 0xF, _ => s.answerCmd idx sub x (match x with
    | 1 => s.createCmd n
    | 2 => s.resizeCmd n
    | _ => s.destroyCmd n)
  | 0, 3 => (.ok, t.closeKeyless)
  | _, _ => (.ok, t)

/-- A share below the one the clearing's accepted plan records (12 R267). -/
def belowPlan (s : State) (n res x : Nat) : Bool :=
  match s.planOf n with
  | some p => p.shares.any fun q => q.1 == res && decide (x < q.2)
  | none => false

/-- REG_SHARE (12 R267). -/
def writeShare (s t : State) (n res x : Nat) : Name × State :=
  let claim := if s.exists? n then s.claimOf n else s.newClaim n
  s.answer (firstBad [(t.overShared res || t.claimantPoor n claim, .regOvercommit), (s.belowPlan n res x, .regBudget)]) t

/-- CULTURE_SEED (05 R93). -/
def seedClash (s : State) (n x : Nat) : Bool :=
  x != 0 && (s.grovesOf n).any fun g => (s.others n).any fun m => !allZero (s.mapOf m g) && s.hasOther m x

/-- Bytes of the key-value pool and the turning pool as accepted (07 R160, 10 R227, 11 R241). -/
def poolBytes (s : State) (n : Nat) : Nat := s.rd (0x4140 + n) 1 * s.rd (0x4140 + n) 0xB + s.rd (0x6040 + n) 2

/-- A quota change of the clearing is still being applied (11 R241, rule 5). -/
def quotaPending (s : State) (n : Nat) : Bool :=
  (s.clr n).scrubbing || [1, 2, 3, 4].any fun k => s.rd (0x4040 + n) k != s.frc (0x4040 + n) k

/-- A memory quota would fall below what the clearing's pools, its paused images or its job window take (11 R241, rule
4). -/
def quotaInUse (s : State) (n sub x : Nat) : Bool :=
  (sub == 3 && (decide (x < s.poolBytes n) || decide (x < s.rd (0x4040 + n) 5)))
    || (sub == 4 && (decide (x < s.pausedBytes n) || decide (x < s.rd (0x4040 + n) 6)))

/-- A quota of a clearing that exists (11 R241, rules 1 to 6); a growth of a memory quota starts its scrub. -/
def writeQuota (s t : State) (n sub x : Nat) : Name × State :=
  let grows := (sub == 3 || sub == 4) && decide (s.rd (0x4040 + n) sub < x)
  let unfed := grows && (if sub == 3 then [1, 2, 3, 4].any fun r => s.share n r == 0 else s.share n 5 == 0)
  s.answer (firstBad
      [ (t.granulesShort n (s.mapOf n) || t.memoryShort n (s.mapOf n), .quotaShort), (s.quotaInUse n sub x, .quotaInUse),
        (s.quotaPending n, .quotaBusy), (unfed, .regOvercommit) ])
    (if grows then t.setClr n { t.clr n with scrubbing := true } else t)

/-- Checkpoint entries (15 R317, R318, R340). -/
def writeCkpt (s t : State) (n sub x : Nat) : Name × State :=
  if sub == 1 then
    if s.jobRole n != 1 then (.ok, t)
    else if x == 0 then (.ok, t.unreserve n)
    else match t.reserveChannel n with
      | some k => (.ok, k)
      | none => (.copierShort, s)
  else s.answer (firstBad
      [ (2 ≤ sub && sub ≤ 9 && s.ckptState n != 0, .ckptBusy),
        ((sub == 5 || sub == 9) && x == s.rd 0x90C0 1, .ckptDomain) ]) t

/-- Key-value pool entries (07 R160). -/
def writePool (s t : State) (n sub : Nat) : Name × State :=
  s.answer (firstBad
      [ ((sub == 1 || 6 ≤ sub && sub ≤ 8) && s.poolBusy n, .kvPoolBusy),
        (sub == 1 && decide (s.rd (0x4040 + n) 3 < t.poolBytes n), .kvPoolQuota) ]) t

/-- A turning pool of `x` bytes holds, in every stack, the largest unit of a list (10 R212). -/
def poolHolds (x : Nat) (units : List Nat) : Bool :=
  (List.range 12).all fun k => unitBlocks (units.foldl max 0) k ≤ x / 0x1800000

/-- Turning entries (10 R226). -/
def writeTurn (s t : State) (n sub x : Nat) : Name × State :=
  if sub != 2 then (.ok, t)
  else s.answer (firstBad
      [ (s.turnState n != 0, .turnBusy),
        (decide (s.rd (0x4040 + n) 3 < t.poolBytes n), .turnPoolQuota),
        (!poolHolds x (s.unitList n), .turnPoolSmall) ]) t

/-- Monitors and HEALTH_CLEAR (16 R349, R350, R352). -/
def writeHealth (s t : State) (n sub x : Nat) : Name × State :=
  let k := sub % 16
  let m := sub / 16 - 1
  if sub == 2 then (.ok, s.setClr n { s.clr n with healthClear := true })
  else if sub < 16 then (.ok, t)
  else
    let bad := (k == 2 && decide (x < s.rd (0x7090 + n) (sub + 1))) || (k == 3 && decide (s.rd (0x7090 + n) (sub - 1) < x))
    let c := t.clr n
    s.answer (firstBad [(bad, .healthInvalid)])
      (t.setClr n { c with monWrite := if c.monWrite.contains m then c.monWrite else c.monWrite ++ [m] })

/-- Trigger quotas (14 R306): 1,024 counters and 4,096 descriptors over all 64 clearings, the absent ones among them. -/
def writeTrigQuota (s t : State) (sub : Nat) : Name × State :=
  let sum := ((List.range 64).map fun m => t.rd (0x5220 + m) sub).foldl (· + ·) 0
  s.answer (firstBad [(if sub == 1 then decide (1024 < sum) else decide (4096 < sum), .quotaShort)]) t

/-- A port's entries (14 R302, R303): a changed mode brings the port down. -/
def writePort (s t : State) (idx sub x : Nat) : Name × State :=
  let p := (idx - 0x5000) / 16
  if idx % 16 == 0 && sub == 1 then
    (.ok, if s.rd idx 1 == x then t else (t.setPortState p 0).freshPort p)
  else if idx % 16 == 0 && sub == 0xC then
    s.answer (firstBad [(t.overShared (0x20 + p), .regOvercommit)]) t
  else if idx % 16 == 0 && sub == 7 then (.ok, t.expectPeer p)
  else (.ok, t)

/-- A micro-program entry (06 R129, R130). -/
def writeMicro (s t : State) (e : Nat) : Name × State :=
  if s.mpState e == 3 then (.microprogBusy, s) else t.validateMp e

/-- RECOVERY_CMD (15 R341), with what the check of both generations finds. -/
def writeRecovery (s t : State) (n x : Nat) (newer older : GenCheck) : Name × State :=
  if !(s.exists? n && s.jobRole n == 1 && s.isLeader n) then (.notLeader, s)
  else (.ok, t.restoreCmd n (x == 2) newer older)

/-- POWER_CMD (18 R391, 21 R447). -/
def writePower (s t : State) (x : Nat) : Name × State :=
  if x == 1 then (.ok, t.doHold)
  else if s.power.thermN then (.thermalTripped, s)
  else (.ok, t.doResume.checkPlans)

/-- ARB_CLEAR (13 R290): every arbiter counter is zeroed; it reads 0. -/
def clearArbiters (s : State) : State :=
  { s with dict := s.dict.filter fun p =>
      !(0x6110 ≤ p.1 / 256 && p.1 / 256 ≤ 0x618F && (p.1 % 256 < 0x31 || 0x37 < p.1 % 256)) }

/-- EVLOG_SELECT and ATTEST_NONCE, held for each session (18 R393, R394). -/
def writeOwn (s : State) (sess idx : Nat) (v : List Byte) : State :=
  match s.session sess with
  | some y => s.setSession (if idx == 0x7100 then { y with evSelect := leNat v } else { y with nonce := v })
  | none => { s with sec := if idx == 0x7100 then { s.sec with hostSelect := leNat v } else { s.sec with hostNonce := v } }

/-- Entries of clearings. -/
def writeClearing (s t : State) (idx sub n x : Nat) (gens : GenCheck × GenCheck) : Name × State :=
  if idx < 0x2400 then s.writeBlock t idx sub x
  else if 0x2410 ≤ idx && idx < 0x2450 then s.writeShare t n sub x
  else if idx == 0x3110 then s.answer (firstBad [(s.seedClash n x, .cultureConflict)]) t
  else if 0x4040 ≤ idx && idx < 0x4080 then
    (if 4 < sub then s.answer (firstBad [(s.quotaPending n, .quotaBusy)]) t else if s.exists? n then s.writeQuota t n sub x
      else s.answer (firstBad [(s.quotaInUse n sub x, .quotaInUse)]) t)
  else if 0x4080 ≤ idx && idx < 0x40C0 then s.writeCkpt t n sub x
  else if 0x4140 ≤ idx && idx < 0x4180 then s.writePool t n sub
  else if 0x5220 ≤ idx && idx < 0x5260 then s.writeTrigQuota t sub
  else if 0x6040 ≤ idx && idx < 0x6080 then s.writeTurn t n sub x
  else if 0x7090 ≤ idx && idx < 0x70D0 then s.writeHealth t n sub x
  else if 0x9080 ≤ idx && idx < 0x90C0 && sub == 0xC then s.writeRecovery t n x gens.1 gens.2
  else (.ok, t)

/-- Module-wide entries. -/
def writeModule (s t : State) (sess idx sub x : Nat) (v : List Byte) : Name × State :=
  match idx, sub with
  | 0x1003, _ => (.ok, { t with power := { t.power with numberNew := true } })
  | 0x1100, 2 => s.writePower t x
  | 0x1200, 3 => (.ok, { s with power := { s.power with resetAt := some (s.power.resetAt.getD (s.time + 1000000)) } })
  | 0x1202, 2 => (.ok, s.stageData v)
  | 0x1202, 3 => s.answerCmd idx sub x (s.stageCmd x)
  | 0x1210, _ => s.answerCmd idx sub x (s.storeCmd x)
  | 0x3201, _ => if s.mpTableBusy v then (.microprogBusy, s) else (.ok, s.writeMpTable v)
  | 0x4000, _ => s.answer (firstBad [(!s.counted.isEmpty || !s.present.isEmpty, .clearingsExist)]) t
  | 0x6100, _ => (.ok, s.clearArbiters)
  | 0x7100, _ => (.ok, s.writeOwn sess idx v)
  | 0x8001, _ => (.ok, s.writeOwn sess idx v)
  | 0x8002, _ => (.ok, t.sessionOpen v)
  | _, _ =>
    if 0x3240 ≤ idx && idx ≤ 0x327F then s.writeMicro t (idx - 0x3240)
    else if 0x5000 ≤ idx && idx < 0x5200 then s.writePort t idx sub x
    else (.ok, t)

/-- Order 8 and the effect of a write that passed orders 1 to 7. -/
def effect (s : State) (sess : Nat) (e : Entry) (idx sub : Nat) (v : List Byte) (gens : GenCheck × GenCheck) :
    Name × State :=
  let why := s.stateRefusal e idx sub
  let t := s.store e idx sub v
  if why != .ok then (why, s)
  else if 0x8040 ≤ idx && idx ≤ 0x807F then s.answer (s.keyChecks (idx - 0x8040) v) (s.deliverKey (idx - 0x8040) v)
  else match e.clearing idx sub with
    | none => s.writeModule t sess idx sub (leNat v) v
    | some n =>
      let r := s.writeClearing t idx sub n (leNat v) gens
      if r.1 == .ok then (.ok, r.2.settle n) else r

/-- A write by a role (17 R359); a COMMIT writes through it too. -/
def writeAs (s : State) (r : Role) (sess : Nat) (bank : Bool) (idx sub : Nat) (v : List Byte) (kind : Kind)
    (gens : GenCheck × GenCheck) : Name × State :=
  let why := s.checkForm r bank idx sub v kind
  match entryAt idx sub with
  | none => (why, s)
  | some e => if why == .ok then s.effect sess e idx sub v gens else (why, s)

/-- No generation. -/
def noGen : GenCheck := {
  present := false, generation := 0, step := 0, version := 0, vatStep := 0, scaleId := 0, planShape := 0,
  missing := none, mismatch := none, corrupt := none }

/-- What the leader finds of its two generations when a RECOVERY_CMD does not bring what their check finds: the newest
complete one and the one before it, as they can be checked from this module (log entry 24). -/
def knownGens (s : State) (idx : Nat) : GenCheck × GenCheck :=
  let n := idx - 0x9080
  let known (g : Option GenCheck) : GenCheck := match g with
    | some g => s.checkGen n g
    | none => noGen
  (known (s.ckpt n).last, known (s.ckpt n).prev)

/-! ### The aperture (17 R368) -/

/-- LOAD: the value copied into the aperture, in the host role. -/
def apertureLoad (s : State) : Name × State :=
  let idx := s.rd 0xA010 1
  let sub := s.rd 0xA010 2
  match entryAt idx sub with
  | none => (.entryAbsent, s)
  | some e =>
    if !s.mayRead .host e idx sub then (.roleDenied, s)
    else if e.ty.width.isSome then (.transferKind, s)
    else match s.readEntry 0 idx sub with
      | .error why => (why, s)
      | .ok b => (.ok, { s with hub := { s.hub with aperture := overwrite s.hub.aperture 0 b } }.wr 0xA010 3 b.length)

/-- COMMIT: the aperture's bytes applied as one write, in the host role. -/
def apertureCommit (s : State) : Name × State :=
  let idx := s.rd 0xA010 1
  s.writeAs .host 0 false idx (s.rd 0xA010 2) (slice s.hub.aperture 0 (s.rd 0xA010 3)) .long (s.knownGens idx)

/-- APERTURE_CMD: the outcome is in APERTURE_STATUS. -/
def apertureCmd (s : State) (x : Nat) : State :=
  let s1 := s.wr 0xA010 4 x
  let r := if x == 1 then s1.apertureLoad else s1.apertureCommit
  r.2.wr 0xA010 5 r.1.code

/-! ### Writes from every path -/

/-- A dictionary write under a session (17 R356, R359), with what a RECOVERY_CMD brings. -/
def writeWith (s : State) (sess idx sub : Nat) (v : List Byte) (kind : Kind) (gens : GenCheck × GenCheck) :
    Name × State :=
  match s.roleOf sess with
  | none => (.sessionUnknown, s)
  | some r =>
    let w := s.writeAs r sess false idx sub v kind gens
    if idx == 0xA010 && sub == 4 && w.1 == .ok then (.ok, s.apertureCmd (leNat v)) else w

/-- A dictionary write under a session. -/
def applyWrite (s : State) (sess idx sub : Nat) (v : List Byte) (kind : Kind) : Name × State :=
  s.writeWith sess idx sub v kind (s.knownGens idx)

/-- A bank record applied (17 R381): what it sets is in force at once. -/
def applyRecord (s : State) (idx sub : Nat) (v : List Byte) : Name × State :=
  let persistent := match entryAt idx sub with
    | some e => e.persist
    | none => false
  if !persistent then (.entryAbsent, s)
  else
    let r := s.writeAs .manager 0 true idx sub v .any (noGen, noGen)
    if r.1 == .ok && (idx == 0x1003 || (idx == 0x1130 && sub == 1)) then (.ok, r.2.setFrc idx sub (leNat v)) else r

/-- An accepted request under a session: its 3,600 s begin anew (19 R408). -/
def touch (s : State) (sess : Nat) : State :=
  match s.session sess with
  | some x => s.setSession { x with lastAt := s.time }
  | none => s

/-- A write commanded directly: its status goes to the outside. -/
def command (s : State) (sess idx sub : Nat) (v : List Byte) : State :=
  let r := s.applyWrite sess idx sub v .any
  onlyIf s.reachable s ((if r.1 == .ok then r.2.touch sess else r.2).emit (.status r.1))

end State

/-! ### The commands that are a write of one entry -/

/-- REGISTER_WRITE: a write of any entry (17 R359). -/
def execRegisterWrite (sess idx sub : Nat) (v : List Byte) (s : State) : Ans := whenOn s (s.command sess idx sub v)

/-- HOLD: POWER_CMD 01h (21 R446). -/
def execHold (sess : Nat) (s : State) : Ans := whenOn s (s.command sess 0x1100 2 [1])

/-- RESUME: POWER_CMD 02h (21 R447). -/
def execResume (sess : Nat) (s : State) : Ans := whenOn s (s.command sess 0x1100 2 [2])

/-- MODULE_RESET: it takes effect 1 ms after its response (18 R392). -/
def execModuleReset (sess : Nat) (s : State) : Ans := whenOn s (s.command sess 0x1200 3 [1])

/-- STORE: STORE_CMD 01h (17 R382). -/
def execStore (sess : Nat) (s : State) : Ans := whenOn s (s.command sess 0x1210 1 [1])

/-- RESET_DEFAULTS: STORE_CMD 02h (17 R382). -/
def execResetDefaults (sess : Nat) (s : State) : Ans := whenOn s (s.command sess 0x1210 1 [2])

/-- FW_STAGE_DATA_WRITE (18 R392). -/
def execFwStageDataWrite (sess : Nat) (v : List Byte) (s : State) : Ans := whenOn s (s.command sess 0x1202 2 v)

/-- ERASE: FW_STAGE_CMD 01h (18 R392). -/
def execErase (sess : Nat) (s : State) : Ans := whenOn s (s.command sess 0x1202 3 [1])

/-- VERIFY: FW_STAGE_CMD 02h (18 R392, 19 R412). -/
def execVerify (sess : Nat) (s : State) : Ans := whenOn s (s.command sess 0x1202 3 [2])

/-- SELECT: FW_STAGE_CMD 03h (18 R392, 19 R414). -/
def execSelect (sess : Nat) (s : State) : Ans := whenOn s (s.command sess 0x1202 3 [3])

/-- RESTORE: RECOVERY_CMD 01h, with what the leader's check of both generations finds (15 R328). -/
def execRestore (sess n : Nat) (newer older : GenCheck) (s : State) : Ans :=
  let r := s.writeWith sess (0x9080 + n) 0xC [1] .any (newer, older)
  inRange (wfClearing n) s (onlyIf s.reachable s (r.2.emit (.status r.1)))

/-- RESTORE_OLDER: RECOVERY_CMD 02h (15 R328). -/
def execRestoreOlder (sess n : Nat) (newer older : GenCheck) (s : State) : Ans :=
  let r := s.writeWith sess (0x9080 + n) 0xC [2] .any (newer, older)
  inRange (wfClearing n) s (onlyIf s.reachable s (r.2.emit (.status r.1)))

/-- ARB_CLEAR (13 R290). -/
def execArbClear (sess : Nat) (s : State) : Ans := whenOn s (s.command sess 0x6100 3 [1])

/-- HEALTH_CLEAR (16 R352). -/
def execHealthClear (sess n : Nat) (s : State) : Ans := inRange (wfClearing n) s (s.command sess (0x7090 + n) 2 [1])

/-- CELLAR_TTL_ENABLE_WRITE (22 R471). -/
def execCellarTtlEnableWrite (sess v : Nat) (s : State) : Ans := whenOn s (s.command sess 0x4C10 1 (leBytes 1 v))

/-- ATTEST_REPORT_READ (19 R416): the report over the reader's nonce, or the refusal. -/
def execAttestReportRead (sess : Nat) (s : State) : Ans :=
  whenOn s (onlyIf s.reachable s (match s.readEntry sess 0x8001 2 with
    | .ok b => s.emit (.value b)
    | .error why => s.emit (.status why)))

/-- SESSION_OPEN_MANAGER: a SESSION_OPEN of KIND 1 (19 R405, R406). -/
def execSessionOpenManager (sess : Nat) (v : List Byte) (s : State) : Ans :=
  whenOn s (onlyIf (field v 1 1 == 1) s (s.command sess 0x8002 1 v))

/-- SESSION_OPEN_TENANT: a SESSION_OPEN of KIND 2. -/
def execSessionOpenTenant (sess : Nat) (v : List Byte) (s : State) : Ans :=
  whenOn s (onlyIf (field v 1 1 == 2) s (s.command sess 0x8002 1 v))

/-- COMMISSION: a SESSION_OPEN of KIND 3 (19 R409). -/
def execCommission (sess : Nat) (v : List Byte) (s : State) : Ans :=
  whenOn s (onlyIf (field v 1 1 == 3) s (s.command sess 0x8002 1 v))

/-- CLOSE: a SESSION_OPEN of KIND 4 (19 R408). -/
def execClose (sess : Nat) (v : List Byte) (s : State) : Ans :=
  whenOn s (onlyIf (field v 1 1 == 4) s (s.command sess 0x8002 1 v))

/-- KEY_WRAPPED_WRITE (19 R403). -/
def execKeyWrappedWrite (sess n : Nat) (v : List Byte) (s : State) : Ans :=
  inRange (wfClearing n) s (s.command sess (0x8040 + n) 1 v)

/-- CREATE: CLEAR_CMD 01h (12 R257). -/
def execCreate (sess n : Nat) (s : State) : Ans := inRange (wfClearing n) s (s.command sess (0x200F + 16 * n) 1 [1])

/-- RESIZE: CLEAR_CMD 02h (12 R259). -/
def execResize (sess n : Nat) (s : State) : Ans := inRange (wfClearing n) s (s.command sess (0x200F + 16 * n) 1 [2])

/-- DESTROY: CLEAR_CMD 03h (12 R260). -/
def execDestroy (sess n : Nat) (s : State) : Ans := inRange (wfClearing n) s (s.command sess (0x200F + 16 * n) 1 [3])

/-- MICROPROG_WRITE: MP_STEPS, MP_TABLE_BASE or MP_TABLE_LEN of an entry (06 R129). -/
def execMicroprogWrite (sess entry sub : Nat) (v : List Byte) (s : State) : Ans :=
  inRange (wfMicro entry) s (s.command sess (0x3240 + entry) sub v)

/-- MP_TABLE_WRITE (06 R129, R130). -/
def execMpTableWrite (sess : Nat) (v : List Byte) (s : State) : Ans := whenOn s (s.command sess 0x3201 1 v)

/-- APERTURE_LOAD: APERTURE_CMD 01h (17 R368). -/
def execApertureLoad (sess : Nat) (s : State) : Ans := whenOn s (s.command sess 0xA010 4 [1])

/-- APERTURE_COMMIT: APERTURE_CMD 02h (17 R368). -/
def execApertureCommit (sess : Nat) (s : State) : Ans := whenOn s (s.command sess 0xA010 4 [2])

end Sys2Proof.Machine
end

