-- ==== Sys2Proof/Machine/Plan.lean ====
section
/-! DEFINITION. Plans: their parts, the checks of their acceptance, and what an accepted plan sets (17 R373; 12 R256; 13
R291; 06 R129; 10 R212; 03 R475). The layout of a plan image is the planner's (00 scope), so what the assembled image says
comes with the command (log entry 5). -/

namespace Sys2Proof.Machine

namespace State

/-! ### The checks, in the order of 17 R373 -/

/-- A chain longer than 9 − k tiles on a cell of k clearings (12 R256). -/
def chainLong (s : State) (p : PlanClearing) : Bool :=
  p.chain.any fun k => 9 < k.2 + s.crowdOn (k.1 / 256) (k.1 % 256)

/-- Event counters that the accepted plans and the image declare for a cell. -/
def declaredOn (s : State) (img : PlanImage) (cell : Nat) : Nat :=
  let of (p : PlanClearing) : Nat := ((p.counters.filter fun k => k.1 == cell).map (·.2)).foldl (· + ·) 0
  let old := (s.present.filterMap s.planOf).map of
  (old ++ img.clearings.map of).foldl (· + ·) 0

/-- More than 16 event counters on some cell (12 R256). -/
def countersShort (s : State) (img : PlanImage) : Bool :=
  img.clearings.any fun p => p.counters.any fun k => decide (16 < s.declaredOn img k.1)

/-- A REG_SHARE or SHARE_WEIGHT below the value the plan records. -/
def shareLow (s : State) (p : PlanClearing) : Bool :=
  s.rd (0x2000 + 16 * p.n) 6 < p.weight || p.shares.any fun k => decide (s.share p.n k.1 < k.2)

/-- A program of the image goes to an index that holds other bytes, or is none a store can hold (03 R475; the status of the
second is a DESIGN CHOICE, log entry 29). -/
def programConflict (s : State) (img : PlanImage) : Bool :=
  (img.programs.any fun a => !programOk a) ||
    (img.programs.any fun a => img.programs.any fun b => a.index == b.index && a.bytes != b.bytes)
    || img.clearings.any fun p => (s.reachOf p.n).any fun g => img.programs.any fun a =>
      match look (s.grove g).progs a.index with
      | some b => b != a.bytes
      | none => false

/-- A press's three turning sources do not lie in its tier-1 quota (10 R210; the status: DEDUCED, log entry
25). -/
def sourcesShort (s : State) (p : PlanClearing) : Bool :=
  let bytes := (p.shards.map fun b => (readShard b).srcOffset + (readShard b).length).foldl max 0
  p.role == 1 && !p.shards.isEmpty
    && (p.sources.length != 3 || p.sources.any fun o => decide (s.rd (0x4040 + p.n) 3 < o + bytes))

/-- The checks that the plan's own records carry beside those of 17 R373: its shard descriptors (10 R214) and the room
of its turning sources. -/
def recordChecks (s : State) (img : PlanImage) : List (Bool × Name) :=
  (img.clearings.flatMap shardsBad) ++ [(img.clearings.any s.sourcesShort, .quotaShort)]

/-- The plan checks (17 R373); `n` is the clearing of the slot. A clearing carries one job role, so that a plan for another
is a plan for another clearing (01 R19, DEDUCED: log entry 23). -/
def planChecks (s : State) (n : Nat) (img : PlanImage) : Name :=
  let ready (p : PlanClearing) : Bool :=
    p.n < 64 && p.role == s.jobRole p.n && s.clearState p.n == 2 && s.tenantOf p.n == s.tenantOf n && s.jobOf p.n == img.job
  firstBad
    ([ (img.generation != s.rd 0x1000 2 || img.scaleId != s.rd 0x1000 3, .planForeign),
      (!img.clearings.all ready, .planClearing),
      (img.clearings.any s.chainLong, .cellCrowded),
      (s.countersShort img, .countersShort),
      (img.arbLimits.any fun l => s.rd (l.1 / 256) (l.1 % 256) != l.2, .arbLimitMismatch),
      (img.micro.any fun e => s.mpState e != 2 && s.mpState e != 3, .microprogAbsent),
      (img.clearings.any fun p => p.role == 2 && !poolHolds (s.rd (0x6040 + p.n) 2) p.units, .turnPoolSmall),
      (img.clearings.any s.shareLow, .shareLow),
      (s.programConflict img, .programConflict) ] ++ s.recordChecks img)

/-! ### Acceptance -/

/-- The image's programs in every grove of a clearing. -/
def installPrograms (s : State) (img : PlanImage) (n : Nat) : State :=
  (s.reachOf n).foldl (fun s g => img.programs.foldl (fun s a => s.installProgram g n a) s) s

/-- The geometry of the key-value pool, set from the plan (07 R160). -/
def setGeometry (s : State) (n : Nat) (p : PlanClearing) : State :=
  let i := 0x4140 + n
  let bytes := 4096 + p.kvLayers * p.kvHeads * 1024 * p.kvWidth
  (((((s.wr i 2 p.kvWidth).wr i 3 p.kvFormat).wr i 4 p.kvLayers).wr i 5 p.kvHeads).wr i 9 p.kvSlots).wr i 0xB bytes

/-- The step boundary a clearing stands at when its plan is accepted: what decides whether a step may start is judged there
(22 R470). -/
def firstBoundary (s : State) (n : Nat) : State :=
  (((s.startFills n).computeWcst n).publish [(0x6027, n)]).checkPlan n

/-- One clearing of an accepted plan: ACTIVE, with the plan's counters, programs, pool geometry and membership. -/
def activate (s : State) (planId : Nat) (img : PlanImage) (p : PlanClearing) : State :=
  let n := p.n
  let s1 := s.setClr n { s.clr n with
    plan := some p, planGen := some img, planId := planId, kvBlock := p.kvBlock, turnBlock := p.turnBlock, stopped := [],
    mismatch := [], withdraw := false, inStep := false, due := false, idleSince := s.time }
  let s2 := ((s1.setClearState n 3).installPrograms img n).setGeometry n p
  let s3 := (s2.cellsOf n).foldl (fun s k => s.installCtrs n k.1 k.2) s2
  let s4 := if p.role == 1 then s3.joinJob n p else s3
  (s4.restFront n).firstBoundary n

/-- Micro-program entries an accepted plan names become IN_USE (06 R129). -/
def useMicro (s : State) (l : List Nat) : State := l.foldl (fun s e => s.wr (mpIdx e) 4 3) s

/-- A plan accepted (17 R373): its clearings become ACTIVE, its micro-programs IN_USE, and every monitor of the job returns
to its starting state (16 R350). -/
def acceptPlan (s : State) (n planId : Nat) (img : PlanImage) : State :=
  let s1 := img.clearings.foldl (fun s p => s.activate planId img p) (s.useMicro img.micro)
  (s1.present.filter fun m => s1.sameJob n m).foldl (fun s m => s.startMonitors m) s1

/-! ### Parts -/

/-- The plan under assembly that a part belongs to. -/
def planAsm (s : State) (planId n : Nat) : Option PlanAsm :=
  s.hub.plans.find? fun a => a.planId == planId && a.clearing == n

/-- A plan under assembly discarded. -/
def dropAsm (s : State) (planId n : Nat) : State :=
  { s with hub := { s.hub with plans := s.hub.plans.filter fun a => !(a.planId == planId && a.clearing == n) } }

/-- Bytes of image one part carries. -/
abbrev partBytes : Nat := 65440

/-- A part's header disagrees with itself or with its slot (17 R373). -/
def partBad (v : List Byte) : Bool :=
  let part := field v 8 2
  let count := field v 10 2
  let bytes := field v 16 8
  bytes == 0 || count ≤ part || count != ceilDiv bytes partBytes || field v 24 8 % blockBytes != 0
    || v.length != 32 + (if part + 1 == count then bytes - partBytes * part else partBytes)

/-- A PLAN_PART payload of clearing `n` (17 R373): the status it ends with, whether it completed its plan, and the state
after it. -/
def planPart (s : State) (n : Nat) (v : List Byte) (img : PlanImage) : Name × Bool × State :=
  let id := field v 0 8
  let part := field v 8 2
  let data := v.drop 32
  let fresh : PlanAsm := {
    planId := id, clearing := n, partCount := field v 10 2, imageBytes := field v 16 8, imageOffset := field v 24 8,
    parts := [], since := s.time }
  let a := (s.planAsm id n).getD fresh
  let differs := a.partCount != fresh.partCount || a.imageBytes != fresh.imageBytes || a.imageOffset != fresh.imageOffset
    || (match look a.parts part with
      | some d => d != data
      | none => false)
  if partBad v then (.slotInvalid, false, s)
  else if differs then (.planPartConflict, false, s.dropAsm id n)
  else if s.regionLen n 1 < a.imageOffset + a.imageBytes then (.quotaShort, false, s.dropAsm id n)
  else
    let a1 := { a with parts := ins a.parts part data }
    let s1 := (s.dropAsm id n).writeRegion n 1 (a.imageOffset + partBytes * part) data
    if a1.parts.length != a1.partCount then
      (.ok, false, { s1 with hub := { s1.hub with plans := s1.hub.plans ++ [a1] } })
    else
      let bad := s1.planChecks n img
      if bad == .ok then (.ok, true, s1.acceptPlan n id img) else (bad, false, s1)

end State

/-- PLAN_INCOMPLETE: PLAN_ASSEMBLY_S has passed without every part having arrived (17 R373). -/
def execPlanIncomplete (planId : Nat) (s : State) : Ans :=
  let late := s.hub.plans.filter fun a => a.planId == planId && 1000000000 * s.rd 0xA000 6 + a.since ≤ s.time
  whenOn s (late.foldl (fun s a => (s.dropAsm a.planId a.clearing).post .planIncomplete a.clearing .planIncomplete planId) s)

end Sys2Proof.Machine
end

