-- ==== Sys2Proof/Machine/Host.lean ====
section
/-! DEFINITION. The two paths to the module: submission slots and their sweep, the event area's acknowledgement and the
output rings (17 R369 to R377), BAR0 and the aperture's bytes (17 R366 to R368), and field-network frames (17 R361 to
R364), each under the session checks of 17 R358. -/

namespace Sys2Proof.Machine

/-! ### The fields of a slot's header (17 R370) -/

/-- KIND: 1 PLAN_PART, 2 VAT_REQUEST, 3 COMMAND, 4 DICT. -/
def slotKind (b : List Byte) : Nat := field b 1 1
/-- LENGTH. -/
def slotLength (b : List Byte) : Nat := field b 4 4
/-- HOST_TAG. -/
def slotTag (b : List Byte) : Nat := field b 8 8
/-- SESSION. -/
def slotSession (b : List Byte) : Nat := field b 16 4
/-- COUNTER. -/
def slotCounter (b : List Byte) : Nat := field b 24 8
/-- CLEARING. -/
def slotClearing (b : List Byte) : Nat := field b 32 2 % 64
/-- The payload. -/
def slotPayload (b : List Byte) : List Byte := slice b 64 (slotLength b)
/-- The bytes a slot's TAG covers. -/
def slotCovered (b : List Byte) : List Byte := slice b 1 47 ++ slotPayload b

/-- KIND or LENGTH out of range (17 R370, R372, order 1). -/
def slotInvalid (b : List Byte) : Bool := slotKind b == 0 || 4 < slotKind b || 65472 < slotLength b

/-- A COMMAND payload is not 16 bytes (17 R374), a check of its kind; it ends with SLOT_INVALID (DESIGN CHOICE, log
entry 29). -/
def cmdLength (b : List Byte) : Bool := slotLength b != 16

/-- A DICT payload is shorter than its own fields, or a write's LENGTH is not that of its value (17 R375): a check of
its kind, answered in the slot with TYPE_MISMATCH (DESIGN CHOICE, log entry 29). -/
def dictLength (b : List Byte) : Bool :=
  slotLength b < 16 || (field (slotPayload b) 3 1 == 2 && field (slotPayload b) 4 4 + 16 != slotLength b)

/-- A reserved field of the header or of the kind's own fields is set (17 R372, order 3; R373 to R375). -/
def slotReserved (b : List Byte) : Bool :=
  let p := slotPayload b
  let k := slotKind b
  field b 2 2 != 0 || field b 20 4 != 0 || 64 ≤ field b 32 2 || field b 34 2 != 0 || field b 40 8 != 0
    || (slotSession b == 0 && field b 48 16 != 0) || (k == 1 && field p 12 4 != 0)
    || (k == 3 && field p 1 3 != 0) || (k == 4 && field p 8 8 != 0)

/-- A COMMAND whose CMD is none of 17 R374. -/
def cmdUnknown (b : List Byte) : Bool := field (slotPayload b) 0 1 == 0 || 4 < field (slotPayload b) 0 1

/-- A DICT access whose OP is none of 17 R375. -/
def opUnknown (b : List Byte) : Bool := field (slotPayload b) 3 1 != 1 && field (slotPayload b) 3 1 != 2

namespace State

/-! ### Slots -/

/-- A slot's bytes in hub SRAM. -/
def slotBytes (s : State) (k : Nat) : List Byte := (look s.hub.slots k).getD []
/-- A slot's bytes set. -/
def setSlot (s : State) (k : Nat) (b : List Byte) : State := { s with hub := { s.hub with slots := ins s.hub.slots k b } }
/-- SSTATE of a slot: 0 EMPTY, 1 FULL, 2 TAKEN, 3 DONE. -/
def sstate (s : State) (k : Nat) : Nat := field (s.slotBytes k) 0 1
/-- SSTATE set. -/
def setSstate (s : State) (k v : Nat) : State := s.setSlot k (overwrite (s.slotBytes k) 0 (leBytes 1 v))

/-- The slot processed now leaves the queue of taken slots. -/
def popTaken (s : State) : State := { s with hub := { s.hub with taken := s.hub.taken.drop 1 } }

/-- The event a slot ends with (17 R371), kept for a request that comes again (17 R358) where the slot passed the session
checks. -/
def slotEvent (s : State) (t : Taken) (name why : Name) (detail reply : List Byte) (kept : Bool := true) : State :=
  let n := slotClearing t.bytes
  let s1 := s.postFull name n t.slot why (slotTag t.bytes) detail
  if kept then s1.recordReply (slotSession t.bytes) reply s1.hub.evLog.head? else s1

/-- A slot refused: SLOT_REFUSED, and the slot is EMPTY (17 R372). -/
def refuseSlot (s : State) (t : Taken) (why : Name) (kept : Bool := true) : State :=
  (((s.slotEvent t .slotRefused why [] [] kept).bump 0xA000 5 1).setSstate t.slot 0).popTaken

/-- A slot of another kind than DICT ends with its event and becomes EMPTY. -/
def endSlot (s : State) (t : Taken) (name : Name) (detail : List Byte) : State :=
  ((s.slotEvent t name .ok detail []).setSstate t.slot 0).popTaken

/-- The response of a DICT slot (17 R375): header and payload, with SSTATE DONE. -/
def dictReply (s : State) (b : List Byte) (why : Name) (v : List Byte) : List Byte :=
  let p := slice (slotPayload b) 0 4 ++ leBytes 4 v.length ++ leBytes 4 why.code ++ zeros 4 ++ v
  let h := slice b 1 3 ++ leBytes 4 p.length ++ slice b 8 28 ++ leBytes 4 (crc32c p) ++ zeros 8
  let tag := match s.session (slotSession b) with
    | some x => tagOf x.sk 1 (h ++ p)
    | none => zeros 16
  3 :: (h ++ tag ++ p)

/-- A DICT slot answered in the slot, with SLOT_DONE. `key` is the state whose session key signs the response. -/
def answerDict (s key : State) (t : Taken) (why : Name) (v : List Byte) : State :=
  let r := key.dictReply t.bytes why v
  ((s.setSlot t.slot r).slotEvent t .slotDone why [] r).popTaken

/-- A request that came again: what answered it is sent again (17 R358). -/
def answerAgain (s : State) (t : Taken) : State :=
  match s.session (slotSession t.bytes) with
  | none => s.popTaken
  | some x =>
    let s1 := match x.lastEv with
      | some e => s.postFull e.name (slotClearing t.bytes) t.slot e.status e.tag e.detail
      | none => s
    (if x.lastReply.isEmpty then s1.setSstate t.slot 0 else s1.setSlot t.slot x.lastReply).popTaken

/-- The role may submit a kind to a clearing (17 R372, order 5). -/
def maySubmit (s : State) (b : List Byte) : Bool :=
  slotKind b == 4 || (match s.roleOf (slotSession b) with
    | some r => s.isTenantOf r (slotClearing b)
    | none => false)

/-- A DICT write to the micro-program store: MP_TABLE or an entry of 06 R128. -/
def storeWrite (b : List Byte) : Bool :=
  let idx := field (slotPayload b) 0 2
  slotKind b == 4 && field (slotPayload b) 3 1 == 2 && (idx == 0x3201 || (0x3240 ≤ idx && idx ≤ 0x327F))

/-- A PLAN_PART slot brings the last part of its plan (17 R373). -/
def completesPlan (s : State) (b : List Byte) : Bool :=
  let p := slotPayload b
  slotKind b == 1 && match s.planAsm (field p 0 8) (slotClearing b) with
    | some a => (look a.parts (field p 8 2)).isNone && a.parts.length + 1 == a.partCount
    | none => field p 10 2 == 1

/-- A write to the micro-program store that slot `k` of the same sweep follows, which completes a plan naming the entry:
the acceptance is handled first, and the write next behind it, in slot order among such writes (06 R130). None where
slot `k` is no such slot. -/
def behindPlan (s : State) (t : Taken) (k : Nat) : Option State :=
  let rest := s.hub.taken.drop 1
  let before := rest.takeWhile fun u => u.slot != k
  match rest.drop before.length with
  | [] => none
  | u :: later =>
    let moved := later.takeWhile fun w => storeWrite w.bytes && w.slot < t.slot
    if storeWrite t.bytes && s.completesPlan u.bytes then
      some { s with hub := { s.hub with taken := before ++ u :: moved ++ t :: later.drop moved.length } }
    else none

/-- The checks of 17 R372 on the slot processed next. -/
def checkSlot (s : State) (t : Taken) : State :=
  let b := t.bytes
  let sess := slotSession b
  let whole := slotCovered b
  let pass (s : State) : State := { s with hub := { s.hub with taken := { t with checked := true } :: s.hub.taken.drop 1 } }
  let bad := firstBad [(slotInvalid b, .slotInvalid), (crc32c (slotPayload b) != field b 36 4, .slotCrc),
    (slotReserved b, .reservedSet)]
  if bad != .ok then s.refuseSlot t bad false
  else match s.checkSession sess (slotCounter b) (slice b 48 16) whole whole with
    | .refuse why => s.refuseSlot t why false
    | .again => s.answerAgain t
    | .pass =>
      let s1 := if sess == 0 then s else s.recordCounter sess (slotCounter b) whole
      if !s1.maySubmit b then s1.refuseSlot t .roleDenied
      else if slotKind b == 3 && cmdLength b then s1.refuseSlot t .slotInvalid
      else if slotKind b == 4 && dictLength b then s1.answerDict s1 t .typeMismatch []
      else if slotKind b == 3 && cmdUnknown b then s1.refuseSlot t .reservedSet
      else if slotKind b == 4 && opUnknown b then s1.answerDict s1 t .reservedSet []
      else pass s1

/-- Slots taken are processed one after another in ascending order (17 R371): those that the checks end are ended here, up
to the first one whose own kind's work is next. -/
def advance : Nat → State → State
  | 0, s => s
  | k + 1, s => match s.hub.taken with
    | [] => s
    | t :: _ => if t.checked then s else advance k (s.checkSlot t)

/-- The slot processed now, when it is slot `k`, passed its checks and is of a kind. -/
def current (s : State) (k kind : Nat) : Option Taken :=
  match s.hub.taken with
  | t :: _ => if t.checked && t.slot == k && slotKind t.bytes == kind then some t else none
  | [] => none

/-- What follows a slot's processing: the next slots. -/
def thenNext (s : State) : State := advance 64 s

/-- A vat whose turning failed after its front started starts no step with a body; at each sweep positions 1 and 2 of 08
R162 are applied, to the sequences of a step that waits at the barrier too (10 R223). -/
def blockedSweep (s : State) (n : Nat) : State :=
  let c := s.clr n
  if c.turn.blocked && !(c.inStep && c.turn.oldStep) && s.clearState n == 3 && c.plan.isSome then
    let s1 := s.setVat n { s.vat n with seqs := (s.vat n).seqs.map fun x => { x with held := true } }
    (((s1.endLate n).endReleased n).dropReleased n).freePages n
  else s

/-- The host's stores into slots, as they stand when the sweep reads them. -/
def hostStores (s : State) (l : List SlotWrite) : State :=
  if s.hostUp then l.foldl (fun s w => if w.slot < 64 then s.setSlot w.slot (slice w.bytes 0 65536) else s) s else s

/-- A sweep (17 R371): every FULL slot is taken, in ascending order. While slots of the last sweep are still processed it is
delayed, which is counted. -/
def doSweep (s : State) (l : List SlotWrite) : State :=
  let s1 := s.hostStores l
  if !s1.hub.taken.isEmpty then
    if s1.hub.sweepBusy then s1 else { s1 with hub := { s1.hub with sweepBusy := true } }.bump 0xA000 3 1
  else
    let full := (List.range 64).filter fun k => s1.sstate k == 1
    let taken := full.map fun k => { slot := k, bytes := s1.slotBytes k, readAt := s1.time : Taken }
    let s2 := full.foldl (fun s k => s.setSstate k 2) s1
    let s3 := { s2 with hub := { s2.hub with taken := taken, sweepBusy := false } }
    let s4 := (s3.bump 0xA000 2 1).bump 0xA000 4 full.length
    (((List.range 64).foldl (fun s n => s.blockedSweep n) s4).sweepFindings).thenNext

/-! ### What the kinds do -/

/-- A slot's own work ends with a status and a state. -/
def finishSlot (s : State) (t : Taken) (why name : Name) (detail : List Byte) : State :=
  (if why == .ok then s.endSlot t name detail else s.refuseSlot t why).thenNext

/-- A request changed by a CANCEL or PAUSE wherever it stands in the job, waiting or admitted. -/
def mapReq (s : State) (n tag : Nat) (f : Req → Req) : State :=
  (s.present.filter fun m => s.sameJob n m).foldl (fun s m =>
    let v := s.vat m
    s.setVat m { v with
      waiting := v.waiting.map (fun q => if q.tag == tag then f q else q),
      seqs := v.seqs.map fun x => if !isScoring x && x.req.tag == tag then { x with req := f x.req } else x }) s

/-- CANCEL or PAUSE of an open request (17 R374). -/
def cmdRequest (s : State) (t : Taken) (f : Req → Req) : State :=
  let n := slotClearing t.bytes
  let tag := field (slotPayload t.bytes) 8 8
  let g (q : Req) : Req := { f q with cmds := q.cmds ++ [(t.slot, slotTag t.bytes)] }
  if (s.openTags n).contains tag then (s.mapReq n tag g).finishSlot t .ok .slotDone []
  else s.finishSlot t .reqUnknown .slotDone []

/-- REWARD (17 R374, 08 R176): refused in a job that has a taster, and for a record that is not PENDING. -/
def cmdReward (s : State) (t : Taken) : State :=
  let n := slotClearing t.bytes
  let p := s.press n
  let tag := field (slotPayload t.bytes) 8 8
  let pending (c : Curd) : Bool := c.closed && headReward (s.headOf c) == 0
  let mine := p.curds.filter fun c => c.2.reqTag == tag
  match (mine.filter fun c => pending c.2) ++ mine |>.head? with
  | none => s.finishSlot t .reqUnknown .slotDone []
  | some (id, c) =>
    if s.tasted n || !pending c then s.finishSlot t .rewardRefused .slotDone []
    else
      let reward := field (slotPayload t.bytes) 4 4
      (s.mapHead n n id (withReward reward)).finishSlot t .ok .slotDone []

/-- PLAN_WITHDRAW (17 R374): every clearing of the plan is to be withdrawn at its next step boundary. -/
def cmdWithdraw (s : State) (t : Taken) : State :=
  let n := slotClearing t.bytes
  if (s.planOf n).isNone then s.finishSlot t .planClearing .slotDone []
  else
    let l := s.present.filter fun m => s.sameJob n m && (s.planOf m).isSome && (s.clr m).planId == (s.clr n).planId
    (l.foldl (fun s m => s.setClr m { s.clr m with withdraw := true }) s).finishSlot t .ok .slotDone []

/-- A DICT access (17 R375). A value that no slot can hold is not returned. -/
def dictRead (s : State) (t : Taken) : State :=
  let p := slotPayload t.bytes
  match s.readEntry (slotSession t.bytes) (field p 0 2) (field p 2 1) with
  | .error why => (s.answerDict s t why []).thenNext
  | .ok v => (if 65456 < v.length then s.answerDict s t .transferKind [] else s.answerDict s t .ok v).thenNext

/-- A DICT write. -/
def dictWrite (s : State) (t : Taken) : State :=
  let p := slotPayload t.bytes
  let r := s.applyWrite (slotSession t.bytes) (field p 0 2) (field p 2 1) (slice p 16 (field p 4 4)) .any
  (r.2.answerDict s t r.1 []).thenNext

/-! ### The event area and the rings (17 R376 to R378, 08 R172, R173) -/

/-- EV_ACKED written by the host: a value beyond EV_PRODUCED is taken as EV_PRODUCED, and the detail blocks of the events
passed are freed. -/
def ackEvents (s : State) (v : Nat) : State :=
  let h := s.hub
  let past := (v % pow2 32 + pow2 32 - h.acked) % pow2 32
  let open_ := (h.produced + pow2 32 - h.acked) % pow2 32
  let a := if open_ < past then h.produced else v % pow2 32
  let passed (d : DetailBlock) : Bool :=
    let k := (a + pow2 32 - d.seq) % pow2 32
    1 ≤ k && k < pow2 31
  { s with hub := { h with acked := a, details := h.details.filter fun d => !passed d } }.updateRb

/-- CONSUMED of the ring at a BAR2 offset written by the host: beyond PRODUCED it makes the request invalid; equal to
PRODUCED after ENDED it closes the ring. -/
def consumeRing (s : State) (off v : Nat) : State :=
  match s.hub.rings.find? fun r => r.2.offset == off with
  | none => s
  | some (id, r) =>
    if r.ended && v == r.produced then { s with hub := { s.hub with rings := del s.hub.rings id } }
    else
      let s1 := s.setRing id { r with consumed := v }
      if r.produced < v && !r.ended then
        let n := r.clearing
        let mark (q : Req) : Req := if q.ring == some id then { q with invalid := true } else q
        let w := s1.vat n
        s1.setVat n { w with waiting := w.waiting.map mark, seqs := w.seqs.map fun x => { x with req := mark x.req } }
      else s1

/-! ### BAR0 (17 R366 to R368) -/

/-- The index pages of the slots of BAR0. -/
def barPages : List Nat :=
  [0x10, 0x11, 0x12, 0x20, 0x21, 0x22, 0x23, 0x24, 0x30, 0x31, 0x32, 0x40, 0x41, 0x4C, 0x50, 0x51, 0x52, 0x60, 0x61, 0x70,
   0x71, 0x80, 0x90, 0xA0]

/-- The position whose place holds a BAR0 offset. -/
def barPlace (off : Nat) : Option (Nat × Nat) :=
  (barPages[off / 0x80000]?).map fun page => (page * 256 + off % 0x80000 / 0x800, off % 0x800 / 8)

/-- What a read of a BAR0 place returns, in the host role (17 R367): the value zero-extended to 8 bytes, a STR or BLOB's
current length as a U32, bytes of the aperture, and zero for a place that holds no entry or that the host may not read
(18 R385). -/
def barRead (s : State) (off : Nat) : List Byte :=
  if 0xC00000 ≤ off && off < 0xC10000 then slice s.hub.aperture (off - 0xC00000) 8
  else match barPlace off with
    | none => zeros 8
    | some (idx, sub) =>
      let scalar := match entryAt idx sub with
        | some e => e.ty.width.isSome
        | none => true
      match s.readEntry 0 idx sub with
      | .error _ => zeros 8
      | .ok v => slice (if scalar then v else leBytes 4 v.length) 0 8

/-! ### BAR2 as the host reads it (17 R369) -/

/-- The event area header (17 R376). -/
def eventHead (h : Hub) : List Byte := leBytes 4 h.produced ++ leBytes 4 h.acked ++ leBytes 4 h.lost

/-- The header of an output ring (08 R172). -/
def ringHead (r : Ring) : List Byte :=
  leBytes 8 r.reqTag ++ leBytes 4 r.produced ++ leBytes 4 r.consumed ++ leBytes 1 (if r.ended then 1 else 0)
    ++ leBytes 1 r.status ++ leBytes 1 r.stopIndex ++ zeros 45

/-- A byte of an output ring: its header, then its entries of 16 bytes (08 R172). -/
def ringByte (r : Ring) (i : Nat) : Byte :=
  if i < 64 then (ringHead r).getD i 0 else ((look r.data (i / 16 - 4)).getD []).getD (i % 16) 0

/-- A byte of BAR2: the slots, the event area header, the event ring, and the ring pool with output rings and long event
details (17 R369). A byte of the pool that lies in neither reads zero (log entry 3). -/
def barByte (h : Hub) (off : Nat) : Byte :=
  if off < 0x400000 then ((look h.slots (off / 0x10000)).getD []).getD (off % 0x10000) 0
  else if off < 0x410000 then (eventHead h).getD (off - 0x400000) 0
  else if off < 0x510000 then
    match look h.evRing ((off - 0x410000) / 64) with
    | some e => e.bytes.getD (off % 64) 0
    | none => 0
  else
    match h.rings.find? fun r => r.2.offset ≤ off && off < r.2.offset + 64 + 16 * r.2.entries with
    | some r => ringByte r.2 (off - r.2.offset)
    | none =>
      match h.details.find? fun b => b.offset ≤ off && off < b.offset + b.bytes.length with
      | some b => b.bytes.getD (off - b.offset) 0
      | none => 0

/-- What the host reads of BAR2; nothing answers while the endpoint takes no request (17 R365). -/
def bar2Read (s : State) (off len : Nat) : Option (List Byte) :=
  if s.hostUp then some ((List.range len).map fun i => barByte s.hub (off + i)) else none

/-- A refused BAR0 write is recorded (17 R367). -/
def barRefused (s : State) (why : Name) : State := (s.wr 0xA011 1 why.code).bump 0xA011 2 1

/-- A BAR0 write in the host role: bytes of the aperture, or one entry's value, which must start at its place. -/
def barWrite (s : State) (off : Nat) (v : List Byte) : State :=
  if 0xC00000 ≤ off && off < 0xC10000 then
    { s with hub := { s.hub with aperture := (overwrite s.hub.aperture (off - 0xC00000) v).take 65536 } }
  else match barPlace off with
    | none => s.barRefused .entryAbsent
    | some (idx, sub) =>
      let r := s.applyWrite 0 idx sub (if off % 8 == 0 then v else []) .scalar
      if r.1 == .ok then r.2 else r.2.barRefused r.1

/-! ### Field-network frames (17 R362 to R364) -/

/-- A frame the module answers: the field port is up, which a FIELD_ID of 0 keeps off (21 R453); its FIELD_MAC,
EtherType 88B5h, a whole payload, and the frame type expected. -/
def takesFrame (s : State) (fr : FieldFrame) (ftype : Nat) : Bool :=
  let p := fr.payload
  s.reachable && s.rd 0x1001 2 != 0 && fr.dst == s.rd 0x1001 1 && fr.etherType == 0x88B5 && field p 1 1 == ftype
    && 32 + field p 8 2 + (if field p 12 4 == 0 then 0 else 16) ≤ p.length

/-- A response: its header, data and TAG (17 R362, 19 R407). `key` holds the session whose key signs it. -/
def frameReply (key : State) (p : List Byte) (ftype : Nat) (why : Name) (total : Nat) (v : List Byte) : List Byte :=
  let b := leBytes 1 1 ++ leBytes 1 ftype ++ slice p 2 5 ++ zeros 1 ++ leBytes 2 v.length ++ slice p 10 14
    ++ leBytes 4 why.code ++ leBytes 4 total ++ v
  let sess := field p 12 4
  b ++ (if sess == 0 then []
    else match key.session sess with
      | some x => tagOf x.sk 1 b
      | none => zeros 16)

/-- A response sent, and kept for a request that comes again. -/
def sendReply (s key : State) (fr : FieldFrame) (ftype : Nat) (why : Name) (total : Nat) (v : List Byte) : State :=
  let b := frameReply key fr.payload ftype why total v
  (s.recordReply (field fr.payload 12 4) b none).emit (.frame fr.src b)

/-- Header fields a request must leave zero, or VER: 17 R362, 00 R9. -/
def frameReserved (p : List Byte) : Bool :=
  let ftype := field p 1 1
  let first := 4 ≤ ftype && ftype ≤ 5 && field p 10 2 == 0
  field p 0 1 != 1 || field p 7 1 != 0 || field p 24 4 != 0 || (field p 12 4 == 0 && field p 16 8 != 0)
    || (!first && field p 28 4 != 0) || (!(ftype == 4 || ftype == 5) && field p 10 2 != 0)

/-- A reply to a request of an open transfer: its 100 ms begin anew (17 R364). -/
def renewTransfer (s : State) (p : List Byte) : State :=
  let k := keyOf (field p 4 2) (field p 6 1)
  let same (t : Transfer) : Bool := t.key == k && t.sess == field p 12 4 && (field p 1 1 == 4 || field p 1 1 == 5)
  { s with hub := { s.hub with
    transfers := s.hub.transfers.map fun t => if same t then { t with lastReply := s.time } else t } }

/-- A frame under the session checks of 17 R358; `k` is what an admitted request does. -/
def onFrame (s : State) (fr : FieldFrame) (ftype : Nat) (k : State → State) : State :=
  let p := fr.payload
  let len := 32 + field p 8 2
  let sess := field p 12 4
  let whole := slice p 0 len
  if !s.takesFrame fr ftype then s
  else if frameReserved p then s.emit (.frame fr.src (frameReply s p 3 .reservedSet 0 []))
  else match s.checkSession sess (field p 16 8) (slice p len 16) whole whole with
    | .refuse why => s.emit (.frame fr.src (frameReply s p 3 why 0 []))
    | .again => (match s.session sess with
      | some x => (s.renewTransfer p).emit (.frame fr.src x.lastReply)
      | none => s)
    | .pass => k (if sess == 0 then s else s.recordCounter sess (field p 16 8) whole)

/-- The open transfer of a frame: INDEX, SUBINDEX and SESSION. -/
def transferOf (s : State) (p : List Byte) : Option Transfer :=
  s.hub.transfers.find? fun t => t.key == keyOf (field p 4 2) (field p 6 1) && t.sess == field p 12 4

/-- A transfer no longer open. -/
def closeTransfer (s : State) (key sess : Nat) : State :=
  { s with hub := { s.hub with transfers := s.hub.transfers.filter fun t => !(t.key == key && t.sess == sess) } }

/-- A transfer's next state kept. -/
def keepTransfer (s : State) (t : Transfer) : State :=
  let s1 := s.closeTransfer t.key t.sess
  { s1 with hub := { s1.hub with transfers := s1.hub.transfers ++ [t] } }

/-- READ (17 R363). -/
def frameRead (s : State) (fr : FieldFrame) : State :=
  let p := fr.payload
  let idx := field p 4 2
  let sub := field p 6 1
  let scalar := match entryAt idx sub with
    | some e => e.ty.width.isSome
    | none => true
  match s.readEntry (field p 12 4) idx sub with
  | .error why => s.sendReply s fr 3 why 0 []
  | .ok v => if scalar then s.sendReply s fr 3 .ok 0 v else s.sendReply s fr 3 .transferKind 0 []

/-- WRITE (17 R363). -/
def frameWrite (s : State) (fr : FieldFrame) : State :=
  let p := fr.payload
  let r := s.applyWrite (field p 12 4) (field p 4 2) (field p 6 1) (slice p 32 (field p 8 2)) .scalar
  r.2.sendReply s fr 3 r.1 0 []

/-- One segment of an open read sent; the transfer closes behind its last one. -/
def sendSegment (s : State) (fr : FieldFrame) (t : Transfer) : State :=
  let k := t.expected
  let v := (t.data.drop (1024 * k)).take 1024
  let s1 := if t.data.length ≤ 1024 * (k + 1) then s.closeTransfer t.key t.sess
    else s.keepTransfer { t with expected := k + 1, lastReply := s.time }
  s1.sendReply s fr 6 .ok (if k == 0 then t.data.length else 0) v

/-- SEG_READ (17 R363, R364): segment 0 opens the transfer and fixes the value. -/
def frameSegRead (s : State) (fr : FieldFrame) : State :=
  let p := fr.payload
  let idx := field p 4 2
  let sub := field p 6 1
  let seg := field p 10 2
  let scalar := match entryAt idx sub with
    | some e => e.ty.width.isSome
    | none => false
  match s.transferOf p with
  | some t => if t.writing || t.expected != seg then (s.renewTransfer p).sendReply s fr 3 .transferOrder 0 []
    else s.sendSegment fr t
  | none =>
    match s.readEntry (field p 12 4) idx sub with
    | .error why => s.sendReply s fr 3 why 0 []
    | .ok v =>
      if scalar then s.sendReply s fr 3 .transferKind 0 []
      else if seg != 0 then s.sendReply s fr 3 .transferOrder 0 []
      else if 8 ≤ s.hub.transfers.length then s.sendReply s fr 3 .transferBusy 0 []
      else s.sendSegment fr {
        key := keyOf idx sub, sess := field p 12 4, writing := false, expected := 0, total := v.length, data := v,
        lastReply := s.time }

/-- One segment of an open write taken; the last one applies the whole value as one write (17 R363). -/
def takeSegment (s : State) (fr : FieldFrame) (t : Transfer) : State :=
  let p := fr.payload
  let v := slice p 32 (field p 8 2)
  let due := min 1024 (t.total - t.data.length)
  let t1 := { t with data := t.data ++ v, expected := t.expected + 1, lastReply := s.time }
  let total := if t.expected == 0 then t.total else 0
  if v.length != due then (s.renewTransfer p).sendReply s fr 3 .typeMismatch 0 []
  else if t1.data.length < t.total then (s.keepTransfer t1).sendReply s fr 3 .ok total []
  else
    let r := (s.closeTransfer t.key t.sess).applyWrite t.sess (t.key / 256) (t.key % 256) t1.data .long
    r.2.sendReply s fr 3 r.1 total []

/-- SEG_WRITE (17 R363, R364). -/
def frameSegWrite (s : State) (fr : FieldFrame) : State :=
  let p := fr.payload
  let seg := field p 10 2
  match s.transferOf p with
  | some t => if !t.writing || t.expected != seg then (s.renewTransfer p).sendReply s fr 3 .transferOrder 0 []
    else s.takeSegment fr t
  | none =>
    if seg != 0 then s.sendReply s fr 3 .transferOrder 0 []
    else if 8 ≤ s.hub.transfers.length then s.sendReply s fr 3 .transferBusy 0 []
    else s.takeSegment fr {
      key := keyOf (field p 4 2) (field p 6 1), sess := field p 12 4, writing := true, expected := 0,
      total := field p 28 4, data := [], lastReply := s.time }

/-- ABORT (17 R363): it ends the open transfer of INDEX, SUBINDEX and SESSION. -/
def frameAbort (s : State) (fr : FieldFrame) : State :=
  let p := fr.payload
  (s.closeTransfer (keyOf (field p 4 2) (field p 6 1)) (field p 12 4)).sendReply s fr 3 .ok 0 []

end State

/-! ### The commands -/

/-- SWEEP (17 R371): the supervisor reads SSTATE of every slot and takes the FULL ones. -/
def execSweep (writes : List SlotWrite) (s : State) : Ans := whenOn s (onlyIf s.serving s (s.doSweep writes))

/-- PLAN_PART: the slot processed now carries a part of a plan (17 R373). -/
def execPlanPart (slot : Nat) (image : PlanImage) (s : State) : Ans :=
  let k := match s.current slot 1 with
    | none => s
    | some t =>
      let r := s.planPart (slotClearing t.bytes) (slotPayload t.bytes) image
      r.2.2.finishSlot t r.1 (if r.2.1 then .planAccepted else .slotDone) (slice (slotPayload t.bytes) 0 8)
  inRange (wfSlot slot) s k

/-- VAT_REQUEST: the slot processed now carries a request (08 R168); one refused for its deadline is counted (12 R279). -/
def execVatRequest (slot : Nat) (s : State) : Ans :=
  let k := match s.current slot 2 with
    | none => s
    | some t => match s.acceptRequest (slotClearing t.bytes) slot (slotTag t.bytes) t.readAt (slotPayload t.bytes) with
      | .ok r => r.1.finishSlot t .ok .reqAccepted (leBytes 8 r.2)
      | .error why =>
        let s1 := if why == .deadlineUnreachable then s.bumpLive 0x6026 (slotClearing t.bytes) 1 else s
        s1.finishSlot t why .reqAccepted []
  inRange (wfSlot slot) s k

/-- The slot processed now, when it is a COMMAND with a CMD. -/
def State.currentCmd (s : State) (slot cmd : Nat) : Option Taken :=
  match s.current slot 3 with
  | some t => if field (slotPayload t.bytes) 0 1 == cmd then some t else none
  | none => none

/-- CANCEL (17 R374). -/
def execCancel (slot : Nat) (s : State) : Ans :=
  let k := match s.currentCmd slot 1 with
    | some t => s.cmdRequest t fun q => { q with cancel := true }
    | none => s
  inRange (wfSlot slot) s k

/-- PAUSE (17 R374, 08 R178). -/
def execPause (slot : Nat) (s : State) : Ans :=
  let k := match s.currentCmd slot 2 with
    | some t => s.cmdRequest t fun q => { q with pauseAsked := true }
    | none => s
  inRange (wfSlot slot) s k

/-- REWARD (17 R374). -/
def execReward (slot : Nat) (s : State) : Ans :=
  let k := match s.currentCmd slot 3 with
    | some t => s.cmdReward t
    | none => s
  inRange (wfSlot slot) s k

/-- PLAN_WITHDRAW (17 R374). -/
def execPlanWithdraw (slot : Nat) (s : State) : Ans :=
  let k := match s.currentCmd slot 4 with
    | some t => s.cmdWithdraw t
    | none => s
  inRange (wfSlot slot) s k

/-- The slot processed now, when it is a DICT access with an OP. -/
def State.currentDict (s : State) (slot op : Nat) : Option Taken :=
  match s.current slot 4 with
  | some t => if field (slotPayload t.bytes) 3 1 == op then some t else none
  | none => none

/-- DICT_SLOT_READ (17 R375). -/
def execDictSlotRead (slot : Nat) (s : State) : Ans :=
  let k := match s.currentDict slot 1 with
    | some t => s.dictRead t
    | none => s
  inRange (wfSlot slot) s k

/-- DICT_SLOT_WRITE (17 R375). `plan` is a later slot of the sweep whose part completes a plan that names the
micro-program entry written: what the image names comes with the command (log entry 5), and its acceptance is handled
first (06 R130). -/
def execDictSlotWrite (slot : Nat) (s : State) (plan : Option Nat := none) : Ans :=
  let k := match s.currentDict slot 2 with
    | some t => match plan.bind (s.behindPlan t) with
      | some s1 => s1.thenNext
      | none => s.dictWrite t
    | none => s
  inRange (wfSlot slot) s k

/-- READ frame (17 R363). -/
def execRead (fr : FieldFrame) (s : State) : Ans := whenOn s (s.onFrame fr 1 fun x => x.frameRead fr)

/-- WRITE frame (17 R363). -/
def execWrite (fr : FieldFrame) (s : State) : Ans := whenOn s (s.onFrame fr 2 fun x => x.frameWrite fr)

/-- SEG_READ frame (17 R363). -/
def execSegRead (fr : FieldFrame) (s : State) : Ans := whenOn s (s.onFrame fr 4 fun x => x.frameSegRead fr)

/-- SEG_WRITE frame (17 R363). -/
def execSegWrite (fr : FieldFrame) (s : State) : Ans := whenOn s (s.onFrame fr 5 fun x => x.frameSegWrite fr)

/-- ABORT frame (17 R363). -/
def execAbort (fr : FieldFrame) (s : State) : Ans := whenOn s (s.onFrame fr 7 fun x => x.frameAbort fr)

/-- TRANSFER_TIMEOUT: 100 ms have passed since the transfer's last reply (17 R364). -/
def execTransferTimeout (idx sub sess : Nat) (s : State) : Ans :=
  let due := s.hub.transfers.any fun t => t.key == keyOf idx sub && t.sess == sess && 100000000 ≤ s.time - t.lastReply
  whenOn s (onlyIf due s (s.closeTransfer (keyOf idx sub) sess))

/-- BAR0_WRITE (17 R367); while the link is down nothing the host issues reaches the module (17 R365). -/
def execBar0Write (off : Nat) (v : List Byte) (s : State) : Ans := whenOn s (onlyIf s.hostUp s (s.barWrite off v))

/-- EV_ACKED_WRITE (17 R377). -/
def execEvAckedWrite (v : Nat) (s : State) : Ans := whenOn s (onlyIf s.hostUp s (s.ackEvents v))

/-- RING_CONSUMED_WRITE (08 R172, R173): `ring` is the ring's BAR2 offset. -/
def execRingConsumedWrite (ring v : Nat) (s : State) : Ans := whenOn s (onlyIf s.hostUp s (s.consumeRing ring v))

end Sys2Proof.Machine
end

