-- ==== Sys2Proof/Machine/Operands.lean ====
section
/-! DEFINITION. Operands of tiles: the descriptor's fields and flags, rows and columns of every format in the
scratchpad, and conversion of rows into a format (03 R46, R57; 04 R70, R79 to R82, R87). -/

namespace Sys2Proof.Machine

/-! ### Descriptor fields (03 R46) -/

/-- A tile descriptor read from its 64 bytes. -/
def decodeTile (b : List Byte) : TileDesc := {
  kind := field b 0 1, role := field b 1 1, program := field b 2 1, clearing := field b 3 1, flags := field b 4 2,
  wcet := field b 6 2, fmtA := field b 8 1, fmtB := field b 9 1, fmtOut := field b 10 1, counters := field b 11 1,
  waitValue := field b 12 2, k := field b 14 2, aAddr := field b 16 4, bAddr := field b 20 4, outAddr := field b 24 4,
  auxAddr := field b 28 4, strideA := field b 32 4, strideB := field b 36 4, strideOut := field b 40 4,
  rsv := field b 44 4, tileId := field b 48 8, args := field b 56 8 }

/-- ROW_MASK. -/
def hasRowMask (d : TileDesc) : Bool := bitOf d.flags 5
/-- BLOCK_MASK. -/
def hasBlockMask (d : TileDesc) : Bool := bitOf d.flags 4
/-- CONTINUE. -/
def continues (d : TileDesc) : Bool := bitOf d.flags 3
/-- NO_WRITE. -/
def noWrite (d : TileDesc) : Bool := bitOf d.flags 2
/-- CHAIN. -/
def chained (d : TileDesc) : Bool := bitOf d.flags 1
/-- SIG_CTR. -/
def sigCtr (d : TileDesc) : Nat := d.counters / 16
/-- Tensor class of a tile (16 R342). -/
def tensorClass (d : TileDesc) : Nat := bitsOf d.tileId 63 60
/-- A move tile (11 R234); every other kind is a compute tile (03 R52). -/
def isMove (d : TileDesc) : Bool := 0xA0 ≤ d.kind

/-! ### Fields of ARGS by kind -/

/-- Row kinds (06 R109): STAT_ROW. -/
def statRow (d : TileDesc) : Nat := bitsOf d.args 63 51
/-- WORK_ROW. -/
def workRow (d : TileDesc) : Nat := bitsOf d.args 50 38
/-- ROWS. -/
def rowCount (d : TileDesc) : Nat := bitsOf d.args 37 31
/-- PASS. -/
def rowPass (d : TileDesc) : Nat := bitsOf d.args 30 28
/-- FIRST. -/
def rowFirst (d : TileDesc) : Bool := bitOf d.args 27
/-- LAST. -/
def rowLast (d : TileDesc) : Bool := bitOf d.args 26
/-- ROW_LEN. -/
def rowLen (d : TileDesc) : Nat := bitsOf d.args 23 0
/-- STREAM of the kinds whose ARGS hold it (04 R83, R87; 06 R120). -/
def argStream (d : TileDesc) : Nat := bitsOf d.args 63 52
/-- INDEX_BASE (04 R87, 06 R120). -/
def indexBase (d : TileDesc) : Nat := bitsOf d.args 51 0
/-- BLOCKS of an update tile (09 R192). -/
def blockCount (d : TileDesc) : Nat := bitsOf d.args 63 57

/-! ### Rows of a format (03 R57, 04 R70) -/

/-- Bytes of `k` elements laid out as a row. -/
def rowBytes (code k : Nat) : Nat :=
  match fmtOf code with
  | none => 0
  | some f => k * f.width / 8 + (if isMx code then k / 32 else 0)

/-- The values of a row of `k` elements: exactly, as a product takes them, or formed in FP32 (04 R76, R87). -/
def rowVals (exact : Bool) (code k : Nat) (b : List Byte) : List FV :=
  match fmtOf code with
  | none => []
  | some f =>
    let v := leNat (b.take (k * f.width / 8))
    (List.range k).map fun i =>
      let e := (v >>> (i * f.width)) % pow2 f.width
      if isMx code then
        let sc := field b (k * f.width / 8 + i / 32) 1
        if exact then mxExact f sc e else mxValue f sc e
      else f.decode e

/-- A row of element codes and scale codes packed. -/
def packRow (code : Nat) (codes scales : List Nat) : List Byte :=
  match fmtOf code with
  | none => []
  | some f =>
    leBytes (codes.length * f.width / 8) (codes.foldr (fun c a => a * pow2 f.width + c % pow2 f.width) 0)
      ++ (if isMx code then scales.map (BitVec.ofNat 8) else [])

/-- A row of `n` zeros written without a conversion: +0, an MX scale 00h (03 R65). -/
def zeroRow (code n : Nat) : List Byte := zeros (rowBytes code n)

/-- Groups of 32 of a list. -/
def groups32 {α : Type} : Nat → List α → List (List α)
  | 0, _ => []
  | n + 1, l => l.take 32 :: groups32 n (l.drop 32)

/-- A row of FP32 values converted into a format (04 R79 to R82): `draws` gives each element's draw, none under round to
nearest even. A conversion into FP32 is exact. -/
def convertRow (code : Nat) (draws : Nat → Option Nat) (xs : List FV) : List Byte × List ConvClass :=
  match fmtOf code with
  | none => ([], [])
  | some f =>
    if code == 0 then (packRow 0 (xs.map fun x => fp32.encode x) [], [])
    else if isMx code then
      let gs := groups32 (xs.length / 32) xs
      let rs := (gs.zip (List.range gs.length)).map fun p => convertMx code f (fun i => draws (32 * p.2 + i)) p.1
      (packRow code (rs.flatMap fun r => r.2.map (·.1)) (rs.map (·.1)), rs.flatMap fun r => r.2.map (·.2))
    else
      let rs := (xs.zip (List.range xs.length)).map fun p => convertTo f false (srBits code) (draws p.2) p.1
      (packRow code (rs.map (·.1)) [], rs.map (·.2))

namespace State

/-- Bytes of a logical cell's scratchpad. -/
def scr (s : State) (g c off n : Nat) : List Byte := s.peek (s.scrAddr g c off) n
/-- Bytes written to a logical cell's scratchpad. -/
def setScr (s : State) (g c off : Nat) (b : List Byte) : State := s.putCell g c off b
/-- A U32 of the scratchpad. -/
def scr32 (s : State) (g c off : Nat) : Nat := field (s.scr g c off 4) 0 4
/-- The values of a row of the scratchpad. -/
def scrVals (s : State) (exact : Bool) (g c off code k : Nat) : List FV :=
  rowVals exact code k (s.scr g c off (rowBytes code k))
/-- The FP32 bits of a row of the scratchpad in FP32, BF16 or binary16. -/
def scrF32 (s : State) (g c off code k : Nat) : List Nat := (s.scrVals false g c off code k).map fp32.encode

/-- Stochastic rounding is in force for a clearing (04 R73). -/
def stochastic (s : State) (n : Nat) : Bool := s.frc 0x3021 n == 1
/-- Half-width accumulation is in force (04 R73). -/
def halfWidth (s : State) (n : Nat) : Bool := s.frc 0x3020 n == 1
/-- Partial-training masks are on (09 R188). -/
def masksOn (s : State) (n : Nat) : Bool := s.frc 0x3023 n == 1

/-- The draws of a row: element `i` at logical index `base + i` (04 R82). -/
def drawsFor (s : State) (n g code stream base : Nat) (i : Nat) : Option Nat :=
  if s.stochastic n && code != 0 then some (s.draw n g stream (base + i)) else none

end State

end Sys2Proof.Machine
end

