-- ==== Sys2Proof/Machine/Flags.lean ====
section
/-! DEFINITION. What conversions and accumulations count: the conversion counters of a clearing and its tensor classes
(04 R88, R89; 16 R342, R343). They run on in the live values and are published at the clearing's step boundary. -/

namespace Sys2Proof.Machine

/-- What a tile counts: one entry per value converted, with target format and class, and per result element that
saturated or ended non-finite. -/
structure Tally where
  conv : List (Nat × ConvClass) := []
  sat : Nat := 0
  nonfinite : Nat := 0
deriving DecidableEq, Repr

/-- Two tallies together. -/
def Tally.plus (a b : Tally) : Tally :=
  { conv := a.conv ++ b.conv, sat := a.sat + b.sat, nonfinite := a.nonfinite + b.nonfinite }

/-- A row's conversions into a format. -/
def tallyRow (code : Nat) (l : List ConvClass) : Tally := { conv := l.map fun c => (code, c) }

/-- The sub-index group a class counts in, beside CONVERTED: format counters, then class counters (04 R88, 16 R343). -/
def classGroups : ConvClass → List (Nat × Nat)
  | .plain => []
  | .overflow => [(0x10, 0x20)]
  | .vanished => [(0x20, 0x30)]
  | .nonfinite => [(0x30, 0x40)]

/-- One value converted, of a tensor class (04 R89, 16 R342). -/
def State.countValue (s : State) (n cls : Nat) (v : Nat × ConvClass) : State :=
  let d := fmtDigit v.1
  let s1 := (s.bumpLive (0x7010 + n) d 1).bumpLive (0x7050 + n) (0x10 + cls) 1
  (classGroups v.2).foldl (fun s p => (s.bumpLive (0x7010 + n) (p.1 + d) 1).bumpLive (0x7050 + n) (p.2 + cls) 1) s1

/-- A tile's tally counted, once, from the execution that completed. -/
def State.countTally (s : State) (n cls : Nat) (t : Tally) : State :=
  let s1 := t.conv.foldl (fun s v => s.countValue n cls v) s
  let s2 := if t.sat == 0 then s1 else s1.bumpLive (0x7010 + n) 0x40 t.sat
  if t.nonfinite == 0 then s2 else s2.bumpLive (0x7010 + n) 0x41 t.nonfinite

end Sys2Proof.Machine
end

