-- ==== Sys2Proof/Machine/Tiles.lean ====
section
/-! DEFINITION. The grove warden's checks of a tile descriptor as it loads it (03 R49), with the field rules, ranges and
worst-case counts of every kind. -/

namespace Sys2Proof.Machine

/-! ### Kinds (03 R48) -/

/-- A kind the manual defines. -/
def knownKind (k : Nat) : Bool :=
  k == 1 || (0x20 ≤ k && k ≤ 0x24) || k == 0x40 || k == 0x41 || k == 0x50 || (0x60 ≤ k && k ≤ 0x62)
    || (0x64 ≤ k && k ≤ 0x67) || (0x80 ≤ k && k ≤ 0x82) || (0xA0 ≤ k && k ≤ 0xA6)

/-- A row kind (06 R108). -/
def isRowKind (k : Nat) : Bool := 0x20 ≤ k && k ≤ 0x24

/-- KIND belongs to ROLE; a move runs in any role but NONE. -/
def roleFits (d : TileDesc) : Bool := d.role != 0 && (isMove d || d.kind / 32 + 1 == d.role)

/-- The passes of a row kind: whether each is sequential (06 R108). -/
def passKinds (k : Nat) : List Bool :=
  match k with
  | 0x20 | 0x22 => [false, true, false]
  | 0x24 => [true, true]
  | _ => [true, false]

/-- The passes a row tile runs, as numbers from 1. -/
def passesRun (d : TileDesc) : List Nat :=
  if rowPass d == 0 then (List.range (passKinds d.kind).length).map (· + 1) else [rowPass d]

/-- A row tile writes its output row: it runs the last pass of a kind that has one there. -/
def writesRow (d : TileDesc) : Bool := d.kind != 0x24 && (passesRun d).contains (passKinds d.kind).length

/-! ### Update programs (09 R195, R196, R201) -/

/-- Opcode of an update instruction. -/
def uOp (w : Nat) : Nat := bitsOf w 31 27
/-- PASS. -/
def uPass (w : Nat) : Nat := bitsOf w 26 25
/-- D. -/
def uD (w : Nat) : Nat := bitsOf w 24 21
/-- A. -/
def uA (w : Nat) : Nat := bitsOf w 20 17
/-- B. -/
def uB (w : Nat) : Nat := bitsOf w 16 13
/-- C. -/
def uC (w : Nat) : Nat := bitsOf w 12 9
/-- SQACC or ACC. -/
def uAcc (w : Nat) : Bool := uOp w == 13 || uOp w == 14
/-- Source registers an opcode reads. -/
def uReads (w : Nat) : List Nat :=
  match uOp w with
  | 4 | 12 => [uA w, uB w, uC w]
  | 1 | 2 | 3 | 5 | 7 | 8 => [uA w, uB w]
  | _ => [uA w]
/-- A field the opcode does not use is set. -/
def uReserved (w : Nat) : Bool :=
  bitsOf w 8 2 != 0 || (!uAcc w && bitsOf w 1 0 != 0) || (uAcc w && uD w != 0)
    || ((uReads w).length < 3 && uC w != 0) || ((uReads w).length < 2 && uB w != 0)
/-- Cost of an instruction in beats per block. -/
def uCost (w : Nat) : Nat := if uOp w == 5 || uOp w == 6 then 64 else 16

/-- The 16 instruction words of a parameter area. -/
def areaWords (area : List Byte) : List Nat := (List.range 16).map fun i => field area (4 * i) 4
/-- The instructions before the first END. -/
def program (area : List Byte) : List Nat := (areaWords area).takeWhile fun w => uOp w != 0
/-- A word END is among the 16 and uses no field. -/
def hasEnd (area : List Byte) : Bool := (areaWords area).find? (fun w => uOp w == 0) == some 0

/-- The rules of 09 R196 along an element program; `two` holds the registers last written under PASS 10b. -/
def elementOk : List Nat → List Nat → Bool
  | [], _ => true
  | w :: rest, two =>
    let acc := uAcc w
    let shape := uOp w ≤ 14 && !uReserved w
      && (if acc then uPass w == 1 else 2 ≤ uPass w && 1 ≤ uD w && uD w ≤ 6)
    let both := uPass w == 3 && (uReads w).any fun r => 13 ≤ r || two.contains r
    let two1 := if acc then two else if uPass w == 2 then uD w :: two else two.filter (· != uD w)
    shape && !both && elementOk rest two1

/-- The rules of 09 R201 on a scalar program. -/
def scalarOk (l : List Nat) : Bool := l.all fun w => uOp w ≤ 12 && !uReserved w && uPass w == 3 && uD w ≤ 3

/-- The summed costs of the instructions that run in a pass: 1 or 2. -/
def passCost (area : List Byte) (pass : Nat) : Nat :=
  (((program area).filter fun w => uPass w &&& pass != 0).map uCost).foldl (· + ·) 0

/-- No reserved field or code of the parameter area is set (09 R189, R193, R196). -/
def areaClear (area : List Byte) : Bool :=
  field area 202 2 == 0 && allZero (slice area 220 36) && ((slice area 128 64).all fun b => b.toNat ≤ 1)
    && field area 192 4 < pow2 28 && field area 196 4 < pow2 24 && field area 200 2 < 4096
    && field area 204 4 < pow2 20 && field area 212 4 < pow2 20

/-- The parameter area of a tile of so many blocks, 0 for UPDATE_SCALARS: reserved fields, strides and stream (09 R192,
R193). -/
def areaOk (area : List Byte) (blocks : Nat) : Bool :=
  areaClear area && field area 208 4 % 64 == 0 && 64 * blocks ≤ field area 208 4 && field area 216 4 % 64 == 0
    && 0x200 ≤ field area 200 2 && field area 200 2 ≤ 0x2FF

/-! ### Move fields (11 R235, R236; 07 R139) -/

/-- TIER of a MOVE. -/
def mvTier (d : TileDesc) : Nat := bitsOf d.args 63 60
/-- DIR. -/
def mvOut (d : TileDesc) : Bool := bitOf d.args 59
/-- MODULE. -/
def mvModule (d : TileDesc) : Nat := bitsOf d.args 57 44
/-- LINE, also of a SIDE_SAVE or SIDE_LOAD. -/
def mvLine (d : TileDesc) : Nat := bitsOf d.args 43 8
/-- TRANSPOSE. -/
def mvTrans (d : TileDesc) : Bool := bitOf d.args 0
/-- SEQ_VALID and SEQ. -/
def mvSeq (d : TileDesc) : Option Nat := if bitOf d.strideB 31 then some (d.strideB % 4096) else none
/-- SEQ of a gather or append. -/
def pgSeq (d : TileDesc) : Nat := bitsOf d.args 63 52
/-- LAYER. -/
def pgLayer (d : TileDesc) : Nat := bitsOf d.args 51 44
/-- KV_HEAD. -/
def pgHead (d : TileDesc) : Nat := bitsOf d.args 43 36
/-- FIRST. -/
def pgFirst (d : TileDesc) : Nat := bitsOf d.args 35 20
/-- COUNT. -/
def pgCount (d : TileDesc) : Nat := bitsOf d.args 19 11
/-- Keys are moved. -/
def pgKeys (d : TileDesc) : Bool := bitsOf d.args 10 9 != 1
/-- Values are moved. -/
def pgVals (d : TileDesc) : Bool := bitsOf d.args 10 9 != 0
/-- UNIT and line offset of a WEIGHT_READ. -/
def wrUnit (d : TileDesc) : Nat := bitsOf d.args 63 54
/-- Line offset within the unit's image. -/
def wrLine (d : TileDesc) : Nat := bitsOf d.args 53 29
/-- Side granule of a SIDE_SAVE or SIDE_LOAD. -/
def sdGranule (d : TileDesc) : Nat := bitsOf d.args 63 60
/-- Source and destination of a TIER_MOVE: clearing, tier, line. -/
def tmSrc (d : TileDesc) : Nat × Nat × Nat := (d.fmtA % 64, bitsOf d.args 63 60, bitsOf d.args 47 44 * pow2 32 + d.aAddr)
/-- Destination. -/
def tmDst (d : TileDesc) : Nat × Nat × Nat := (d.fmtB % 64, bitsOf d.args 59 56, bitsOf d.args 43 40 * pow2 32 + d.bAddr)

/-! ### Check 1 (03 R49): reserved fields and codes -/

/-- Fields a kind's chapter states to be 0. -/
def zeroFields (d : TileDesc) : List Nat :=
  match d.kind with
  | 0x20 | 0x22 | 0x24 | 0x41 => [d.bAddr, d.strideB]
  | 0x40 => [d.bAddr]
  | 0x64 | 0x67 => [d.bAddr, d.k, d.strideA, d.strideB]
  | 0x50 => [d.k, d.aAddr, d.bAddr, d.outAddr, d.auxAddr, d.strideA, d.strideB, d.strideOut, d.fmtA, d.fmtB, d.fmtOut]
  | 0x60 | 0x61 | 0x62 | 0x65 | 0x66 => [d.k, d.strideA, d.strideB]
  | 0x80 | 0x81 | 0x82 => [d.bAddr, d.strideA, d.strideB, d.strideOut]
  | 0xA0 => [d.fmtOut, if mvOut d then d.outAddr else d.aAddr, d.bAddr, d.auxAddr, d.strideA, d.strideOut,
      bitsOf d.strideB 30 12, d.fmtB / 64, if mvTrans d then 0 else d.fmtA]
  | 0xA1 => [d.k, d.fmtA, d.fmtB, d.fmtOut, d.aAddr, d.strideA]
  | 0xA2 => [d.k, d.fmtA, d.fmtB, d.fmtOut, d.outAddr, d.auxAddr, d.strideA, d.strideB, d.strideOut, pgFirst d]
  | 0xA3 => [d.fmtA, d.fmtB, d.fmtOut, d.aAddr, d.bAddr, d.auxAddr, d.strideA, d.strideB, d.strideOut]
  | 0xA4 | 0xA5 => [d.fmtA, d.fmtB, d.fmtOut, d.aAddr, d.bAddr, d.outAddr, d.auxAddr, d.strideA, d.strideB, d.strideOut]
  | 0xA6 => [d.fmtA / 64, d.fmtB / 64, d.fmtOut, d.outAddr, d.auxAddr, d.strideA, d.strideB, d.strideOut]
  | _ => []

/-- The reserved bits of ARGS of a kind. -/
def argsReserved (d : TileDesc) : Nat :=
  match d.kind with
  | 0x20 | 0x21 | 0x22 | 0x23 => 3 * pow2 24
  | 0x24 => 3 * pow2 24 + 0x1FFF * pow2 51
  | 0x50 => pow2 64 - pow2 28
  | 0x60 | 0x61 => pow2 57 - 1
  | 0x62 => pow2 64 - 1
  | 0x64 => pow2 20 - 1
  | 0x65 => pow2 62 - 1
  | 0x66 => pow2 58 - 1
  | 0x67 => pow2 63 - 1
  | 0xA0 => pow2 58 + 0xFE
  | 0xA1 | 0xA2 => 0x1FF
  | 0xA3 => pow2 29 - 1
  | 0xA4 | 0xA5 => pow2 60 - pow2 44 + 0xFF
  | 0xA6 => pow2 56 - pow2 48 + (pow2 40 - 1)
  | _ => 0

/-- A reserved tier, part or pass code is used. -/
def codeReserved (d : TileDesc) : Bool :=
  let badTier (t : Nat) : Bool := t != 1 && t != 2
  match d.kind with
  | 0xA0 => badTier (mvTier d)
  | 0xA1 | 0xA2 => bitsOf d.args 10 9 == 3
  | 0xA6 => badTier (tmSrc d).2.1 || badTier (tmDst d).2.1
  | k => isRowKind k && (passKinds k).length < rowPass d

/-- The format codes a kind's fields hold are codes of 03 R47; of the moves, a transposing one holds FMT_A. -/
def formatsKnown (d : TileDesc) : Bool :=
  (isMove d && (!(d.kind == 0xA0 && mvTrans d) || (fmtOf d.fmtA).isSome)) || d.kind == 0x50
    || (!isMove d && (fmtOf d.fmtA).isSome && (d.kind == 0x80 || (fmtOf d.fmtB).isSome) && (fmtOf d.fmtOut).isSome)

namespace State

/-- Whether a tile would make a draw (05 R101): masks and raw words always, the others where they convert
stochastically. DESIGN CHOICE: an UPDATE_P2 tile counts as one that draws, though every block of it may be frozen (log entry
29). -/
def draws (s : State) (d : TileDesc) : Bool :=
  d.kind == 0x81 || d.kind == 0x82 || (s.stochastic d.clearing && (
    (d.kind == 1 && d.fmtOut != 0 && !noWrite d) || ((d.kind == 0x40 || d.kind == 0x41 || d.kind == 0x80) && d.fmtOut != 0)
    || d.kind == 0x61 || (isRowKind d.kind && d.fmtOut != 0 && writesRow d)))

/-- Whether a tile names a stream: mask and raw-word tiles and UPDATE_P2 always, the kinds with ARGS of 04 R83 and R87
unless round to nearest even has them ignored (05 R102). -/
def namesStream (s : State) (d : TileDesc) : Bool :=
  d.kind == 0x61 || d.kind == 0x81 || d.kind == 0x82
    || (s.stochastic d.clearing && (d.kind == 1 || d.kind == 0x40 || d.kind == 0x41 || d.kind == 0x80))

/-- The 256 bytes of an update tile's parameter area. -/
def area (s : State) (g c : Nat) (d : TileDesc) : List Byte := s.scr g c d.auxAddr 256

/-- The stream a tile names, where its descriptor or parameter area holds it. -/
def streamOf (s : State) (g c : Nat) (d : TileDesc) : Nat :=
  if d.kind == 1 || d.kind == 0x40 || d.kind == 0x41 || (0x80 ≤ d.kind && d.kind ≤ 0x82) then argStream d
  else if d.kind == 0x61 then field (s.area g c d) 200 2 % 4096
  else 0

/-- Check 1. -/
def setsReserved (s : State) (g c : Nat) (d : TileDesc) : Bool :=
  !knownKind d.kind || 5 < d.role || 64 ≤ d.clearing || d.flags &&& 0xFFC1 != 0 || d.rsv != 0
    || (d.kind != 0xA6 && (pow2 20 ≤ d.aAddr || pow2 20 ≤ d.bAddr)) || pow2 20 ≤ d.outAddr || pow2 20 ≤ d.auxAddr
    || (zeroFields d).any (· != 0) || d.args &&& argsReserved d != 0 || codeReserved d || !formatsKnown d
    || (s.namesStream d && 0xF00 ≤ s.streamOf g c d)

/-! ### Check 4: formats -/

/-- The formats are an allowed combination for the kind. A format field that a kind fixes at 00h is judged here and not as a
reserved field: FMT_B of SPLIT_SUM and CONVERT, FMT_OUT of ROW_VARIANCE, the formats of MASK, RAW_WORDS and the other kinds
(DESIGN CHOICE, log entry 29). -/
def formatsFit (s : State) (d : TileDesc) : Bool :=
  let wide (x : Nat) : Bool := x ≤ 2
  match d.kind with
  | 1 => (isMx d.fmtA && isMx d.fmtB) || (d.fmtA == d.fmtB && (d.fmtA == 1 || d.fmtA == 2))
  | 0x20 | 0x21 | 0x22 | 0x23 => wide d.fmtA && wide d.fmtB
  | 0x24 => wide d.fmtA && wide d.fmtB && d.fmtOut == 0
  | 0x40 => d.fmtA == 0 && d.fmtB == 0
  | 0x41 => d.fmtB == 0 && d.fmtOut != d.fmtA
  | 0x61 => d.fmtA == 0 && d.fmtB == 0 && d.fmtOut == 1
  | 0x80 => wide d.fmtA && (d.fmtB ≤ 8 || (0x40 ≤ d.fmtB && d.fmtB ≤ 0x7F
      && (s.mpState (d.fmtB - 0x40) == 2 || s.mpState (d.fmtB - 0x40) == 3)))
  | 0xA0 => !mvTrans d || wide d.fmtA
  | k => isMove d || (d.fmtA == 0 && d.fmtB == 0 && d.fmtOut == 0 && k != 0)

/-- Check 4: TRANSPOSE_FORMAT for a transposing move of MX data (03 R67), TILE_FORMAT for the rest. -/
def formatCheck (s : State) (g : Nat) (d : TileDesc) : Option Name :=
  if d.kind == 0xA0 && mvTrans d && isMx d.fmtA then some .transposeFormat
  else if !s.formatsFit d || (look (s.grove g).progs d.program).isNone then some .tileFormat
  else none

/-! ### Check 5: flags and ranges of fields -/

/-- The fields of a MATMUL tile (03 R46, R57, R62). -/
def matmulFields (d : TileDesc) : Bool :=
  d.k != 0 && d.k % 32 == 0 && d.strideA % 64 == 0 && d.strideB % 64 == 0 && d.strideOut % 64 == 0
    && rowBytes d.fmtA d.k ≤ d.strideA && rowBytes d.fmtB d.k ≤ d.strideB

/-- The fields of a row tile (06 R109, R110). -/
def rowFields (d : TileDesc) : Bool :=
  let both := rowFirst d && rowLast d
  let whole := d.k == rowLen d
  let rows := 1 ≤ rowCount d && rowCount d ≤ 64
  rows && d.auxAddr % 64 == 0 && d.k != 0 && d.k % 64 == 0 && rowLen d % 64 == 0 && d.k ≤ rowLen d
    && d.strideA % 64 == 0 && d.strideB % 64 == 0 && d.strideOut % 64 == 0
    && (if rowPass d == 0 then both && whole else both == whole)

/-- The fields of an update tile and its program (09 R192, R193, R196, R201). -/
def updateFields (s : State) (g c : Nat) (d : TileDesc) : Bool :=
  let area := s.area g c d
  let ok := d.auxAddr % 64 == 0 && d.strideOut % 64 == 0 && hasEnd area
  if d.kind == 0x62 then ok && scalarOk (program area) && areaOk area 0
  else ok && 1 ≤ blockCount d && blockCount d ≤ 64 && elementOk (program area) []
    && areaOk area (blockCount d)

/-- The fields of a move tile (11 R234 to R236; 07 R139). -/
def moveFields (s : State) (d : TileDesc) : Bool :=
  let lines := 1 ≤ d.k && d.k ≤ 2048
  match d.kind with
  | 0xA0 =>
    let w := if d.fmtA == 0 then 64 else 32
    lines && (!mvTrans d || (mvTier d == 1 && !mvOut d && mvModule d == s.ownModule && d.k % w == 0 && mvLine d % w == 0))
      && ((mvSeq d).isNone || (mvTier d == 2 && !mvOut d)) && ((mvSeq d).isSome || d.strideB % 4096 == 0)
  | 0xA1 => 1 ≤ pgCount d && pgCount d ≤ 16 && d.strideOut % 64 == 0 && d.strideB % 64 == 0
      && pgLayer d < s.rd (0x4140 + d.clearing) 4 && pgHead d < s.rd (0x4140 + d.clearing) 5
      && pgSeq d < s.rd (0x4140 + d.clearing) 9
  | 0xA2 => 1 ≤ pgCount d && pgCount d ≤ 256 && pgLayer d < s.rd (0x4140 + d.clearing) 4
      && pgHead d < s.rd (0x4140 + d.clearing) 5 && pgSeq d < s.rd (0x4140 + d.clearing) 9
  | 0xA4 | 0xA5 => d.k == 64 && mvLine d % 64 == 0
  | _ => lines

/-- The fields of a kind lie in the range, multiple or relation stated for them. -/
def fieldsOk (s : State) (g c : Nat) (d : TileDesc) : Bool :=
  match d.kind with
  | 1 => matmulFields d
  | 0x40 => d.k != 0 && d.k % 64 == 0 && d.strideA % 64 == 0 && d.strideOut % 64 == 0 && 2 ≤ d.strideB && d.strideB ≤ 4095
  | 0x41 => d.k != 0 && d.k % 64 == 0 && d.strideA % 64 == 0 && d.strideOut % 64 == 0
  | 0x50 => true
  | 0x60 | 0x61 | 0x62 => s.updateFields g c d
  | 0x64 | 0x65 | 0x66 | 0x67 => d.strideA % 64 == 0 && d.strideB % 64 == 0 && d.strideOut % 64 == 0
  | 0x80 | 0x81 | 0x82 => d.k != 0 && d.k % 64 == 0 && d.auxAddr % 64 == 0
  | k => if isRowKind k then rowFields d else s.moveFields d

/-- The chain a clearing has open on a cell: the tiles of its last slots that still wait for a successor (03 R63). Slots are
consecutive among the clearing's own: another clearing's tile loaded between breaks no chain (DESIGN CHOICE, log entry
29). -/
def openChain (s : State) (n g c : Nat) : List TileSlot :=
  let mine := (s.cell g c).slots.filter fun t => t.desc.clearing == n
  let run := mine.foldl (fun acc t => if t.chainHead then [t] else acc ++ [t]) []
  match run.getLast? with
  | some t => if chained t.desc then run else []
  | none => []

/-- The flag rules of 03 R46 and R63 to R65 on a tile after the tiles `ch` of its open chain: the TILE_ID of the tile
that breaks one. -/
def flagsBroken (ch : List TileSlot) (d : TileDesc) : Option Nat :=
  let same := match ch.head? with
    | some t => d.kind == 1 && t.desc.fmtA == d.fmtA && t.desc.fmtB == d.fmtB && t.desc.fmtOut == d.fmtOut
    | none => true
  let pred := ch.getLast?.map (·.desc)
  let held := match pred with
    | some p => noWrite p
    | none => false
  if (d.kind != 1 && d.flags != 0) || !same || (chained d && 7 ≤ ch.length) || (noWrite d && !chained d)
      || (hasBlockMask d && (chained d || !ch.isEmpty)) || (continues d && !held) then some d.tileId
  else match pred with
    | some p => if noWrite p && !continues d then some p.tileId else none
    | none => none

/-! ### Checks 6 and 7: ranges -/

/-- `n` ranges of `len` bytes at a stride. -/
def strided (a stride n len : Nat) : List (Nat × Nat) := (List.range n).map fun i => (a + i * stride, len)

/-- The scratchpad ranges a tile reads, writes, and both reads and writes as its status line. -/
def ranges (s : State) (g c : Nat) (d : TileDesc) : List (Nat × Nat) × List (Nat × Nat) × List (Nat × Nat) :=
  let rows := rowCount d
  let n := blockCount d
  let x := d.auxAddr
  match d.kind with
  | 1 => (strided d.aAddr d.strideA 32 (rowBytes d.fmtA d.k) ++ strided d.bAddr d.strideB 32 (rowBytes d.fmtB d.k)
      ++ (if hasRowMask d then [(x, 4)] else []) ++ (if hasBlockMask d then [(x, 1)] else []),
    if noWrite d then [] else strided d.outAddr d.strideOut 32 (rowBytes d.fmtOut 32), [])
  | 0x40 => (strided d.aAddr d.strideA d.strideB (4 * d.k), [(d.outAddr, rowBytes d.fmtOut d.k)], [])
  | 0x41 => ([(d.aAddr, rowBytes d.fmtA d.k)], [(d.outAddr, rowBytes d.fmtOut d.k)], [])
  | 0x60 => ([(d.aAddr, 4096 * n), (d.bAddr, 12288 * n), (x, 256)], [(d.outAddr, 64)], [])
  | 0x61 =>
    let a := s.area g c d
    ([(d.aAddr, 4096 * n), (d.bAddr, 12288 * n), (x, 256)],
      (d.outAddr, 12288 * n) :: strided (field a 204 4) (field a 208 4) 32 (64 * n)
        ++ strided (field a 212 4) (field a 216 4) (32 * n) 64, [])
  | 0x62 => ([(d.aAddr, 16), (x, 256)], [(d.outAddr, 64)], [])
  | 0x64 => ([(d.aAddr, 0x10000)], [(d.outAddr, 0x10000)], [(x, 64)])
  | 0x65 =>
    let q := bitsOf d.args 63 62
    ([(d.aAddr, 0x10000), (d.bAddr, 0x4000 * q)], [(d.bAddr + 0x4000 * q, 0x4000)], [(x, 64)])
  | 0x66 => ([(d.aAddr, 0x10000), (d.bAddr, 0x10000)], [(d.outAddr + 4096 * bitsOf d.args 63 60, 4096)], [(x, 64)])
  | 0x67 => ([(d.aAddr, 0x10000)], [(d.outAddr, if bitOf d.args 63 then 0x10000 else 0x20000)], [(x, 64)])
  | 0x80 => ([(d.aAddr, rowBytes d.fmtA d.k), (x, 64)], [(d.outAddr, rowBytes d.fmtOut d.k)], [])
  | 0x81 => ([(x, 64)], [(d.outAddr, d.k / 8)], [])
  | 0x82 => ([(x, 64)], [(d.outAddr, 4 * d.k)], [])
  | 0xA0 => if mvOut d then ([(d.aAddr, 64 * d.k)], [], []) else ([], [(d.outAddr, 64 * d.k)], [])
  | 0xA1 => ([], (if pgKeys d then strided d.outAddr d.strideOut (256 * pgCount d) (s.kvBytes d.clearing) else [])
      ++ (if pgVals d then strided d.bAddr d.strideB (s.kvBytes d.clearing / 2) (512 * pgCount d) else []) ++ [(x, 4)], [])
  | 0xA2 => ((if pgKeys d then [(d.aAddr, pgCount d * s.kvBytes d.clearing)] else [])
      ++ (if pgVals d then [(d.bAddr, pgCount d * s.kvBytes d.clearing)] else []), [], [])
  | 0xA3 => ([], [(d.outAddr, 64 * d.k)], [])
  | k =>
    if isRowKind k then
      (strided d.aAddr d.strideA rows (rowBytes d.fmtA d.k)
        ++ (if k == 0x21 || k == 0x23 then strided d.bAddr d.strideB rows (rowBytes d.fmtB d.k) else []) ++ [(x, 64)],
        (if k == 0x24 then [(d.outAddr, 4 * rows)] else strided d.outAddr d.strideOut rows (rowBytes d.fmtOut d.k)), [])
    else ([], [], [])

/-- Statistic rows of a row tile; ROW_VARIANCE uses none. -/
def statRows (d : TileDesc) : List Nat :=
  if isRowKind d.kind && d.kind != 0x24 then (List.range (rowCount d)).map (statRow d + ·) else []
/-- Working rows. -/
def workRows (d : TileDesc) : List Nat :=
  if isRowKind d.kind then (List.range (2 * rowCount d)).map (workRow d + ·) else []

/-- Whether a clearing owns the side granule of a row. -/
def ownsSideRow (s : State) (n g c r : Nat) : Bool := look (s.cell g c).sideOwn (r / 512) == some n

/-- The tier ranges a tile reaches: clearing, tier, byte offset and length. -/
def tierRanges (s : State) (d : TileDesc) : List (Nat × Nat × Nat × Nat) :=
  match d.kind with
  | 0xA0 => if mvModule d == s.ownModule then [(d.fmtB % 64, mvTier d, 64 * mvLine d, 64 * d.k)] else []
  | 0xA4 | 0xA5 => [(d.clearing, 1, 64 * mvLine d, 4096)]
  | 0xA6 => [((tmSrc d).1, (tmSrc d).2.1, 64 * (tmSrc d).2.2, 64 * d.k),
    ((tmDst d).1, (tmDst d).2.1, 64 * (tmDst d).2.2, 64 * d.k)]
  | _ => []

/-- Check 6: SCRATCH_FOREIGN for granules, then TIER_FOREIGN for tiers (11 R239) and units. -/
def foreignCheck (s : State) (g c : Nat) (d : TileDesc) : Option Name :=
  let r := s.ranges g c d
  let side := statRows d ++ workRows d ++ (if d.kind == 0xA4 || d.kind == 0xA5 then [512 * sdGranule d] else [])
  if !((r.1 ++ r.2.1 ++ r.2.2).all fun p => s.ownsScratch d.clearing g c p.1 p.2)
      || !(side.all fun w => s.ownsSideRow d.clearing g c w) then some .scratchForeign
  else if !((s.tierRanges d).all fun p => s.mayReach d.clearing p.1 p.2.1 p.2.2.1 p.2.2.2)
      || (d.kind == 0xA3 && ((s.unitList d.clearing).getD (wrUnit d) 0) < 64 * (wrLine d + d.k)) then some .tierForeign
  else none

/-- Two ranges share a byte. -/
def meets (p q : Nat × Nat) : Bool := p.2 != 0 && q.2 != 0 && p.1 < q.1 + q.2 && q.1 < p.1 + p.2

/-- Check 7: the result meets an input of the tile, its status line (09 R204) among them, or of an earlier tile of its
chain, a statistic row is a working row, or the ends of a TIER_MOVE meet. -/
def overlaps (s : State) (g c : Nat) (ch : List TileSlot) (d : TileDesc) : Bool :=
  let r := s.ranges g c d
  let ins := r.1 ++ r.2.2 ++ ch.flatMap fun t => (s.ranges g c t.desc).1
  (r.2.1.any fun p => ins.any fun q => meets p q) || ((statRows d).any fun w => (workRows d).contains w)
    || (d.kind == 0xA6 && (tmSrc d).1 == (tmDst d).1 && (tmSrc d).2.1 == (tmDst d).2.1
      && meets ((tmSrc d).2.2, d.k) ((tmDst d).2.2, d.k))

/-! ### Checks 8 and 9: worst-case counts -/

/-- The round trip of 02 R37 and R38 from a grove's farthest cell to a stack (12 R425). -/
def tripHbm (g stack : Nat) : Nat := 180 + 64 + 12 * crossings g (stack / 3) + (if stack % 3 == 1 then 0 else 8)

/-- The farthest round trip to the blocks a byte range lies in. -/
def tripTo (g tier off len : Nat) : Nat :=
  if tier == 2 then 236 else ((blocksIn off len).map fun b => tripHbm g (b % 12)).foldl max 0

/-- The slice of a gather or an append (07 R134). -/
def sliceNo (s : State) (d : TileDesc) : Nat := pgLayer d * s.rd (0x4140 + d.clearing) 5 + pgHead d

/-- The farthest round trip to a stack in which that slice of some page of the pool lies, and for an append of slice 0
the token record it writes beside (11 R234): the descriptor's count holds whatever pages the sequence has (07 R136;
DEDUCED, log entry 28). -/
def sliceTrip (s : State) (g : Nat) (d : TileDesc) : Nat :=
  ((List.range (min 12 (s.frc (0x4140 + d.clearing) 1))).map fun k =>
    max (tripHbm g (s.sliceStack d.clearing k (s.sliceNo d)))
      (if d.kind == 0xA2 && s.sliceNo d == 0 then tripHbm g k else 0)).foldl max 0

/-- The beats a MATMUL tile delivers elements for: K / e (03 R62). -/
def matmulBeats (s : State) (d : TileDesc) : Nat :=
  if isMx d.fmtA && isMx d.fmtB then
    let e := (if d.fmtA ≤ 0x11 || d.fmtB ≤ 0x11 then 1 else 2) * (if s.halfWidth d.clearing then 2 else 1)
    d.k / e
  else 2 * d.k

/-- The lines a gather or an append moves, every page taken as FULL (11 R237). -/
def pageLines (s : State) (d : TileDesc) : Nat :=
  let per := ceilDiv ((if d.kind == 0xA1 then 256 * pgCount d else pgCount d) * s.kvBytes d.clearing) 64
  (if pgKeys d then per else 0) + (if pgVals d then per else 0)

/-- The worst-case count of a tile of its own (03 R62, 04 R87, 06 R111, R120, 09 R192, 11 R237, 14 R309). -/
def worstBeats (s : State) (g c : Nat) (d : TileDesc) : Nat :=
  let k := d.k
  match d.kind with
  | 1 => s.matmulBeats d + 82
  | 0x40 => 16 + d.strideB * k / 64
  | 0x41 => 16 + k / 64
  | 0x50 => 32
  | 0x60 => 104 + blockCount d * (16 + passCost (s.area g c d) 1)
  | 0x61 => 40 + blockCount d * (32 + passCost (s.area g c d) 2)
  | 0x62 => 40 + passCost (s.area g c d) 3 / 16
  | 0x64 => 360
  | 0x65 => ([1432, 3480, 2984, 4008] : List Nat).getD (bitsOf d.args 63 62) 0
  | 0x66 => 2092
  | 0x67 => if bitOf d.args 63 then 616 else 1588
  | 0x80 => 40 + k / 64
  | 0x81 | 0x82 => 24 + k / 128
  | 0xA0 =>
    if mvModule d == s.ownModule then 12 + k + tripTo g (mvTier d) (64 * mvLine d) (64 * k) + (if mvTrans d then 8 else 0)
    else 12 + k + 27
  | 0xA1 => 20 + s.pageLines d + s.sliceTrip g d + (if pgVals d then 8 else 0)
  | 0xA2 => 13 + s.pageLines d + s.sliceTrip g d
  | 0xA3 => 12 + k + tripTo g 1 (64 * wrLine d) (64 * k)
  | 0xA4 | 0xA5 => 76 + tripTo g 1 (64 * mvLine d) 4096
  | 0xA6 => 12 + k + 2 * max (tripTo g (tmSrc d).2.1 (64 * (tmSrc d).2.2) (64 * k))
      (tripTo g (tmDst d).2.1 (64 * (tmDst d).2.2) (64 * k))
  | _ => 40 + ((passesRun d).map fun p =>
      if (passKinds d.kind).getD (p - 1) false then k else rowCount d * k / 64).foldl (· + ·) 0

/-- The worst-case count of a chain (03 R63), or of one tile of another kind. -/
def chainBeats (s : State) (g c : Nat) (ds : List TileDesc) : Nat :=
  match ds with
  | [d] => s.worstBeats g c d
  | _ => 82 + (ds.map s.matmulBeats).foldl (· + ·) 0

/-! ### Check 11: banks (03 R58) -/

/-- The first-fetch reads of each beat name 16 different banks. -/
def banksOk (d : TileDesc) : Bool :=
  (List.range 4).all fun b =>
    let bank (a : Nat) : Nat := a / 64 % 16
    let l := (List.range 8).flatMap fun i =>
      [bank (d.aAddr + (8 * b + i) * d.strideA), bank (d.bAddr + (8 * b + i) * d.strideB)]
    l.eraseDups.length == 16

/-! ### The checks in their order -/

/-- A check that fails: its order, its status and the TILE_ID reported. -/
def refuse (bad : Bool) (order : Nat) (why : Name) (id : Nat) : Option (Nat × Name × Nat) :=
  if bad then some (order, why, id) else none

/-- The first of the checks of 03 R49 that a descriptor fails on a cell; none when it is accepted. -/
def tileCheck (s : State) (g c : Nat) (d : TileDesc) : Option (Nat × Name × Nat) :=
  let id := d.tileId
  let ch := s.openChain d.clearing g c
  let ds := ch.map (·.desc) ++ [d]
  (refuse (s.setsReserved g c d) 1 .reservedSet id).orElse fun _ =>
  (refuse (!(s.clearingsOn g c).contains d.clearing) 2 .scratchForeign id).orElse fun _ =>
  (refuse (!roleFits d) 3 .tileRole id).orElse fun _ =>
  ((s.formatCheck g d).map fun w => (4, w, id)).orElse fun _ =>
  (refuse (d.wcet == 0 || 4096 < d.wcet || !s.fieldsOk g c d) 5 .tileFlags id).orElse fun _ =>
  ((flagsBroken ch d).map fun i => (5, Name.tileFlags, i)).orElse fun _ =>
  ((s.foreignCheck g c d).map fun w => (6, w, id)).orElse fun _ =>
  (refuse (s.overlaps g c ch d) 7 .tileOverlap id).orElse fun _ =>
  (refuse (4096 < s.chainBeats g c ds) 8 .tileTooLong id).orElse fun _ =>
  (refuse (if ch.isEmpty then !chained d && d.wcet != s.worstBeats g c d else d.wcet != 1) 9 .tileWcetBad id).orElse fun _ =>
  (refuse (s.draws d && s.frc 0x3110 d.clearing == 0) 10 .noSeed id).orElse fun _ =>
  (refuse (d.kind == 1 && !banksOk d) 11 .tileBanks id).orElse fun _ =>
  match ch.head? with
  | some t => refuse (!chained d && t.desc.wcet != s.chainBeats g c ds) 9 .tileWcetBad t.desc.tileId
  | none => none

end State

end Sys2Proof.Machine
end

