-- ==== Sys2Proof/Machine/Warden.lean ====
section
/-! DEFINITION. Loading tiles into slots and picking them (03 R43, R44, R49 to R52; 12 R256, R261, R262). -/

namespace Sys2Proof.Machine

/-- A list of slots without the last `k` of a clearing. -/
def dropSlots (n k : Nat) (l : List TileSlot) : List TileSlot :=
  (l.foldr (fun t r => if t.desc.clearing == n && r.2 != 0 then (r.1, r.2 - 1) else (t :: r.1, r.2)) ([], k)).1

namespace State

/-! ### Loading (03 R49 to R51) -/

/-- DONE slots collected: they return to EMPTY (03 R50, log entry 13). -/
def collect (s : State) (g c : Nat) : State :=
  let x := s.cell g c
  s.setCell g c { x with slots := x.slots.filter fun t => t.st != .done }

/-- One descriptor checked and written into an EMPTY slot, or refused: its chain leaves its slots, and its clearing's plan
stops on the grove (03 R49). -/
def loadTile (s : State) (g c : Nat) (d : TileDesc) : State :=
  let n := d.clearing % 64
  let x := s.cell g c
  let ch := s.openChain n g c
  match s.tileCheck g c d with
  | none =>
    let t : TileSlot := { desc := d, st := .loaded, chainHead := ch.isEmpty, tries := 0, since := s.time }
    (s.setCell g c { x with slots := x.slots ++ [t] }).refresh g c
  | some (order, why, id) =>
    (s.setCell g c { x with slots := dropSlots n ch.length x.slots }).stopPlan n g c id order why

/-- Slots one clearing may hold on a cell with `k` clearings (12 R256). -/
def slotLimit (s : State) (g c : Nat) : Nat := 9 - max 1 (s.crowdOn g c)

/-- A clearing is parked on a cell by a claim: its further descriptors wait (12 R274). -/
def isParked (s : State) (n g c : Nat) : Bool := (s.cell g c).parked.any fun q => q.victim == n

/-- The held descriptors loaded in order while slots are free: those of a stopped plan or of a clearing being destroyed are
issued no more (03 R49; 12 R260), and a clearing at its slot limit or parked waits without holding back another. -/
def fillSlots (g c : Nat) : List TileDesc → List Nat → State → List TileDesc × State
  | [], _, s => ([], s)
  | d :: rest, back, s =>
    let n := d.clearing % 64
    let slots := (s.cell g c).slots
    let room := slots.length < 8 && (slots.filter fun t => t.desc.clearing == n).length < s.slotLimit g c
    if (s.clr n).stopped.contains g || s.clearState n == 4 then fillSlots g c rest back s
    else if room && !s.isParked n g c && !back.contains n then fillSlots g c rest back (s.loadTile g c d)
    else
      let r := fillSlots g c rest (n :: back) s
      (d :: r.1, r.2)

/-- Everything the warden holds for a cell loaded as far as it goes. -/
def fill (s : State) (g c : Nat) : State :=
  let s0 := s.collect g c
  let r := fillSlots g c (s0.cell g c).held [] s0
  r.2.setCell g c { r.2.cell g c with held := r.1 }

/-! ### Picking (03 R51, R52; 12 R261) -/

/-- Whether a kind is of a class. -/
def inClass (cls : TileClass) (d : TileDesc) : Bool := isMove d == (cls == .move)

/-- The tile or chain of a clearing that is a candidate: from its oldest LOADED or READY slot of the class on, to the end
of the chain that slot opens. -/
def candidate (s : State) (n g c : Nat) (cls : TileClass) : List TileSlot :=
  let l := (s.cell g c).slots.filter fun t =>
    t.desc.clearing == n && inClass cls t.desc && (t.st == .loaded || t.st == .ready)
  match l with
  | [] => []
  | t :: rest => t :: rest.takeWhile fun u => !u.chainHead

/-- A clearing is eligible: its candidate is complete and every slot of it is READY, and the clearing is not being claimed
from the cell (12 R274), destroyed (R260) nor held by a recovery (15 R333). -/
def eligible (s : State) (n g c : Nat) (cls : TileClass) : Bool :=
  let l := s.candidate n g c cls
  !l.isEmpty && (l.all fun t => t.st == .ready)
    && (match l.getLast? with
      | some t => !chained t.desc
      | none => false)
    && !(s.beingClaimed n g c) && !((s.clr n).recov.hold) && s.clearState n != 4

/-- The deficit of a clearing in a ring. -/
def deficitAt (cls : TileClass) (l : List RingPlace) (n : Nat) : Int :=
  match l.find? fun y => y.clearing == n with
  | some y => deficit cls y
  | none => 0

/-- Turns round the ring until an eligible clearing out of debt is found (12 R261): the choice, the ring and the
pointer. -/
def turnRing (cls : TileClass) (q : Nat → Nat) (ok : Nat → Bool) : Nat → List RingPlace → Nat →
    Option Nat × List RingPlace × Nat
  | 0, l, p => (none, l, p)
  | k + 1, l, p =>
    let d := deficitAt cls l p
    if ok p && decide (0 ≤ d) then (some p, l, p)
    else
      let l1 := if !ok p && decide (0 < d) then (l.map fun y => if y.clearing == p then setDeficit cls y 0 else y) else l
      let next := (ringNext l1 p).getD p
      let l2 := l1.map fun y => if y.clearing == next then setDeficit cls y (deficit cls y + q next) else y
      turnRing cls q ok k l2 next

/-- Turns enough for the pick: n + 1 when no clearing is eligible, else until the deepest debt is repaid. -/
def turnFuel (cls : TileClass) (l : List RingPlace) (any : Bool) : Nat :=
  let debt := (l.map fun y => (-(deficit cls y)).toNat).foldl max 0
  (l.length + 1) * (if any then debt / 512 + 3 else 1)

/-- The cell's logical cell runs now: its physical cell is healthy and, when it serves several, hosts this one (20 R428,
R431). -/
def hosted (s : State) (g c : Nat) : Bool :=
  !(s.awaitsSpare g c) && (match look (s.grove g).hosting (s.physOf g c) with
    | some d => d == c
    | none => true)

/-- The bytes of the tile program a tile names, as its grove's store has them (03 R475). -/
def programOf (s : State) (g : Nat) (d : TileDesc) : List Byte := (look (s.grove g).progs d.program).getD []

/-- Beats of a role change and a program load a picked compute tile causes (03 R43, R44): the cell holds another program
where the index differs, and where the store's bytes at the index were replaced meanwhile. -/
def changeBeats (s : State) (g c : Nat) (d : TileDesc) : Nat :=
  let x := s.cell g c
  let role := x.role != d.role
  let b := s.programOf g d
  (if role then 96 else 0) + (if role || x.program != d.program || x.progMem != b then 8 + ceilDiv b.length 32 else 0)

/-- The cell takes the role and the program of a picked compute tile; a role change zeroes the feeder queues, the
accumulator registers and the accumulator buffer (03 R43, R44). ROLE_CHANGES goes on over HELD and RESUME (DESIGN CHOICE,
log entry 29). -/
def takeRole (s : State) (g c : Nat) (d : TileDesc) : State :=
  let x := s.cell g c
  let b := s.changeBeats g c d
  if isMove d || b == 0 then s
  else (s.setCell g c { x with
    role := d.role, program := d.program, progMem := s.programOf g d, lastClearing := d.clearing,
    array := if x.role == d.role then x.array else {},
    roleChanges := if x.role == d.role then x.roleChanges else min (x.roleChanges + 1) (pow2 32 - 1) }).chargeBeats
      g c d.clearing .compute b

/-- The oldest `k` READY slots of a clearing and class set RUNNING at module time `now`. -/
def runSlots (now n : Nat) (cls : TileClass) : Nat → List TileSlot → List TileSlot
  | _, [] => []
  | 0, l => l
  | k + 1, t :: rest =>
    if t.desc.clearing == n && inClass cls t.desc && t.st == .ready then
      { t with st := .running, since := now } :: runSlots now n cls k rest
    else t :: runSlots now n cls (k + 1) rest

/-- A pick of a class at a tile boundary (12 R261). The role and the program of a chain are its first tile's, whatever
PROGRAM its later tiles name (DESIGN CHOICE, log entry 29). -/
def pick (s : State) (g c : Nat) (cls : TileClass) : State :=
  let x := s.cell g c
  let ok (n : Nat) : Bool := s.eligible n g c cls
  let any := x.ring.any fun y => ok y.clearing
  let r := turnRing cls s.quantum ok (turnFuel cls x.ring any) x.ring (if cls == .move then x.movePtr else x.computePtr)
  let x1 : Cell :=
    if cls == .move then { x with ring := r.2.1, movePtr := r.2.2 } else { x with ring := r.2.1, computePtr := r.2.2 }
  match r.1 with
  | none => s.setCell g c x1
  | some n =>
    let l := s.candidate n g c cls
    let s1 := s.setCell g c { x1 with slots := runSlots s.time n cls l.length x1.slots }
    match l.head? with
    | some t => s1.takeRole g c t.desc
    | none => s1

/-- A tile of a class runs in the cell. -/
def classRuns (s : State) (g c : Nat) (cls : TileClass) : Bool :=
  (s.cell g c).slots.any fun t => t.st == .running && inClass cls t.desc

end State

/-- TILE_LOAD: a plan's next descriptor for a cell reaches the grove warden (03 R49 to R51). -/
def execTileLoad (g c : Nat) (desc : List Byte) (s : State) : Ans :=
  let x := s.cell g c
  inRange (wfCell g c) s (onlyIf (s.running && desc.length == 64) s
    ((s.setCell g c { x with held := x.held ++ [decodeTile desc] }).fill g c))

/-- TILE_PICK: a pick of one class at a tile boundary of the cell (03 R51, R52; 12 R261). -/
def execTilePick (g c : Nat) (cls : TileClass) (s : State) : Ans :=
  let s1 := s.fill g c
  inRange (wfCell g c) s
    (onlyIf (s.running && !s.power.holding && !(s.classRuns g c cls) && s.hosted g c) s (s1.pick g c cls))

end Sys2Proof.Machine
end

