-- ==== Sys2Proof/Machine/Run.lean ====
section
/-! DEFINITION. What every tile has in common when it runs: its result written and counted once, its completion, and
what a failed check does (03 R53, R68; 05 R105; 06 R474; 12 R262; 20 R420, R421). -/

namespace Sys2Proof.Machine

/-- What an execution of a compute tile or chain produces: its writes to the scratchpad and to side memory by offset,
what it counts (a chain by its tiles' tensor classes), its beats, whether its parameter line passed (06 R474), and what
it does to the press's counters (09 R207): counters raised, a non-finite scalar line written (R202), a pass 2 under
R202, a clamped tensor, totals held. `late` holds scratchpad writes made only by an execution that completes (09 R204),
`trig` a trigger counter raised: link die, counter, amount (14 R309). -/
structure RunRes where
  scr : List (Nat × List Byte) := []
  side : List (Nat × List Byte) := []
  tally : Tally := {}
  chain : List (Nat × Tally) := []
  beats : Nat
  lineOk : Bool := true
  press : List (Nat × Nat) := []
  skip : Bool := false
  skipRan : Bool := false
  clamped : Option Nat := none
  totals : Bool := false
  late : List (Nat × List Byte) := []
  trig : Option (Nat × Nat × Nat) := none

namespace State

/-- The slots of a class that run on a cell. -/
def runningSlots (s : State) (g c : Nat) (cls : TileClass) : List TileSlot :=
  (s.cell g c).slots.filter fun t => t.st == .running && inClass cls t.desc

/-- Scratchpad writes made. -/
def writeScr (s : State) (g c : Nat) (l : List (Nat × List Byte)) : State := l.foldl (fun s w => s.setScr g c w.1 w.2) s
/-- Side-memory writes made. -/
def writeSide (s : State) (g c : Nat) (l : List (Nat × List Byte)) : State :=
  l.foldl (fun s w => s.putCell g c (0x100000 + w.1) w.2) s

/-- The feeder queues are drained, and the accumulator buffer and registers zero, at the end of a compute tile (03 R61). -/
def clearArray (s : State) (g c : Nat) (cls : TileClass) : State :=
  if cls == .move then s else s.setCell g c { s.cell g c with array := {} }

/-- A compute tile completed on a cell: if it is a spare that was still to prove itself, it has (20 R430). -/
def proveSpare (s : State) (g c : Nat) : State :=
  let x := s.grove g
  let p := s.physOf g c
  if (look x.proving p).isSome then s.setGrove g { x with proving := del x.proving p } else s

/-- The running slots of a class become DONE, in one beat, and the SIG_CTR of each is incremented (03 R50, R53, R63). -/
def finish (s : State) (g c : Nat) (cls : TileClass) : State :=
  let l := s.runningSlots g c cls
  let x := s.cell g c
  let end1 (t : TileSlot) : TileSlot := if t.st == .running && inClass cls t.desc then { t with st := .done } else t
  let s1 := (s.setCell g c { x with slots := x.slots.map end1 }).clearArray g c cls
  l.foldl (fun s t => s.signalCtr t.desc.clearing g c (sigCtr t.desc)) s1

/-- The running slots of a class return to EMPTY: the tile does not complete. -/
def abandon (s : State) (g c : Nat) (cls : TileClass) : State :=
  let x := s.cell g c
  (s.setCell g c { x with slots := x.slots.filter fun t => !(t.st == .running && inClass cls t.desc) }).clearArray g c cls

/-- The beats an execution took: those of its kind, and for a MATMUL the beats the array was held, which cannot be while
the SEQUENCER's wait limit at the grove's bank ports is 32 or fewer (03 R59). -/
def tookBeats (s : State) (g : Nat) (d : TileDesc) (r : RunRes) (held : Nat) : Nat :=
  if d.kind == 1 && 32 < s.rd (0x6110 + g) 0x34 then r.beats + held else r.beats

/-- What a completed execution does beside its writes: the tally, the press counters, the beats and the completion. -/
def settleRun (s : State) (g c : Nat) (d : TileDesc) (r : RunRes) (times : Nat) : State :=
  let n := d.clearing
  let s1 := r.chain.foldl (fun s p => s.countTally n p.1 p.2) (s.countTally n (tensorClass d) r.tally)
  let s2 := r.press.foldl (fun s p => s.bumpLive (0x6080 + n) p.1 p.2) s1
  let p := s2.press n
  let cl := match r.clamped with
    | some t => ins p.clamped t ((look p.clamped t).getD 0 + 1)
    | none => p.clamped
  let s3 := s2.setPress n { p with updateSkip := p.updateSkip || r.skip, skipRan := p.skipRan || r.skipRan, clamped := cl }
  let s4 := if r.totals then s3.setRecov n { s3.recov n with totals := true } else s3
  let s5 := (s4.chargeBeats g c n .compute (times * r.beats)).finish g c .compute
  match r.trig with
  | some t => s5.bumpTrig t.1 n t.2.1 t.2.2
  | none => s5

/-- A completed execution: its writes and what goes with them. -/
def complete (s : State) (g c : Nat) (d : TileDesc) (r : RunRes) (times : Nat) : State :=
  (((s.writeScr g c (r.scr ++ r.late)).writeSide g c r.side).settleRun g c d r times).proveSpare g c

/-- A word of the scratchpad or side memory failed its code (20 R420, R421): the tile that reads it does not complete, and
the plan of the clearing that owns the granule stops on the grove. -/
def loseWord (s : State) (g c : Nat) (d : TileDesc) (cls : TileClass) (off : Nat) : State :=
  (s.abandon g c cls).wordLost ((s.granuleOwner g c (off / 8 * 8)).getD d.clearing) g c d.tileId off

/-- The first word a tile reads that still fails its code. -/
def badInput (s : State) (g c : Nat) (ds : List TileDesc) : Option Nat :=
  let bad := (s.cell g c).badWords
  if bad.isEmpty then none
  else bad.find? fun w => ds.any fun d =>
    let r := s.ranges g c d
    ((r.1 ++ r.2.2).any fun p => meets p (w, 8))
      || ((statRows d ++ workRows d).any fun k => w == 0x100000 + 8 * k)
      || (d.kind == 0xA4 && meets (0x100000 + 4096 * sdGranule d, 4096) (w, 8))

/-- What the codes find for a tile, a word that still fails coming first. -/
def outcome (s : State) (g c : Nat) (ds : List TileDesc) (o : RunOut) : RunOut :=
  match s.badInput g c ds with
  | some w => .scratchLost w
  | none => o

/-- A run that met a word of the culture table failing its code (05 R105): the word is rewritten and the tile runs
again. Where that word retires the table the tile is not completed: it stays RUNNING. `twice` says that the second
execution met it too. -/
def runTable (s : State) (g c : Nat) (d : TileDesc) (r : RunRes) (w : Nat) (twice : Bool) : State :=
  let s1 := (s.tableError g w).bump (0x9010 + g) 7 1
  if (s1.grove g).tableState == 3 then s1.chargeBeats g c d.clearing .compute r.beats
  else if twice then ((s1.tableError g w).bump (0x9010 + g) 7 1).chargeBeats g c d.clearing .compute (2 * r.beats)
  else s1.complete g c d r 2

/-- One run of the compute tile or chain of kind `k` that runs on a cell, with its result `f` and what it meets: the
arbiters its traffic passes (13), the beats it is held, what the checks find. A tile that draws from a FAILED table does not
complete (05 R96, R105). A run that ends on a lost word is charged its beats (12 R262; DESIGN CHOICE, log entry 28: all of
them). -/
def runCompute (s0 : State) (g c k : Nat) (o : RunEnv) (f : State → List TileDesc → RunRes) : State :=
  let ds := (s0.runningSlots g c .compute).map (·.desc)
  match ds.head? with
  | none => s0
  | some d =>
    if d.kind != k || s0.tileWaits g c || !s0.running then s0
    else
      let s := s0.arbitrateAll o.arb
      let r0 := f s ds
      let r := { r0 with beats := s.tookBeats g d r0 o.held }
      match s.outcome g c ds o.found with
      | .scratchLost off =>
        if off < 0x110000 then (s.chargeBeats g c d.clearing .compute r.beats).loseWord g c d .compute off else s
      | oc =>
        let drawn := ds.any s.draws
        if drawn && (s.grove g).tableState == 3 then s
        else if !r.lineOk then
          ((s.chargeBeats g c d.clearing .compute (min r.beats 40)).abandon g c .compute).stopPlan
            d.clearing g c d.tileId 0 .reservedSet
        else match oc with
        | .ok => s.complete g c d r 1
        | .wordFixed k => (s.complete g c d r 1).bump (0x9010 + g) 6 k
        | .residueOnce => (s.complete g c d r 2).bump (0x9010 + g) 4 1
        | .residueTwice =>
          (((s.writeScr g c r.scr).chargeBeats g c d.clearing .compute (2 * r.beats)).bump (0x9010 + g) 4 1).retireCell
            g (s.physOf g c) true
        | .tableWord w => if drawn && w < 8192 then s.runTable g c d r w false else s
        | .tableTwice w => if drawn && w < 8192 then s.runTable g c d r w true else s
        | _ => s

end State

end Sys2Proof.Machine
end

