-- ==== Sys2Proof/Machine/Matrix.lean ====
section
/-! DEFINITION. MATMUL tiles and chains, SPLIT_SUM and CONVERT (03 R57 to R65; 04 R76 to R87). -/

namespace Sys2Proof.Machine

/-- The sums of the 32 × 32 positions, by rows. -/
abbrev Sums := List (List Accum)

/-- Every position at +0 (03 R61, 04 R76). -/
def zeroSums : Sums := List.replicate 32 (List.replicate 32 {})

/-- Products added into the sums, one rounding each, in ascending reduction index (04 R76). -/
def addProducts (halfW : Bool) (rows cols : List (List FV)) (acc : Sums) : Sums :=
  (rows.zip acc).map fun r =>
    (cols.zip r.2).map fun q => (r.1.zip q.1).foldl (fun a p => a.step halfW (FV.mul p.1 p.2)) q.2

namespace State

/-- `n` rows of K elements at a stride, as a product takes them. -/
def rowsAt (s : State) (g c a stride n code k : Nat) : List (List FV) :=
  (List.range n).map fun i => s.scrVals true g c (a + i * stride) code k

/-- The row mask in effect: all ones unless the tile carries ROW_MASK and masks are on (03 R46, 09 R188). -/
def rowMask (s : State) (g c : Nat) (d : TileDesc) : Nat :=
  if hasRowMask d && s.masksOn d.clearing then s.scr32 g c d.auxAddr else pow2 32 - 1

/-- The block is masked: BLOCK_MASK, masks on and a non-zero mask byte. -/
def blockMasked (s : State) (g c : Nat) (d : TileDesc) : Bool :=
  hasBlockMask d && s.masksOn d.clearing && !allZero (s.scr g c d.auxAddr 1)

/-- One result row converted and written; a masked row is zeros without a conversion (03 R65; 04 R78 to R83). -/
def drainRow (s : State) (g : Nat) (d : TileDesc) (mask : Nat) (p : Nat × List Accum) : (Nat × List Byte) × Tally :=
  let at_ := d.outAddr + p.1 * d.strideOut
  if !mask.testBit p.1 then ((at_, zeroRow d.fmtOut 32), {})
  else
    let base := (bitsOf d.args 51 24 + p.1) * pow2 24 + bitsOf d.args 23 0
    let r := convertRow d.fmtOut (s.drawsFor d.clearing g d.fmtOut (argStream d) base) (p.2.map (·.v))
    ((at_, r.1), { tallyRow d.fmtOut r.2 with
      sat := (p.2.filter (·.sat)).length, nonfinite := (p.2.filter fun a => !a.v.isFin).length })

/-- A tile of a chain over the state its predecessors left: its writes, its tally and the sums it leaves (03 R63, R64). -/
def matmulTile (s : State) (g c : Nat) (acc : Sums) (d : TileDesc) : List (Nat × List Byte) × Tally × Sums :=
  let halfW := s.halfWidth d.clearing && isMx d.fmtA && isMx d.fmtB
  let sums := addProducts halfW (s.rowsAt g c d.aAddr d.strideA 32 d.fmtA d.k) (s.rowsAt g c d.bAddr d.strideB 32 d.fmtB d.k)
    (if continues d then acc else zeroSums)
  if noWrite d then ([], {}, sums)
  else
    let l := ((List.range 32).zip sums).map (s.drainRow g d (s.rowMask g c d))
    (l.map (·.1), (l.map (·.2)).foldl Tally.plus {}, sums)

/-- The tiles of a chain in order: their writes, and their tallies by the class of the tile that makes them (16 R342).
One that reads what an earlier tile of its chain wrote sees it written (DESIGN CHOICE, log entry 29). -/
def matmulTiles (g c : Nat) : List TileDesc → State → Sums → List (Nat × List Byte) → List (Nat × Tally) →
    List (Nat × List Byte) × List (Nat × Tally)
  | [], _, _, ws, t => (ws, t)
  | d :: rest, s, acc, ws, t =>
    let r := s.matmulTile g c acc d
    matmulTiles g c rest (s.writeScr g c r.1) r.2.2 (ws ++ r.1) (t ++ [(tensorClass d, r.2.1)])

/-- The result of a MATMUL tile or chain. -/
def matmulRes (g c : Nat) (s : State) (ds : List TileDesc) : RunRes :=
  match ds with
  | [] => { beats := 0 }
  | d :: _ =>
    if s.blockMasked g c d then
      { scr := (List.range 32).map fun i => (d.outAddr + i * d.strideOut, zeroRow d.fmtOut 32), beats := 12, press := [(4, 1)] }
    else
      let r := matmulTiles g c ds s zeroSums [] []
      { scr := r.1, chain := r.2, beats := s.chainBeats g c ds }

/-- A row of FP32 values converted to FMT_OUT at OUT_ADDR, drawing at INDEX_BASE (04 R82, R87; 06 R120). -/
def vectorRes (s : State) (g c : Nat) (d : TileDesc) (xs : List FV) : RunRes :=
  let r := convertRow d.fmtOut (s.drawsFor d.clearing g d.fmtOut (argStream d) (indexBase d)) xs
  { scr := [(d.outAddr, r.1)], tally := if d.fmtOut == 0 then {} else tallyRow d.fmtOut r.2, beats := s.worstBeats g c d }

/-- The sum of P partials, FP32 in ascending partial index (04 R86). -/
def splitSums (s : State) (g c : Nat) (d : TileDesc) : List Nat :=
  (List.range (d.strideB - 1)).foldl
    (fun acc p => (acc.zip (s.scrF32 g c (d.aAddr + (p + 1) * d.strideA) 0 d.k)).map fun q => fadd q.1 q.2)
    (s.scrF32 g c d.aAddr 0 d.k)

/-- The result of a SPLIT_SUM tile. -/
def splitRes (g c : Nat) (s : State) (ds : List TileDesc) : RunRes :=
  match ds with
  | [] => { beats := 0 }
  | d :: _ => s.vectorRes g c d ((s.splitSums g c d).map f32)

/-- The result of a CONVERT tile. -/
def convertRes (g c : Nat) (s : State) (ds : List TileDesc) : RunRes :=
  match ds with
  | [] => { beats := 0 }
  | d :: _ => s.vectorRes g c d (s.scrVals false g c d.aAddr d.fmtA d.k)

end State

/-- MATMUL: a tile or chain of KIND 01h runs (03 R57 to R65; 04 R76 to R83). -/
def execMatmul (g c : Nat) (o : RunEnv) (s : State) : Ans :=
  inRange (wfCell g c) s (s.runCompute g c 0x01 o (State.matmulRes g c))

/-- SPLIT_SUM: partials summed in ascending index and converted (04 R85, R86). -/
def execSplitSum (g c : Nat) (o : RunEnv) (s : State) : Ans :=
  inRange (wfCell g c) s (s.runCompute g c 0x40 o (State.splitRes g c))

/-- CONVERT: values formed in FP32 and converted (04 R79 to R82, R87). -/
def execConvert (g c : Nat) (o : RunEnv) (s : State) : Ans :=
  inRange (wfCell g c) s (s.runCompute g c 0x41 o (State.convertRes g c))

end Sys2Proof.Machine
end

