-- ==== Sys2Proof/Machine/Moves.lean ====
section
/-! DEFINITION. Move tiles and TRIGGER_POST: MOVE, PAGE_GATHER, PAGE_APPEND, WEIGHT_READ, SIDE_SAVE, SIDE_LOAD and
TIER_MOVE (03 R66; 06 R119; 07 R139 to R143, R158; 10 R219, R224; 11 R234 to R239, R245, R248, R251; 12 R277; 14 R309). -/

namespace Sys2Proof.Machine

/-- Bytes with the 64-byte lines of a list zeroed: a line that is lost lands as +0 (11 R245). -/
def blankLines (bad : List Nat) (b : List Byte) : List Byte := bad.foldl (fun b i => overwrite b (64 * i) (zeros 64)) b

/-- A page descriptor (07 R138). -/
structure PageDesc where
  modNo : Nat
  stack : Nat
  addr : Nat
  page : Nat
  fill : Nat
  posPage : Nat
  seq : Nat
  layer : Nat
  head : Nat
  version : Nat
  mixed : Bool
  tail : Bool
  shared : Bool
  units : Nat
  step : Nat
deriving DecidableEq, Repr

/-- The 32 bytes of a page descriptor. Its stack byte address counts from the beginning of the clearing's region in the
stack (DESIGN CHOICE, log entry 28). -/
def PageDesc.bytes (q : PageDesc) : List Byte :=
  let flag (b : Bool) (k : Nat) : Nat := if b then k else 0
  leBytes 8 (q.modNo % pow2 14 * pow2 50 + q.stack % 16 * pow2 46 + q.addr % pow2 36) ++ leBytes 4 q.page ++ leBytes 2 q.fill
    ++ leBytes 2 q.posPage ++ leBytes 2 (q.seq % 4096) ++ leBytes 1 q.layer ++ leBytes 1 q.head ++ leBytes 1 q.version
    ++ leBytes 1 (flag q.mixed 4 + flag q.tail 2 + flag q.shared 1) ++ leBytes 2 q.units ++ leBytes 4 q.step ++ zeros 4

/-- A page descriptor read from its bytes. -/
def readPage (b : List Byte) : PageDesc :=
  let base := field b 0 8
  let fl := field b 21 1
  { modNo := bitsOf base 63 50, stack := bitsOf base 49 46, addr := bitsOf base 35 0, page := field b 8 4, fill := field b 12 2,
    posPage := field b 14 2, seq := field b 16 2 % 4096, layer := field b 18 1, head := field b 19 1, version := field b 20 1,
    mixed := fl.testBit 2, tail := fl.testBit 1, shared := fl.testBit 0, units := field b 22 2, step := field b 24 4 }

namespace State

/-! ### One run of a move tile -/

/-- The running move slot of a cell changed. -/
def mapMove (s : State) (g c : Nat) (f : TileSlot → TileSlot) : State :=
  let x := s.cell g c
  s.setCell g c { x with slots := x.slots.map fun t => if t.st == .running && inClass .move t.desc then f t else t }

/-- The actual beats of a run charged (12 R262, R264). -/
def chargeMove (s : State) (g c : Nat) (d : TileDesc) : State :=
  s.chargeBeats g c d.clearing .move (((s.runningSlots g c .move).map (·.took)).headD 0)

/-- A move tile completes. -/
def moveDone (s : State) (g c : Nat) (d : TileDesc) : State := (s.chargeMove g c d).finish g c .move

/-- A move tile that does not complete and is executed once more; a second time its clearing's plan stops on the grove (11
R245, 12 R278). -/
def againOrStop (s : State) (g c : Nat) (t : TileSlot) (why : Name) : State :=
  if t.tries == 0 then (s.chargeMove g c t.desc).mapMove g c fun t => { t with tries := 1 }
  else ((s.chargeMove g c t.desc).abandon g c .move).stopPlan t.desc.clearing g c t.desc.tileId 0 why

/-- One run of the move tile of kind `k` that runs on a cell, with what it meets: the arbiters its traffic passes (13), the
beats it takes, what the codes find. Line `i` of its reads, of `lines`, lies at `place i`; `done` is a
run whose lines were all read, `lost` one that lost these lines, by a code or (`true`) by arriving LATE. -/
def runMove (s0 : State) (g c k : Nat) (o : RunEnv) (lines : TileDesc → Nat) (place : TileDesc → Nat → Option Place)
    (done : State → TileSlot → State) (lost : State → TileSlot → List Nat → Bool → State) : State :=
  match (s0.runningSlots g c .move).head? with
  | none => s0
  | some t0 =>
    let t := { t0 with took := o.took }
    let d := t.desc
    let s := (s0.arbitrateAll o.arb).mapMove g c fun y => { y with took := o.took }
    let at_ (i : Nat) : Option Place := if i < lines d then place d i else none
    if d.kind != k || s0.tileWaits g c || !s0.running then s0
    else match s.outcome g c [d] o.found with
    | .scratchLost off => if off < 0x110000 then (s.chargeMove g c d).loseWord g c d .move off else s
    | oc =>
      let more := match oc with
        | .lineLost i => ((at_ i).map fun p => (i, p)).toList
        | _ => []
      let known := s.badLines (lines d) (place d)
      let bad := known ++ more.filter fun m => !(known.any fun q => q.1 == m.1)
      if !bad.isEmpty then lost (bad.foldl (fun s b => s.loseLine b.2) s) t (bad.map (·.1)) false
      else match oc with
      | .ok => done s t
      | .wordFixed k => (done s t).bump (0x9010 + g) 6 k
      | .lineFixed i => (match at_ i with
        | some p => done (s.correctLine p) t
        | none => s)
      | .lineLate i => (match at_ i with
        | some p => if p.tier == 2 && t.since + 1000 * s.rd 0x4C00 1 ≤ s.time then lost s t [i] true else s
        | none => s)
      | _ => s

/-- Tier-1 lines outside pages and units are lost, of a read of `len` bytes: each is counted, MEMORY_LOST names the region's
clearing and the first one's offset, the tile does not complete, and that clearing's plan on the grove stops (11 R240,
R248). -/
def memoryLost (s : State) (g c : Nat) (d : TileDesc) (m off len : Nat) (bad : List Nat) : State :=
  let s1 := ((s.chargeMove g c d).abandon g c .move).chargeRange m 1 off len
  (s1.postMemoryLost m d.tileId (off + 64 * bad.headD 0) bad.length).stopPlan m g c d.tileId 0 .memoryLost

/-- Lines of a cellar region that ended LATE or LOST counted (11 R240). -/
def countMissed (s : State) (m k : Nat) (late : Bool) : State := s.bump (0x4040 + m) (if late then 0xA else 0xB) k
/-- The status of a missed cellar line. -/
def missName (late : Bool) : Name := if late then .late else .lost
/-- Its ending code (08 R170). -/
def missCode (late : Bool) : Nat := if late then 0x13 else 0x14

/-! ### MOVE (11 R235) -/

/-- The target of a MOVE: clearing, tier, byte offset and length. -/
def mvTarget (d : TileDesc) : Nat × Nat × Nat × Nat := (d.fmtB % 64, mvTier d, 64 * mvLine d, 64 * d.k)

/-- Bytes of a tier-1 region as a MOVE carries them to tiles: those of a mask record are the record in effect, whatever was
written there since the press step's boundary (09 R189; DESIGN CHOICE, log entry 23). -/
def peekMasked (s : State) (n off len : Nat) : List Byte :=
  (s.press n).masks.foldl (fun b m => b.mapIdx fun i x =>
    if m.1 ≤ off + i && off + i < m.1 + m.2.length then m.2.getD (off + i - m.1) 0 else x) (s.peek (regionAddr 1 n off) len)

/-- The lines of a local MOVE from a tier landed in the scratchpad and charged to the region's owner (11 R238). -/
def landMove (s : State) (g c : Nat) (d : TileDesc) (bad : List Nat) : State :=
  let r := mvTarget d
  let b := blankLines bad (if r.2.1 == 1 then s.peekMasked r.1 r.2.2.1 r.2.2.2
    else s.peek (regionAddr r.2.1 r.1 r.2.2.1) r.2.2.2)
  let b1 := if mvTrans d then transposed (if d.fmtA == 0 then 4 else 2) b else b
  (s.putCell g c d.outAddr b1).chargeRange r.1 r.2.1 r.2.2.1 r.2.2.2

/-- A remote read issued; its tile's slot is PARKED (12 R277). -/
def askRemote (s : State) (g c : Nat) (d : TileDesc) (dst clearing tier off count landing : Nat) : State :=
  let r : Remote := {
    tag := s.nextTag, grove := g, cell := c, clearing := d.clearing, tileId := d.tileId, issued := s.time, lines := count,
    got := [], landing := landing }
  let s1 : State := { s with remotes := s.remotes ++ [r], nextTag := (s.nextTag + 1) % 65536 }
  s1.carryRead d.clearing dst clearing tier off r.tag count (quadrant g)

/-- The running move slot parks at its remote wait (12 R277). -/
def park (s : State) (g c : Nat) (d : TileDesc) : State :=
  ((s.chargeMove g c d).mapMove g c fun t => { t with st := .parked }).bumpLive 0x6024 d.clearing 1

/-- A write of move tiles into a local region: it waits while an open snapshot has blocks of the range to copy (11 R251). -/
def moveInto (s : State) (g c : Nat) (d : TileDesc) (m tier off : Nat) (data : List Byte) : State :=
  if tier == 1 && !(s.uncopied m off data.length).isEmpty then s.stallWrite m off data.length []
  else (s.writeRegion m tier off data).moveDone g c d

/-- Lines written to a tier of another module: the transfer stays open under its tag, which a refusal names (11 R239, 14
R296; DESIGN CHOICE, log entry 28). -/
def sendLines (s : State) (g c : Nat) (d : TileDesc) (dst m tier off : Nat) (data : List Byte) : State :=
  let r : Remote := {
    tag := s.nextTag, grove := g, cell := c, clearing := d.clearing, tileId := d.tileId, issued := s.time, lines := 0,
    got := [], landing := 0, write := true }
  let s1 : State := { s with remotes := s.remotes ++ [r], nextTag := (s.nextTag + 1) % 65536 }
  s1.carryLines d.clearing dst m tier off data r.tag none (quadrant g)

/-- A cellar transfer that ended LATE or LOST ends only the request it serves: the sequence SEQ names, its tile completing;
without one the tile is executed once more (11 R245). -/
def cellarMiss (s : State) (g c : Nat) (t : TileSlot) (late : Bool) : State :=
  match mvSeq t.desc with
  | some q => (s.faultSeq t.desc.clearing q (missCode late)).moveDone g c t.desc
  | none => s.againOrStop g c t (missName late)

/-- A MOVE whose lines were read. -/
def moveOk (g c : Nat) (s : State) (t : TileSlot) : State :=
  let d := t.desc
  let r := mvTarget d
  let local? := mvModule d == s.ownModule
  if local? && !s.mayReach d.clearing r.1 r.2.1 r.2.2.1 r.2.2.2 then
    ((s.chargeMove g c d).abandon g c .move).stopPlan d.clearing g c d.tileId 6 .tierForeign
  else if mvOut d then
    let b := s.scr g c d.aAddr r.2.2.2
    let gone := if local? && r.2.1 == 2 then s.failedLines r.1 r.2.2.1 r.2.2.2 else 0
    if gone != 0 then ((s.countMissed r.1 gone false).writeRegion r.1 2 r.2.2.1 b).cellarMiss g c t false
    else if local? then s.moveInto g c d r.1 r.2.1 r.2.2.1 b
    else (s.sendLines g c d (mvModule d) r.1 r.2.1 r.2.2.1 b).moveDone g c d
  else if local? then (s.landMove g c d []).moveDone g c d
  else (s.askRemote g c d (mvModule d) r.1 r.2.1 r.2.2.1 d.k d.outAddr).park g c d

/-- A MOVE that lost lines (11 R245, R248). -/
def moveLost (g c : Nat) (s : State) (t : TileSlot) (bad : List Nat) (late : Bool) : State :=
  let d := t.desc
  let m := d.fmtB % 64
  if mvTier d == 1 then s.memoryLost g c d m (64 * mvLine d) (64 * d.k) bad
  else ((s.countMissed m bad.length late).landMove g c d bad).cellarMiss g c t late

/-- The lines a MOVE reads from a local tier. -/
def moveLines (s : State) (d : TileDesc) : Nat := if mvOut d || mvModule d != s.ownModule then 0 else d.k

/-! ### Pages (07 R139 to R143) -/

/-- The sequence of a vat that takes part in the step at a slot. -/
def stepSeq (s : State) (n slot : Nat) : Option Seqn := (s.vat n).seqs.find? fun x => x.slot == slot && x.active

/-- FILL of a position page: positions it held at the step's start and those the step appends (07 R141). -/
def pageFill (s : State) (n : Nat) (x : Seqn) (k : Nat) : Nat :=
  match look x.pages k with
  | none => 0
  | some id => max (s.page n id).fill (stepFill x k)

/-- A page of a clearing by its descriptor: its home's member and its number there (07 R143). -/
def descPage (s : State) (n : Nat) (q : PageDesc) : Nat := pow2 32 * s.homeOf n q.posPage + q.page
/-- The descriptor's page is homed on this module. -/
def descHere (s : State) (n : Nat) (q : PageDesc) : Bool := s.homeOf n q.posPage == s.ownMember n

/-- The module of a member of a spread by position. -/
def memberModule (s : State) (n k : Nat) : Nat :=
  match s.planOf n with
  | some p => if s.byPosition n then p.spreadMods.getD k s.ownModule else s.ownModule
  | none => s.ownModule

/-- The descriptor the warden makes for a position page of a sequence (07 R138, R141). -/
def pageDesc (s : State) (d : TileDesc) (x : Seqn) (k id : Nat) : PageDesc :=
  let n := d.clearing
  let r := s.page n id
  { modNo := s.memberModule n (s.homeOf n k), stack := s.sliceStack n id (s.sliceNo d),
    addr := s.sliceOff n id (s.sliceNo d) 0 / blockBytes / 12 * blockBytes + s.sliceOff n id (s.sliceNo d) 0 % blockBytes,
    page := id % pow2 32, fill := s.pageFill n x k, posPage := k, seq := pgSeq d, layer := pgLayer d, head := pgHead d,
    version := r.version, mixed := r.mixed, tail := x.pages.all fun p => p.1 ≤ k, shared := r.st == 2,
    units := s.sliceLen n / 4096, step := (s.clr n).stepNo % pow2 32 }

/-- The warden's walk of a sequence's page list over a range of position pages: one descriptor for each that exists and
holds a position, in ascending position page (07 R141). -/
def walk (s : State) (d : TileDesc) (ks : List Nat) : List PageDesc :=
  match s.stepSeq d.clearing (pgSeq d) with
  | none => []
  | some x => ks.filterMap fun k => (look x.pages k).bind fun id =>
      if s.pageFill d.clearing x k == 0 then none else some (s.pageDesc d x k id)

/-- The page feeder queue of a cell filled with descriptors (07 R138); with none it is empty. -/
def feedPages (s : State) (g c : Nat) (l : List PageDesc) : State :=
  s.setCell g c { s.cell g c with pageQ := l.map PageDesc.bytes }
/-- The descriptors that wait in a cell's page feeder queue. -/
def fedPages (s : State) (g c : Nat) : List PageDesc := (s.cell g c).pageQ.map readPage

/-- The position pages of a gather's range. -/
def gatherRange (d : TileDesc) : List Nat := (List.range (pgCount d)).map (· + pgFirst d)

/-- Where the parts of a slice start: keys (0), then values (1) (07 R134). -/
def partOff (s : State) (n part : Nat) : Nat := part * 256 * s.kvBytes n
/-- The parts a tile moves. -/
def pgParts (d : TileDesc) : List Nat := (if pgKeys d then [0] else []) ++ (if pgVals d then [1] else [])

/-- Positions of a part that a gather reads: keys below FILL, values in blocks of 32 (07 R140). -/
def readPositions (part fill : Nat) : Nat := if part == 0 then fill else ceilDiv fill 32 * 32

/-- The lines a gather reads of this module's memory: each one's page and region offset. -/
def gatherLines (s : State) (d : TileDesc) : List (Nat × Nat) :=
  let n := d.clearing
  ((s.walk d (gatherRange d)).filter (s.descHere n)).flatMap fun q => (pgParts d).flatMap fun part =>
    (List.range (ceilDiv (readPositions part q.fill * s.kvBytes n) 64)).map fun i =>
      (s.descPage n q, s.sliceOff n q.page (s.sliceNo d) (s.partOff n part + 64 * i))

/-- The place of a gather's line. -/
def gatherPlace (s : State) (d : TileDesc) (i : Nat) : Option Place :=
  ((s.gatherLines d)[i]?).map fun l => regionPlace 1 d.clearing l.2

/-- The bytes of a part of a slice of this module's pool, positions at or beyond `fill` as +0. -/
def pagePart (s : State) (n id slice part fill : Nat) : List Byte :=
  s.peek (regionAddr 1 n (s.sliceOff n id slice (s.partOff n part))) (fill * s.kvBytes n)

/-- Keys landed: position `t` of the range at OUT_ADDR + t × STRIDE_OUT. -/
def landKeys (s : State) (g c : Nat) (d : TileDesc) (keys : List Byte) : State :=
  let w := s.kvBytes d.clearing
  (List.range (256 * pgCount d)).foldl (fun s t => s.putCell g c (d.outAddr + t * d.strideOut) (slice keys (t * w) w)) s

/-- Values landed: element `e` of every position from B_ADDR + e × STRIDE_B on. -/
def landValues (s : State) (g c : Nat) (d : TileDesc) (vals : List Byte) : State :=
  let w := s.kvBytes d.clearing
  (List.range (w / 2)).foldl (fun s e =>
    s.putCell g c (d.bAddr + e * d.strideB) ((List.range (256 * pgCount d)).flatMap fun t => slice vals (t * w + 2 * e) 2)) s

/-- The bytes of a part over a gather's whole range: +0 wherever no page of the descriptors has a position below FILL. -/
def rangeBytes (s : State) (d : TileDesc) (part : Nat) (pages : List PageDesc) : List Byte :=
  let w := s.kvBytes d.clearing
  (List.range (pgCount d)).flatMap fun i =>
    match pages.find? fun q => q.posPage == pgFirst d + i with
    | some q => slice (s.pagePart d.clearing q.page (s.sliceNo d) part q.fill) 0 (256 * w)
    | none => zeros (256 * w)

/-- The bytes a gather reads of a page charged to the clearing (11 R238). -/
def chargePage (s : State) (d : TileDesc) (q : PageDesc) : State :=
  let n := d.clearing
  (pgParts d).foldl (fun s p =>
    s.chargeRange n 1 (s.sliceOff n q.page (s.sliceNo d) (s.partOff n p)) (readPositions p q.fill * s.kvBytes n)) s

/-- The name of a slice byte in another member's pool, as a tier-3 offset. -/
def sliceName (id slice off : Nat) : Nat := pow2 34 * (id % pow2 32) + pow2 18 * slice + off

/-- Reads of a page homed on another member issued (07 R143). -/
def askPage (s : State) (g c : Nat) (d : TileDesc) (q : PageDesc) : State :=
  let n := d.clearing
  (pgParts d).foldl (fun s part =>
    s.askRemote g c d q.modNo n 3 (sliceName q.page (s.sliceNo d) (s.partOff n part))
      (ceilDiv (readPositions part q.fill * s.kvBytes n) 64) (2 * q.posPage + part)) s

/-- What a gather lands from the descriptors of its queue, the pages of `gone` as +0; every page it read is charged. -/
def landGather (s : State) (g c : Nat) (d : TileDesc) (gone : List Nat) : State :=
  let n := d.clearing
  let pages := s.fedPages g c
  let read := pages.filter (s.descHere n)
  let here := read.filter fun q => !gone.contains (s.descPage n q)
  let valid := (pages.map (·.fill)).foldl (· + ·) 0
  let s1 := if pgKeys d then s.landKeys g c d (s.rangeBytes d 0 here) else s
  let s2 := if pgVals d then s1.landValues g c d (s.rangeBytes d 1 here) else s1
  read.foldl (fun s q => s.chargePage d q) (s2.putCell g c d.auxAddr (leBytes 4 valid))

/-- The end of a gather: its descriptors are consumed, and its slot is DONE, or it parks until its remote pages have
landed. -/
def gatherEnd (s : State) (g c : Nat) (d : TileDesc) : State :=
  let s1 := s.feedPages g c []
  match (s.fedPages g c).filter fun q => !s.descHere d.clearing q with
  | [] => s1.moveDone g c d
  | far => (far.foldl (fun s q => s.askPage g c d q) s1).park g c d

/-- A gather whose lines were read. -/
def gatherOk (g c : Nat) (s : State) (t : TileSlot) : State :=
  let s1 := s.feedPages g c (s.walk t.desc (gatherRange t.desc))
  (s1.landGather g c t.desc []).gatherEnd g c t.desc

/-- A gather that lost lines: every sequence holding such a page ends, and the index lets the page go (07 R158). -/
def gatherLost (g c : Nat) (s : State) (t : TileSlot) (bad : List Nat) (_late : Bool) : State :=
  let lines := s.gatherLines t.desc
  let ids := (bad.filterMap fun i => (lines[i]?).map (·.1)).eraseDups
  let s1 := s.feedPages g c (s.walk t.desc (gatherRange t.desc))
  ((ids.foldl (fun s id => s.losePage t.desc.clearing id) s1).landGather g c t.desc ids).gatherEnd g c t.desc

/-! ### Appends (07 R142) -/

/-- A page may be appended to from a position of it on: allocated to the sequence at the step's start or its tail, not
FULL and not SHARED, and the position one of the step's (07 R142, R148). -/
def mayAppend (s : State) (n : Nat) (x : Seqn) (id pos : Nat) : Bool :=
  let r := s.page n id
  r.st == 1 && r.fill < 256 && r.fill ≤ pos % 256 && x.pos ≤ pos && pos < x.pos + x.chunk

/-- The parts of a tile's append: the part, the first of its positions and their bytes. -/
def appendParts (s : State) (g c : Nat) (d : TileDesc) (x : Seqn) : List (Nat × Nat × List Byte) :=
  (pgParts d).map fun part =>
    (part, x.pos + (look x.appended (2 * s.sliceNo d + part)).getD 0,
      s.scr g c (if part == 0 then d.aAddr else d.bAddr) (pgCount d * s.kvBytes d.clearing))

/-- The pages and bytes an append writes: the page's descriptor, the offset in the slice and the bytes of one position. -/
def appendTo (s : State) (d : TileDesc) (x : Seqn) (pages : List PageDesc) (part from_ : Nat) (b : List Byte) :
    List (PageDesc × Nat × List Byte) :=
  let n := d.clearing
  let w := s.kvBytes n
  (List.range (pgCount d)).filterMap fun j =>
    (pages.find? fun q => q.posPage == (from_ + j) / 256).bind fun q =>
      if s.mayAppend n x (s.descPage n q) (from_ + j) then some (q, s.partOff n part + (from_ + j) % 256 * w, slice b (j * w) w)
      else none

/-- One position appended at the home of its page (07 R142, R143). -/
def appendAt (s : State) (g c : Nat) (d : TileDesc) (w : PageDesc × Nat × List Byte) : State :=
  let n := d.clearing
  if s.descHere n w.1 then s.writeRegion n 1 (s.sliceOff n w.1.page (s.sliceNo d) w.2.1) w.2.2
  else s.sendLines g c d w.1.modNo n 3 (sliceName w.1.page (s.sliceNo d) w.2.1) w.2.2

/-- The tokens of a position written to the token record of its page, where it is homed here, with the first part of slice 0
(11 R234; DESIGN CHOICE, log entry 28). -/
def appendToken (s : State) (d : TileDesc) (x : Seqn) (w : PageDesc × Nat × List Byte) : State :=
  let n := d.clearing
  let j := w.2.1 / s.kvBytes n % 256
  let pos := 256 * w.1.posPage + j
  if s.sliceNo d == 0 && s.descHere n w.1 && pos < x.tokens.length then
    (s.putTokens n (s.descPage n w.1) j [x.tokens.getD pos 0]).chargeRecord n (s.descPage n w.1) j 1
  else s

/-- The positions a part has appended in the step. -/
def noteAppended (s : State) (d : TileDesc) (part : Nat) : State :=
  match s.stepSeq d.clearing (pgSeq d) with
  | none => s
  | some x =>
    let key := 2 * s.sliceNo d + part
    s.setSeq d.clearing { x with appended := ins x.appended key ((look x.appended key).getD 0 + pgCount d) }

/-- A PAGE_APPEND: its positions go to the sequence's next ones; it waits while an open snapshot has a block of them to copy
(11 R251). -/
def appendOk (g c : Nat) (s : State) (t : TileSlot) : State :=
  let d := t.desc
  let n := d.clearing
  match s.stepSeq n (pgSeq d) with
  | none => s.moveDone g c d
  | some x =>
    let s1 := s.feedPages g c (s.walk d ((List.range (pgCount d / 256 + 2)).map (· + x.pos / 256)))
    let parts := s.appendParts g c d x
    let work := parts.flatMap fun p => s.appendTo d x (s1.fedPages g c) p.1 p.2.1 p.2.2
    let waits := work.filter fun w => s.descHere n w.1
      && !(s.uncopied n (s.sliceOff n w.1.page (s.sliceNo d) w.2.1) w.2.2.length).isEmpty
    if waits.isEmpty then
      let s2 := work.foldl (fun s w => s.appendAt g c d w) s1
      let first := match parts with
        | p :: _ => s.appendTo d x (s1.fedPages g c) p.1 p.2.1 p.2.2
        | [] => []
      let s3 := first.foldl (fun s w => s.appendToken d x w) s2
      ((parts.foldl (fun s p => s.noteAppended d p.1) s3).feedPages g c []).moveDone g c d
    else waits.foldl (fun s w => s.stallWrite n (s.sliceOff n w.1.page (s.sliceNo d) w.2.1) w.2.2.length []) s

/-! ### Turning units (10 R219, R224) -/

/-- A line of a WEIGHT_READ, in the unit's home at the beat in which the tile starts. -/
def weightPlace (s : State) (d : TileDesc) (i : Nat) : Option Place :=
  some (regionPlace 1 d.clearing (imageOff (s.unit d.clearing (wrUnit d)).home (64 * (wrLine d + i))))

/-- A WEIGHT_READ whose lines were read, counted among the unit's readers (10 R217). -/
def weightOk (g c : Nat) (s : State) (t : TileSlot) : State :=
  let d := t.desc
  let n := d.clearing
  let home := (s.unit n (wrUnit d)).home
  let s1 := s.putCell g c d.outAddr (s.readImage n home (64 * wrLine d) (64 * d.k))
  ((s1.chargeImage n home (64 * wrLine d) (64 * d.k)).countRead n (wrUnit d)).moveDone g c d

/-- A WEIGHT_READ that lost lines: the shards that hold them are fetched again, once, and the tile executes again (10
R224). -/
def weightLost (g c : Nat) (s : State) (t : TileSlot) (bad : List Nat) (_late : Bool) : State :=
  let d := t.desc
  let n := d.clearing
  let hit := (s.shardsOf n (wrUnit d)).filter fun e => bad.any fun i =>
    let off := 64 * (wrLine d + i)
    e.dstOffset ≤ off && off < e.dstOffset + e.length
  let s1 := (s.chargeImage n (s.unit n (wrUnit d)).home (64 * wrLine d) (64 * d.k)).chargeMove g c d
  hit.foldl (fun s e => s.shardLost n e.unit e.shard) s1

/-! ### Statistic pages and tier moves (06 R119, 11 R236) -/

/-- A SIDE_SAVE: the exact image of a side granule into its page. -/
def saveOk (g c : Nat) (s : State) (t : TileSlot) : State :=
  let d := t.desc
  s.moveInto g c d d.clearing 1 (64 * mvLine d) (s.peek (s.sideAddr g c (4096 * sdGranule d)) 4096)

/-- A SIDE_LOAD: a page into a side granule. -/
def loadOk (g c : Nat) (s : State) (t : TileSlot) : State :=
  let d := t.desc
  let r := s.readRegion d.clearing 1 (64 * mvLine d) 4096
  (r.2.putCell g c (0x100000 + 4096 * sdGranule d) r.1).moveDone g c d

/-- A SIDE_LOAD that lost a line of its page. -/
def loadLost (g c : Nat) (s : State) (t : TileSlot) (bad : List Nat) (_late : Bool) : State :=
  s.memoryLost g c t.desc t.desc.clearing (64 * mvLine t.desc) 4096 bad

/-- Whether both ends of a TIER_MOVE may be reached (11 R239). -/
def tierMay (s : State) (d : TileDesc) : Bool := (s.tierRanges d).all fun p => s.mayReach d.clearing p.1 p.2.1 p.2.2.1 p.2.2.2

/-- A TIER_MOVE whose lines were read. -/
def tierOk (g c : Nat) (s : State) (t : TileSlot) : State :=
  let d := t.desc
  let a := tmSrc d
  let b := tmDst d
  if !s.tierMay d then ((s.chargeMove g c d).abandon g c .move).stopPlan d.clearing g c d.tileId 6 .tierForeign
  else if b.2.1 == 1 && !(s.uncopied b.1 (64 * b.2.2) (64 * d.k)).isEmpty then s.stallWrite b.1 (64 * b.2.2) (64 * d.k) []
  else
    let r := s.readRegion a.1 a.2.1 (64 * a.2.2) (64 * d.k)
    let gone := if b.2.1 == 2 then s.failedLines b.1 (64 * b.2.2) (64 * d.k) else 0
    if gone != 0 then
      ((r.2.countMissed b.1 gone false).writeRegion b.1 2 (64 * b.2.2) r.1).againOrStop g c t .lost
    else r.2.moveInto g c d b.1 b.2.1 (64 * b.2.2) r.1

/-- A TIER_MOVE that lost lines: those of a cellar source land as +0, and the tile is executed once more, as a MOVE is
(11 R245; log entry 28). -/
def tierLost (g c : Nat) (s : State) (t : TileSlot) (bad : List Nat) (late : Bool) : State :=
  let d := t.desc
  let a := tmSrc d
  let b := tmDst d
  if a.2.1 == 1 then s.memoryLost g c d a.1 (64 * a.2.2) (64 * d.k) bad
  else
    let r := (s.countMissed a.1 bad.length late).readRegion a.1 a.2.1 (64 * a.2.2) (64 * d.k)
    (r.2.writeRegion b.1 b.2.1 (64 * b.2.2) (blankLines bad r.1)).againOrStop g c t (missName late)

/-- The result of a TRIGGER_POST (14 R309). -/
def triggerRes (_g _c : Nat) (_s : State) (ds : List TileDesc) : RunRes :=
  match ds with
  | [] => { beats := 0 }
  | d :: _ => { beats := 32, trig := some (bitsOf d.args 11 10, bitsOf d.args 9 0, bitsOf d.args 27 12) }

end State

/-- No line is read. -/
def noLines (_d : TileDesc) : Nat := 0
/-- No line has a place. -/
def noPlace (_d : TileDesc) (_i : Nat) : Option Place := none
/-- A tile that reads no line loses none. -/
def noLoss (s : State) (_t : TileSlot) (_bad : List Nat) (_late : Bool) : State := s

/-- MOVE (11 R235, R238, R239, R245, R248, R251; 12 R277). -/
def execMove (g c : Nat) (o : RunEnv) (s : State) : Ans :=
  inRange (wfCell g c) s (s.runMove g c 0xA0 o s.moveLines
    (fun d i => some (regionPlace (mvTier d) (d.fmtB % 64) (64 * (mvLine d + i)))) (State.moveOk g c) (State.moveLost g c))

/-- PAGE_GATHER (07 R140, R141, R143, R158). -/
def execPageGather (g c : Nat) (o : RunEnv) (s : State) : Ans :=
  inRange (wfCell g c) s
    (s.runMove g c 0xA1 o (fun d => (s.gatherLines d).length) s.gatherPlace (State.gatherOk g c) (State.gatherLost g c))

/-- PAGE_APPEND (07 R142). -/
def execPageAppend (g c : Nat) (o : RunEnv) (s : State) : Ans :=
  inRange (wfCell g c) s (s.runMove g c 0xA2 o noLines noPlace (State.appendOk g c) noLoss)

/-- WEIGHT_READ (10 R219, R224). -/
def execWeightRead (g c : Nat) (o : RunEnv) (s : State) : Ans :=
  inRange (wfCell g c) s (s.runMove g c 0xA3 o (·.k) s.weightPlace (State.weightOk g c) (State.weightLost g c))

/-- SIDE_SAVE (06 R119, 11 R236). -/
def execSideSave (g c : Nat) (o : RunEnv) (s : State) : Ans :=
  inRange (wfCell g c) s (s.runMove g c 0xA4 o noLines noPlace (State.saveOk g c) noLoss)

/-- SIDE_LOAD (06 R119, 11 R236). -/
def execSideLoad (g c : Nat) (o : RunEnv) (s : State) : Ans :=
  inRange (wfCell g c) s (s.runMove g c 0xA5 o (·.k)
    (fun d i => some (regionPlace 1 d.clearing (64 * (mvLine d + i)))) (State.loadOk g c) (State.loadLost g c))

/-- TIER_MOVE (11 R236, R238, R239, R243). -/
def execTierMove (g c : Nat) (o : RunEnv) (s : State) : Ans :=
  inRange (wfCell g c) s (s.runMove g c 0xA6 o (·.k)
    (fun d i => some (regionPlace (tmSrc d).2.1 (tmSrc d).1 (64 * ((tmSrc d).2.2 + i)))) (State.tierOk g c)
      (State.tierLost g c))

/-- A local cellar read of a clearing that serves a sequence slot and has been under way for CELLAR_LATE_US: the cell
and the running slot. -/
def State.lateRead (s : State) (n slot : Nat) : Option (Nat × Nat × TileSlot) :=
  s.cells.findSome? fun p =>
    (p.2.slots.find? fun t => t.st == .running && t.desc.clearing == n && t.desc.kind == 0xA0 && mvTier t.desc == 2
      && mvSeq t.desc == some slot && mvModule t.desc == s.ownModule && t.since + 1000 * s.rd 0x4C00 1 ≤ s.time).map fun t =>
        (p.1 / 256, p.1 % 256, t)

/-- CELLAR_LATE: a cellar line did not land within CELLAR_LATE_US of its issue. The MOVE that serves a sequence
completes with the line as +0; a resume of the step in flight ends its request (11 R245). -/
def execCellarLate (n slot line : Nat) (s : State) : Ans :=
  let resumed := (s.clr n).inStep && (s.clr n).stepAt + 1000 * s.rd 0x4C00 1 ≤ s.time
    && (s.vat n).seqs.any fun x => x.slot == slot && x.active && x.req.resumeTag != 0
  let k := match s.lateRead n slot with
    | some (g, c, t) => if line < t.desc.k then State.moveLost g c s t [line] true else s
    | none => if resumed then (s.countMissed n 1 true).faultSeq n slot (State.missCode true) else s
  inRange (wfClearing n) s (onlyIf (s.exists? n) s k)

/-- TRIGGER_POST (14 R309). -/
def execTriggerPost (g c : Nat) (o : RunEnv) (s : State) : Ans :=
  inRange (wfCell g c) s (s.runCompute g c 0x50 o (State.triggerRes g c))

end Sys2Proof.Machine
end

