-- ==== Sys2Proof/Machine/Row.lean ====
section
/-! DEFINITION. Row tiles: root-mean-square normalisation, soft maximum, their backward kinds, and row variance (06 R108
to R119, R474). -/

namespace Sys2Proof.Machine

/-! ### The parameter line (06 R110, R474) -/

/-- PARAM as FP32 bits: EPS or SCALE. -/
def lineParam (l : List Byte) : Nat := field l 0 4
/-- STREAM. -/
def lineStream (l : List Byte) : Nat := field l 4 2 % 4096
/-- VALID_LEN. -/
def lineValid (l : List Byte) : Bool := bitOf (field l 6 2) 0
/-- ROW_BASE. -/
def lineRow (l : List Byte) : Nat := field l 8 4
/-- COL_BASE. -/
def lineCol (l : List Byte) : Nat := field l 12 4
/-- GAIN_ADDR. -/
def lineGain (l : List Byte) : Nat := field l 16 4

/-- No reserved field of a row tile's line is set, and no firmware stream is named by a tile that draws. DEDUCED:
GAIN_ADDR, which the table gives a use for the RMS kinds only, must be 0 for the others (log entry 29). -/
def rowLineOk (kind : Nat) (draws : Bool) (l : List Byte) : Bool :=
  let rms := kind == 0x20 || kind == 0x21
  let soft := kind == 0x22 || kind == 0x23
  allZero (slice l 20 44) && field l 4 2 < 4096 && field l 6 2 < (if soft then 2 else 1) && lineRow l < pow2 28
    && lineCol l < pow2 24 && (if rms then lineGain l < pow2 20 else lineGain l == 0)
    && (rms || soft || lineParam l == 0) && !(draws && 0xF00 ≤ lineStream l)

/-! ### One row -/

/-- The exponent of the leading one of a magnitude: −1,000 for zero, 128 for infinities and NaN (06 R113). -/
def expo (b : Nat) : Int :=
  match f32 b with
  | .fin s m e => ((FV.fin s m e).log2).getD (-1000)
  | _ => 128

/-- `x * 2^k`, rounded to nearest even where it is subnormal. -/
def ldexp (b : Nat) (k : Int) : Nat := toF32 (FV.mul (f32 b) (two k))

/-- The larger of two FP32 values: NaN when either is NaN, +0 above −0 (09 R195; the order the parallel maximum of 06
R117 has). -/
def fmax (a b : Nat) : Nat :=
  if f32 a == .nan || f32 b == .nan then nanBits
  else if FV.isZero (f32 a) && FV.isZero (f32 b) then (if a.testBit 31 then b else a)
  else if flt a b then b else a

/-- The smaller of two FP32 values: NaN when either is NaN, −0 below +0. -/
def fmin (a b : Nat) : Nat :=
  if f32 a == .nan || f32 b == .nan then nanBits
  else if FV.isZero (f32 a) && FV.isZero (f32 b) then (if a.testBit 31 then a else b)
  else if flt b a then b else a

/-- −∞. -/
abbrev negInf : Nat := 0xFF800000
/-- LOG2E of 06 R117. -/
abbrev log2e : Nat := 0x3FB8AA3B

/-- What a row works with: its slice, the incoming gradient, the gain slice, which elements take part, and its state: the
working words w0 to w3 and the two statistic words. -/
structure RowIn where
  x : List Nat
  dy : List Nat
  gain : List Nat
  valid : List Bool
  param : Nat
  rowLen : Nat
  sfn : SfnImage
  ad08 : Bool
  first : Bool
  last : Bool

/-- A row's working and statistic words, and its output once the last pass has run. -/
structure RowSt where
  w0 : Nat
  w1 : Nat
  w2 : Nat
  w3 : Nat
  st0 : Nat
  st1 : Nat
  out : List Nat := []

/-- Root-mean-square normalisation, one pass (06 R113): a row that holds an infinity and no NaN has the root +∞, as
its text says. -/
def rmsPass (r : RowIn) (pass : Nat) (w : RowSt) : RowSt :=
  match pass with
  | 1 =>
    let mag0 := if r.first then fabs (r.x.headD 0) else w.w3
    let e0 : Int := if r.first then -1000 else i32Val w.w0
    let same := r.x.all fun x => fabs x == mag0 && f32 x != .nan
    let uni := (r.first || bitOf w.w2 0) && same
    let e := r.x.foldl (fun a x => max a (expo x)) e0
    { w with w0 := i32 e, w2 := if uni then 1 else 0, w3 := mag0 }
  | 2 =>
    let e := i32Val w.w0
    let s := r.x.foldl (fun a x => fadd a (fmul (ldexp x (-e)) (ldexp x (-e)))) (if r.first then 0 else w.w1)
    if !r.last then { w with w1 := s }
    else if bitOf w.w2 0 && FV.isZero (f32 r.param) then { w with w1 := s, st0 := recip r.sfn r.ad08 w.w3, st1 := 0 }
    else
      let e1 : Int := if e == -1000 then 0 else e
      let mean := fadd (fdiv s (f32OfNat r.rowLen)) (ldexp r.param (-2 * e1))
      let t := rsqrt r.sfn r.ad08 mean
      let rms := if e == 128 && mean == infBits then infBits else ldexp (fmul mean t) e1
      { w with w0 := i32 e1, w1 := s, w3 := rms, st0 := ldexp t (-e1), st1 := 0 }
  | _ =>
    let y (x gain : Nat) : Nat := if w.st0 == infBits then x / pow2 31 * pow2 31 else fmul (fmul x w.st0) gain
    { w with out := (r.x.zip r.gain).map fun p => y p.1 p.2 }

/-- Its backward kind (06 R118). -/
def rmsBwdPass (r : RowIn) (pass : Nat) (w : RowSt) : RowSt :=
  let l := r.x.zip (r.gain.zip r.dy)
  match pass with
  | 1 => { w with w0 := l.foldl (fun d p => ffma (fmul p.2.1 p.2.2) p.1 d) (if r.first then 0 else w.w0) }
  | _ =>
    let rr := w.st0
    let k := fmul (fmul (fmul rr rr) rr) (fdiv w.w0 (f32OfNat r.rowLen))
    { w with out := l.map fun p => fsub (fmul rr (fmul p.2.1 p.2.2)) (fmul p.1 k) }

/-- term(k) of 06 R117 under a maximum: +0 throughout under −∞, and 1 only at +∞ under +∞. -/
def softTerm (r : RowIn) (m x : Nat) : Nat :=
  let v := fmul r.param x
  if m == negInf then 0
  else if m == infBits then (if v == infBits then oneBits else 0)
  else exp2 r.sfn r.ad08 (fmul (fsub v m) log2e)

/-- The probability of a valid element, in FP32 (06 R117, pass 3). -/
def softProb (r : RowIn) (m s x : Nat) : Nat := if m == negInf then 0 else fmul (softTerm r m x) (fdiv oneBits s)

/-- Soft maximum, one pass (06 R117). -/
def softPass (r : RowIn) (pass : Nat) (w : RowSt) : RowSt :=
  let l := r.x.zip r.valid
  match pass with
  | 1 => { w with w0 := l.foldl (fun m p => if p.2 then fmax m (fmul r.param p.1) else m) (if r.first then negInf else w.w0) }
  | 2 =>
    let s := l.foldl (fun s p => if p.2 then fadd s (softTerm r w.w0 p.1) else s) (if r.first then 0 else w.w1)
    if r.last then { w with w1 := s, st0 := w.w0, st1 := s } else { w with w1 := s }
  | _ => { w with out := l.map fun p => if p.2 then softProb r w.st0 w.st1 p.1 else 0 }

/-- Its backward kind (06 R118). -/
def softBwdPass (r : RowIn) (pass : Nat) (w : RowSt) : RowSt :=
  let l := r.x.zip (r.dy.zip r.valid)
  let y (x : Nat) : Nat := softProb r w.st0 w.st1 x
  match pass with
  | 1 => { w with w0 := l.foldl (fun d p => if p.2.2 then ffma (y p.1) p.2.1 d else d) (if r.first then 0 else w.w0) }
  | _ => { w with out := l.map fun p => if p.2.2 then fmul (fmul (y p.1) (fsub p.2.1 w.w0)) r.param else 0 }

/-- Row variance, one pass; the variance is the output of the last slice of pass 2 (06 R116). -/
def variancePass (r : RowIn) (pass : Nat) (w : RowSt) : RowSt :=
  match pass with
  | 1 =>
    let x0 := if r.first then r.x.headD 0 else w.w0
    let a := r.x.foldl (fun a x => fadd a (fsub x x0)) (if r.first then 0 else w.w1)
    { w with w0 := x0, w1 := a, w2 := if r.last then fdiv a (f32OfNat r.rowLen) else w.w2 }
  | _ =>
    let v := r.x.foldl (fun v x => let d := fsub (fsub x w.w0) w.w2; fadd v (fmul d d)) (if r.first then 0 else w.w1)
    { w with w1 := v, out := if r.last then [fdiv v (f32OfNat r.rowLen)] else [] }

/-- The pass function of a row kind. -/
def passOf (kind : Nat) : RowIn → Nat → RowSt → RowSt :=
  match kind with
  | 0x20 => rmsPass
  | 0x21 => rmsBwdPass
  | 0x22 => softPass
  | 0x23 => softBwdPass
  | _ => variancePass

namespace State

/-- A row of the tile as its passes see it. -/
def rowIn (s : State) (g c : Nat) (d : TileDesc) (line : List Byte) (i : Nat) : RowIn :=
  let len := if lineValid line then s.scr32 g c (d.auxAddr + 64 + 4 * i) else pow2 32
  { x := s.scrF32 g c (d.aAddr + i * d.strideA) d.fmtA d.k,
    dy := if d.kind == 0x21 || d.kind == 0x23 then s.scrF32 g c (d.bAddr + i * d.strideB) d.fmtB d.k else [],
    gain := if d.kind == 0x20 || d.kind == 0x21 then s.scrF32 g c (lineGain line) 0 d.k else [],
    valid := (List.range d.k).map fun k => lineCol line + k < len,
    param := lineParam line, rowLen := rowLen d, sfn := s.sfn, ad08 := s.frc 0x3022 d.clearing == 1,
    first := rowFirst d, last := rowLast d }

/-- A row's words in side memory at the tile's start (06 R109, R112). -/
def rowSt (s : State) (g c : Nat) (d : TileDesc) (i : Nat) : RowSt :=
  let w := s.peek (s.sideAddr g c (8 * (workRow d + 2 * i))) 16
  let t := s.peek (s.sideAddr g c (8 * (statRow d + i))) 8
  { w0 := field w 0 4, w1 := field w 4 4, w2 := field w 8 4, w3 := field w 12 4, st0 := field t 0 4, st1 := field t 4 4 }

/-- One row run through the tile's passes: its output, its side writes and its tally. -/
def runRow (s : State) (g c : Nat) (d : TileDesc) (line : List Byte) (i : Nat) :
    List (Nat × List Byte) × List (Nat × List Byte) × Tally :=
  let w := (passesRun d).foldl (fun w p => passOf d.kind (s.rowIn g c d line i) p w) (s.rowSt g c d i)
  let side := [(8 * (workRow d + 2 * i), leBytes 4 w.w0 ++ leBytes 4 w.w1 ++ leBytes 4 w.w2 ++ leBytes 4 w.w3)]
    ++ (if d.kind == 0x24 then [] else [(8 * (statRow d + i), leBytes 4 w.st0 ++ leBytes 4 w.st1)])
  if d.kind == 0x24 then ((w.out.map fun v => (d.outAddr + 4 * i, leBytes 4 v)), side, {})
  else if !writesRow d then ([], side, {})
  else
    let base := (lineRow line + i) * pow2 24 + lineCol line
    let r := convertRow d.fmtOut (s.drawsFor d.clearing g d.fmtOut (lineStream line) base) (w.out.map f32)
    ([(d.outAddr + i * d.strideOut, r.1)], side, tallyRow d.fmtOut r.2)

/-- The result of a row tile: its line checked at its start, its rows in order, its side writes at its end (06 R111,
R474). -/
def rowRes (g c : Nat) (s : State) (ds : List TileDesc) : RunRes :=
  match ds with
  | [] => { beats := 0 }
  | d :: _ =>
    let line := s.scr g c d.auxAddr 64
    let l := (List.range (rowCount d)).map (s.runRow g c d line)
    { scr := l.flatMap (·.1), side := l.flatMap (·.2.1), tally := (l.map (·.2.2)).foldl Tally.plus {},
      beats := s.worstBeats g c d, lineOk := rowLineOk d.kind (s.draws d) line }

end State

/-- RMS_NORM (06 R113 to R115). -/
def execRmsNorm (g c : Nat) (o : RunEnv) (s : State) : Ans :=
  inRange (wfCell g c) s (s.runCompute g c 0x20 o (State.rowRes g c))

/-- RMS_NORM_BWD (06 R118). -/
def execRmsNormBwd (g c : Nat) (o : RunEnv) (s : State) : Ans :=
  inRange (wfCell g c) s (s.runCompute g c 0x21 o (State.rowRes g c))

/-- SOFTMAX (06 R117). -/
def execSoftmax (g c : Nat) (o : RunEnv) (s : State) : Ans :=
  inRange (wfCell g c) s (s.runCompute g c 0x22 o (State.rowRes g c))

/-- SOFTMAX_BWD (06 R118). -/
def execSoftmaxBwd (g c : Nat) (o : RunEnv) (s : State) : Ans :=
  inRange (wfCell g c) s (s.runCompute g c 0x23 o (State.rowRes g c))

/-- ROW_VARIANCE (06 R116). -/
def execRowVariance (g c : Nat) (o : RunEnv) (s : State) : Ans :=
  inRange (wfCell g c) s (s.runCompute g c 0x24 o (State.rowRes g c))

/-! ### Function tiles (06 R120; 05 R103, R104) -/

namespace State

/-- A function tile's line: nothing but MASK's probability may be set (06 R110, R474). -/
def functionLineOk (s : State) (g c : Nat) (d : TileDesc) : Bool :=
  let l := s.scr g c d.auxAddr 64
  allZero (l.drop 4) && lineParam l < (if d.kind == 0x81 then pow2 16 else 1)

/-- The result of a FUNC_APPLY tile (06 R120 to R124). -/
def funcRes (g c : Nat) (s : State) (ds : List TileDesc) : RunRes :=
  match ds with
  | [] => { beats := 0 }
  | d :: _ =>
    let xs := (s.scrF32 g c d.aAddr d.fmtA d.k).map fun x => f32 (s.applyFn d.clearing d.fmtB x)
    { s.vectorRes g c d xs with lineOk := s.functionLineOk g c d }

/-- The result of a MASK tile: bit n is 1 when draw bits [15:0] are below the probability (05 R103). -/
def maskRes (g c : Nat) (s : State) (ds : List TileDesc) : RunRes :=
  match ds with
  | [] => { beats := 0 }
  | d :: _ =>
    let p := s.scr32 g c d.auxAddr % pow2 16
    let bit (i : Nat) : Nat := if s.draw d.clearing g (argStream d) (indexBase d + i) % pow2 16 < p then 1 else 0
    let byte (b : Nat) : Byte := BitVec.ofNat 8 (((List.range 8).map fun i => bit (8 * b + i) * pow2 i).foldl (· + ·) 0)
    { scr := [(d.outAddr, (List.range (d.k / 8)).map byte)], beats := s.worstBeats g c d,
      lineOk := s.functionLineOk g c d }

/-- The result of a RAW_WORDS tile: draw bits [31:0] (05 R104). -/
def rawRes (g c : Nat) (s : State) (ds : List TileDesc) : RunRes :=
  match ds with
  | [] => { beats := 0 }
  | d :: _ =>
    { scr := [(d.outAddr, (List.range d.k).flatMap fun i =>
        leBytes 4 (s.draw d.clearing g (argStream d) (indexBase d + i) % pow2 32))],
      beats := s.worstBeats g c d, lineOk := s.functionLineOk g c d }

end State

/-- FUNC_APPLY (06 R120 to R133). -/
def execFuncApply (g c : Nat) (o : RunEnv) (s : State) : Ans :=
  inRange (wfCell g c) s (s.runCompute g c 0x80 o (State.funcRes g c))

/-- MASK (05 R103; 06 R120). -/
def execMask (g c : Nat) (o : RunEnv) (s : State) : Ans :=
  inRange (wfCell g c) s (s.runCompute g c 0x81 o (State.maskRes g c))

/-- RAW_WORDS (05 R104; 06 R120). -/
def execRawWords (g c : Nat) (o : RunEnv) (s : State) : Ans :=
  inRange (wfCell g c) s (s.runCompute g c 0x82 o (State.rawRes g c))

end Sys2Proof.Machine
end

