-- ==== Sys2Proof/Machine/Press.lean ====
section
/-! DEFINITION. The press's update tiles and block preconditioning (09 R191 to R207). -/

namespace Sys2Proof.Machine

/-! ### Element and scalar programs (09 R194 to R197, R201) -/

/-- A value passed on by an instruction, a NaN canonical (04 R72). -/
def passOn (b : Nat) : Nat := toF32 (f32 b)

/-- What an instruction computes from its three sources (09 R195). -/
def uAlu (op a b c : Nat) : Nat :=
  match op with
  | 1 => fadd a b
  | 2 => fsub a b
  | 3 => fmul a b
  | 4 => ffma a b c
  | 5 => fdiv a b
  | 6 => fsqrt a
  | 7 => fmax a b
  | 8 => fmin a b
  | 9 => fabs a
  | 10 => fneg a
  | 11 => if f32 a == .nan || FV.isZero (f32 a) then passOn a else if a.testBit 31 then 0xBF800000 else oneBits
  | _ => if flt 0 a then passOn b else passOn c

/-- An instruction run on the registers and the four statistic sums. -/
def uStep (x : List Nat × List Nat) (w : Nat) : List Nat × List Nat :=
  let a := x.1.getD (uA w) 0
  let slot := w % 4
  if uOp w == 13 then (x.1, x.2.set slot (fadd (x.2.getD slot 0) (fmul a a)))
  else if uOp w == 14 then (x.1, x.2.set slot (fadd (x.2.getD slot 0) a))
  else (x.1.set (uD w) (uAlu (uOp w) a (x.1.getD (uB w) 0) (x.1.getD (uC w) 0)), x.2)

/-- The instructions of a pass run in program order. -/
def runProgram (prog : List Nat) (pass : Nat) (x : List Nat × List Nat) : List Nat × List Nat :=
  (prog.filter fun w => uPass w &&& pass != 0).foldl uStep x

/-- The nine rule parameters K0 to K8 of a parameter area (09 R193). -/
def areaK (area : List Byte) : List Nat := (List.range 9).map fun i => field area (64 + 4 * i) 4

/-- Some of the values is NaN or infinite. -/
def anyNonfinite (l : List Nat) : Bool := l.any fun b => !FV.isFin (f32 b)

/-- Byte offset of an element's MASTER in its block's state: groups of 16 elements, 192 bytes each (09 R191). -/
def groupOff (e : Nat) : Nat := e / 16 * 192 + e % 16 * 4

/-- The registers of an element at program start (09 R194). -/
def elementRegs (grad state ks : List Byte) (e : Nat) : List Nat :=
  [field grad (4 * e) 4, field state (groupOff e) 4, field state (groupOff e + 64) 4, field state (groupOff e + 128) 4, 0, 0, 0]
    ++ (List.range 9).map fun i => field ks (4 * i) 4

/-- The state of a block with the words W, M and V of its elements, in element order (09 R191). -/
def packState (l : List (Nat × Nat × Nat)) : List Byte :=
  (List.range 64).flatMap fun g =>
    let grp := (l.drop (16 * g)).take 16
    (grp.flatMap fun x => leBytes 4 x.1) ++ (grp.flatMap fun x => leBytes 4 x.2.1) ++ grp.flatMap fun x => leBytes 4 x.2.2

namespace State

/-- A block of an update tile is treated as frozen (09 R198, R202). -/
def blockFrozen (s : State) (d : TileDesc) (area : List Byte) (b : Nat) : Bool :=
  (s.masksOn d.clearing && field area (128 + b) 1 == 1) || (d.kind == 0x61 && anyNonfinite (areaK area))

/-- The gradient and the state of a block. -/
def blockData (s : State) (g c : Nat) (d : TileDesc) (b : Nat) : List Byte × List Byte :=
  (s.scr g c (d.aAddr + 4096 * b) 4096, s.scr g c (d.bAddr + 12288 * b) 12288)

/-! ### Pass 1 (09 R197) -/

/-- The four sums of one lane over the tile's blocks in ascending block and element order. -/
def laneSums (s : State) (g c : Nat) (d : TileDesc) (area : List Byte) (lane : Nat) : List Nat :=
  ((List.range (blockCount d)).filter fun b => !s.blockFrozen d area b).foldl (fun sums b =>
    let x := s.blockData g c d b
    (List.range 16).foldl (fun sums k =>
      (runProgram (program area) 1 (elementRegs x.1 x.2 (slice area 64 36) (64 * k + lane), sums)).2) sums) [0, 0, 0, 0]

/-- The result of an UPDATE_P1 tile: Σ0 to Σ3, each over lanes 0 to 63 in ascending order. -/
def updateP1Res (g c : Nat) (s : State) (ds : List TileDesc) : RunRes :=
  match ds with
  | [] => { beats := 0 }
  | d :: _ =>
    let area := s.area g c d
    let lanes := (List.range 64).map (s.laneSums g c d area)
    let sum (slot : Nat) : Nat := lanes.foldl (fun a l => fadd a (l.getD slot 0)) 0
    let live := ((List.range (blockCount d)).filter fun b => !s.blockFrozen d area b).length
    { scr := [(d.outAddr, slice ((List.range 4).flatMap fun k => leBytes 4 (sum k)) 0 64)],
      beats := 104 + blockCount d * 16 + live * passCost area 1 }

/-! ### Pass 2 (09 R197, R198) -/

/-- A master converted to BF16: round to nearest even with no draw in a frozen block, else under the clearing's rounding
mode, at the element's logical index. -/
def sideOutput (s : State) (g : Nat) (d : TileDesc) (area : List Byte) (b e w : Nat) (frozen : Bool) : Nat × ConvClass :=
  let idx := (field area 192 4 + e / 32) * pow2 24 + field area 196 4 + 32 * b + e % 32
  convertTo bf16 false (srBits 1)
    (if frozen then none else s.drawsFor d.clearing g 1 (field area 200 2 % 4096) idx 0) (f32 w)

/-- One block of pass 2: its writes and its tally. -/
def updateBlock (s : State) (g c : Nat) (d : TileDesc) (area : List Byte) (b : Nat) : List (Nat × List Byte) × Tally :=
  let x := s.blockData g c d b
  let frozen := s.blockFrozen d area b
  let regs (e : Nat) : List Nat :=
    let r := elementRegs x.1 x.2 (slice area 64 36) e
    if frozen then r else (runProgram (program area) 2 (r, [0, 0, 0, 0])).1
  let all := (List.range 1024).map regs
  let wmv := all.map fun r => (r.getD 1 0, r.getD 2 0, r.getD 3 0)
  let outs := ((List.range 1024).zip wmv).map fun p => s.sideOutput g d area b p.1 p.2.1 frozen
  let code (i j : Nat) : List Byte := leBytes 2 ((outs.map (·.1)).getD (32 * i + j) 0)
  let fwd := (List.range 32).map fun i =>
    (field area 204 4 + i * field area 208 4 + 64 * b, (List.range 32).flatMap fun j => code i j)
  let bwd := (List.range 32).map fun j =>
    (field area 212 4 + (32 * b + j) * field area 216 4, (List.range 32).flatMap fun i => code i j)
  ((d.outAddr + 12288 * b, if frozen then x.2 else packState wmv) :: fwd ++ bwd, tallyRow 1 (outs.map (·.2)))

/-- The result of an UPDATE_P2 tile. -/
def updateP2Res (g c : Nat) (s : State) (ds : List TileDesc) : RunRes :=
  match ds with
  | [] => { beats := 0 }
  | d :: _ =>
    let area := s.area g c d
    let l := (List.range (blockCount d)).map (s.updateBlock g c d area)
    let frozen := ((List.range (blockCount d)).filter (s.blockFrozen d area)).length
    { scr := l.flatMap (·.1), tally := (l.map (·.2)).foldl Tally.plus {},
      beats := 40 + blockCount d * 32 + (blockCount d - frozen) * passCost area 2, press := [(3, frozen)],
      skipRan := anyNonfinite (areaK area) }

/-! ### Scalars (09 R201, R202) -/

/-- The result of an UPDATE_SCALARS tile: the scalar line with K6 to K8 computed from the totals. -/
def scalarsRes (g c : Nat) (s : State) (ds : List TileDesc) : RunRes :=
  match ds with
  | [] => { beats := 0 }
  | d :: _ =>
    let area := s.scr g c d.auxAddr 128
    let tot := s.scr g c d.aAddr 16
    let regs := [0, 0, 0, 0] ++ ((List.range 4).map fun i => field tot (4 * i) 4)
      ++ ((List.range 7).map fun i => field area (100 + 4 * i) 4) ++ [oneBits]
    let r := (runProgram (program area) 3 (regs, [0, 0, 0, 0])).1
    let line := overwrite (slice area 64 64) 24 (leBytes 4 (r.getD 0 0) ++ leBytes 4 (r.getD 1 0) ++ leBytes 4 (r.getD 2 0))
    { scr := [(d.outAddr, line)], beats := s.worstBeats g c d,
      skip := anyNonfinite ((List.range 9).map fun i => field line (4 * i) 4), totals := true }

end State

/-! ### Block preconditioning (09 R203 to R206) -/

/-- Rows of a 128 × 128 FP32 matrix. -/
abbrev Mat := List (List Nat)

/-- A matrix stored row-major; column-major is its transpose. -/
def readMat (b : List Byte) : Mat := (List.range 128).map fun r => (List.range 128).map fun k => field b (512 * r + 4 * k) 4
/-- The bytes of rows. -/
def matBytes (m : Mat) : List Byte := m.flatMap fun r => r.flatMap (leBytes 4)
/-- Element (i, j). -/
def Mat.at_ (m : Mat) (i j : Nat) : Nat := (m.getD i []).getD j 0
/-- The transpose. -/
def Mat.flip (m : Mat) : Mat := (List.range 128).map fun i => (List.range 128).map fun j => m.at_ j i
/-- The identity. -/
def identity128 : Mat := (List.range 128).map fun i => (List.range 128).map fun j => if i == j then oneBits else 0

/-- Dot product added up from +0 in ascending index, fused (09 R203). -/
def dot (p q : List Nat) : Nat := (p.zip q).foldl (fun a x => ffma x.1 x.2 a) 0

/-- A column of the factor (09 R205, step 2): the entries of A's column, the columns of L so far, the pivot floor. It
answers the column and whether its pivot was clamped. -/
def cholColumn (a : List Nat) (cols : List (List Nat)) (floorB j : Nat) : List Nat × Bool :=
  let sOf (i : Nat) : Nat := cols.foldl (fun s l => ffma (fneg (l.getD i 0)) (l.getD j 0) s) (a.getD i 0)
  let p := sOf j
  let clamp := f32 p == .nan || FV.le (f32 p) (f32 floorB)
  let root := fsqrt (if clamp then floorB else p)
  ((List.range 128).map fun i => if i < j then 0 else if i == j then root else fdiv (sOf i) root, clamp)

/-- Columns from `j` on, `n` of them; and the pivots clamped. -/
def cholColumns (a : Mat) (floorB : Nat) : Nat → Nat → List (List Nat) → Nat → List (List Nat) × Nat
  | 0, _, cols, k => (cols, k)
  | n + 1, j, cols, k =>
    let r := cholColumn ((List.range 128).map fun i => a.at_ i j) cols floorB j
    cholColumns a floorB n (j + 1) (cols ++ [r.1]) (if r.2 then k + 1 else k)

/-- The sum over rows of each row's sum of squares, both in ascending order (09 R205, step 4). -/
def frobenius (m : Mat) : Nat := m.foldl (fun n r => fadd n (r.foldl (fun a x => fadd a (fmul x x)) 0)) 0

namespace State

/-- The matrix at a scratchpad address. -/
def matAt (s : State) (g c a : Nat) : Mat := readMat (s.scr g c a 0x10000)
/-- STATUS of a tile's status line. -/
def pcStatus (s : State) (g c : Nat) (d : TileDesc) : Nat := s.scr32 g c d.auxAddr
/-- NONFINITE is set: the tile writes the identity (09 R206). -/
def pcNonfinite (s : State) (g c : Nat) (d : TileDesc) : Bool := bitOf (s.pcStatus g c d) 1

/-- The result of PRECOND_PREP: A = S + FLOOR × I from the diagonal and the upper triangle of S (09 R205, step 1). -/
def prepRes (g c : Nat) (s : State) (ds : List TileDesc) : RunRes :=
  match ds with
  | [] => { beats := 0 }
  | d :: _ =>
    let m := s.matAt g c d.aAddr
    let diag := (List.range 128).map fun i => m.at_ i i
    let dMax := (diag.drop 1).foldl fmax (diag.headD 0)
    let eps := bitsOf d.args 63 32
    let low := fmul eps dMax
    let bad := (anyNonfinite ((List.range 128).flatMap fun i => (m.getD i []).drop i)) || !flt 0 dMax
    let a : Mat := (List.range 128).map fun i => (List.range 128).map fun j =>
      if i == j then fadd (m.at_ i i) low else if i < j then m.at_ i j else m.at_ j i
    let line := leBytes 4 (if bad then 2 else 0) ++ leBytes 4 dMax ++ leBytes 4 low ++ leBytes 4 eps
      ++ leBytes 2 (bitsOf d.args 31 20) ++ zeros 46
    { scr := [(d.outAddr, matBytes (if bad then identity128 else a)), (d.auxAddr, line)], beats := 360,
      press := if bad then [(7, 1)] else [] }

/-- The result of PRECOND_CHOL: the columns of one quarter of L (09 R205, step 2). -/
def cholRes (g c : Nat) (s : State) (ds : List TileDesc) : RunRes :=
  match ds with
  | [] => { beats := 0 }
  | d :: _ =>
    let q := bitsOf d.args 63 62
    let st := s.pcStatus g c d
    let before := (readMat (s.scr g c d.bAddr (0x4000 * q))).take (32 * q)
    let r := cholColumns (s.matAt g c d.aAddr) (field (s.scr g c d.auxAddr 12) 8 4) 32 (32 * q) before 0
    let bad := s.pcNonfinite g c d
    let cols := if bad then (identity128.drop (32 * q)).take 32 else r.1.drop (32 * q)
    let k := if bad then 0 else r.2
    let st1 := (st / pow2 16 + k) * pow2 16 + (st % pow2 16 ||| (if k == 0 then 0 else 1))
    { scr := [(d.bAddr + 0x4000 * q, matBytes cols)], late := [(d.auxAddr, leBytes 4 (st1 % pow2 32))],
      beats := s.worstBeats g c d,
      press := [(8, k)] ++ (if k != 0 && !bitOf st 0 then [(6, 1)] else []),
      clamped := if k != 0 && !bitOf st 0 then some (field (s.scr g c d.auxAddr 18) 16 2 % 4096) else none }

/-- The result of PRECOND_MM: eight rows of C = P Q (09 R203). -/
def mmRes (g c : Nat) (s : State) (ds : List TileDesc) : RunRes :=
  match ds with
  | [] => { beats := 0 }
  | d :: _ =>
    let grp := bitsOf d.args 63 60
    let p0 := s.matAt g c d.aAddr
    let q0 := s.matAt g c d.bAddr
    let p := if bitOf d.args 59 then p0.flip else p0
    let cols := if bitOf d.args 58 then q0 else q0.flip
    let rows := ((p.drop (8 * grp)).take 8).map fun r => cols.map fun k => dot r k
    let out := if s.pcNonfinite g c d then (identity128.drop (8 * grp)).take 8 else rows
    { scr := [(d.outAddr + 4096 * grp, matBytes out)], late := [(d.auxAddr, leBytes 4 (s.pcStatus g c d))], beats := 2092 }

/-- The result of PRECOND_AFFINE: INIT or STEP (09 R205, steps 4 and 5). INIT counts the block's root. -/
def affineRes (g c : Nat) (s : State) (ds : List TileDesc) : RunRes :=
  match ds with
  | [] => { beats := 0 }
  | d :: _ =>
    let m := s.matAt g c d.aAddr
    let step := bitOf d.args 63
    let n := frobenius m
    let root := fsqrt n
    let k := fsqrt (fsqrt root)
    let diag (f : Nat → Nat → Bool → Nat) : Mat :=
      (List.range 128).map fun i => (List.range 128).map fun j => f i j (i == j)
    let five : Nat := 0x40A00000
    let quarter : Nat := 0x3E800000
    let l : List Mat :=
      if s.pcNonfinite g c d then (if step then [identity128] else [identity128, identity128])
      else if step then [diag fun i j e => fmul (fsub (if e then five else 0) (m.at_ i j)) quarter]
      else [diag fun i j _ => fdiv (m.at_ i j) root, diag fun _ _ e => fdiv (if e then oneBits else 0) k]
    { scr := [(d.outAddr, l.flatMap matBytes)], late := [(d.auxAddr, leBytes 4 (s.pcStatus g c d))],
      beats := s.worstBeats g c d,
      press := if step then [] else [(5, 1)] }

end State

/-! ### The commands -/

/-- UPDATE_P1: statistics of the first pass (09 R197). -/
def execUpdateP1 (g c : Nat) (o : RunEnv) (s : State) : Ans :=
  inRange (wfCell g c) s (s.runCompute g c 0x60 o (State.updateP1Res g c))

/-- UPDATE_P2: new state and both BF16 copies (09 R197, R198, R202). -/
def execUpdateP2 (g c : Nat) (o : RunEnv) (s : State) : Ans :=
  inRange (wfCell g c) s (s.runCompute g c 0x61 o (State.updateP2Res g c))

/-- UPDATE_SCALARS: K6 to K8 from the totals (09 R201, R202). -/
def execUpdateScalars (g c : Nat) (o : RunEnv) (s : State) : Ans :=
  inRange (wfCell g c) s (s.runCompute g c 0x62 o (State.scalarsRes g c))

/-- PRECOND_PREP (09 R205). -/
def execPrecondPrep (g c : Nat) (o : RunEnv) (s : State) : Ans :=
  inRange (wfCell g c) s (s.runCompute g c 0x64 o (State.prepRes g c))

/-- PRECOND_CHOL (09 R205). -/
def execPrecondChol (g c : Nat) (o : RunEnv) (s : State) : Ans :=
  inRange (wfCell g c) s (s.runCompute g c 0x65 o (State.cholRes g c))

/-- PRECOND_MM (09 R203, R205). -/
def execPrecondMm (g c : Nat) (o : RunEnv) (s : State) : Ans :=
  inRange (wfCell g c) s (s.runCompute g c 0x66 o (State.mmRes g c))

/-- PRECOND_AFFINE (09 R205). -/
def execPrecondAffine (g c : Nat) (o : RunEnv) (s : State) : Ans :=
  inRange (wfCell g c) s (s.runCompute g c 0x67 o (State.affineRes g c))

end Sys2Proof.Machine
end

