-- ==== Sys2Proof/Machine/Remote.lean ====
section
/-! DEFINITION. Waiting on another module and serving one: replies, timeouts and the target's checks (07 R143, R158; 11
R238, R239, R242; 12 R277, R278). -/

namespace Sys2Proof.Machine

/-- The parked slot a request was issued by. -/
def isAsker (r : Remote) (t : TileSlot) : Bool :=
  t.st == .parked && t.desc.clearing == r.clearing && t.desc.tileId == r.tileId

namespace State

/-- The outstanding request of a tag. -/
def remoteOf (s : State) (tag : Nat) : Option Remote := s.remotes.find? fun r => r.tag == tag
/-- A request ended. -/
def dropRemote (s : State) (tag : Nat) : State := { s with remotes := s.remotes.filter fun r => r.tag != tag }
/-- The requests of the tile that issued one. -/
def dropAsked (s : State) (r : Remote) : State :=
  { s with remotes := s.remotes.filter fun q =>
      !(q.grove == r.grove && q.cell == r.cell && q.clearing == r.clearing && q.tileId == r.tileId) }

/-- The slot that issued a request: in the cell, or in a claim victim's saved context. -/
def asker (s : State) (r : Remote) : Option TileSlot :=
  let x := s.cell r.grove r.cell
  (x.slots ++ x.parked.flatMap (·.slots)).find? (isAsker r)

/-- The slot that issued a request changed, or (`none`) emptied. -/
def mapAsker (s : State) (r : Remote) (f : TileSlot → Option TileSlot) : State :=
  let x := s.cell r.grove r.cell
  let go (l : List TileSlot) : List TileSlot := l.filterMap fun t => if isAsker r t then f t else some t
  let saved (p : Parked) : Parked := { p with slots := go p.slots }
  s.setCell r.grove r.cell { x with slots := go x.slots, parked := x.parked.map saved }

/-- The parked tile completes without another pick, and SIG_CTR is incremented (12 R277). -/
def endAsker (s : State) (r : Remote) : State :=
  match s.asker r with
  | none => s
  | some t =>
    (s.mapAsker r fun t => some { t with st := .done }).signalCtr r.clearing r.grove r.cell (sigCtr t.desc)

/-- The parked tile's plan stops on its grove. -/
def stopAsker (s : State) (r : Remote) (why : Name) : State :=
  ((s.dropAsked r).mapAsker r fun _ => none).stopPlan r.clearing r.grove r.cell r.tileId 0 why

/-- One line of a gather's remote page landed: its elements of positions below FILL (07 R140, R143). -/
def landPageLine (s : State) (r : Remote) (d : TileDesc) (i : Nat) (data : List Byte) : State :=
  let n := r.clearing
  let w := s.kvBytes n
  let p := r.landing / 2
  let fill := match s.stepSeq n (pgSeq d) with
    | some x => s.pageFill n x p
    | none => 0
  (List.range 32).foldl (fun s e =>
    let o := 64 * i + 2 * e
    let j := o / w
    let t := 256 * (p - pgFirst d) + j
    let a := if r.landing % 2 == 0 then d.outAddr + t * d.strideOut + o % w else d.bAddr + o % w / 2 * d.strideB + 2 * t
    if fill ≤ j then s else s.landCell n r.grove r.cell a (slice data (2 * e) 2)) s

/-- One line of a reply landed: of an engine's GET at its location, of a MOVE in the scratchpad or its spill slot (11
R242), of a gather by its layout. -/
def landLine (s : State) (r : Remote) (p : Nat × List Byte) : State :=
  let data := slice p.2 0 64
  if r.lines ≤ p.1 || r.got.contains p.1 then s
  else if r.grove == 16 then
    s.locWrite r.clearing (if locTier r.landing == 0 then r.landing + 64 * p.1 else r.landing + p.1) data
  else match s.asker r with
    | none => s
    | some t =>
      if t.desc.kind == 0xA1 then s.landPageLine r t.desc p.1 data
      else s.landCell r.clearing r.grove r.cell (r.landing + 64 * p.1) data

/-- Lines of a reply land; with the last line of the tile's requests its slot is DONE (12 R277). -/
def takeReply (s : State) (r : Remote) (lines : List (Nat × List Byte)) (src : Nat) : State :=
  let s1 := (lines.foldl (fun s p => s.landLine r p) s).chargeIngress r.clearing src (64 * lines.length)
  let got := lines.foldl (fun g p => if r.lines ≤ p.1 || g.contains p.1 then g else g ++ [p.1]) r.got
  if got.length < r.lines then
    { s1 with remotes := s1.remotes.map fun q => if q.tag == r.tag then { q with got := got } else q }
  else
    let s2 := s1.dropRemote r.tag
    let more := s2.remotes.any fun q =>
      !q.write && q.grove == r.grove && q.cell == r.cell && q.clearing == r.clearing && q.tileId == r.tileId
    if r.grove == 16 || more then s2 else s2.endAsker r

/-- The module a request was sent to. -/
def askedModule (s : State) (r : Remote) : Nat :=
  match s.asker r with
  | some t =>
    if t.desc.kind == 0xA1 then s.memberModule r.clearing (s.homeOf r.clearing (r.landing / 2)) else mvModule t.desc
  | none => s.ownModule

/-- The parked slot is READY again, to be executed once more (12 R278). -/
def againAsker (s : State) (r : Remote) : State :=
  (s.dropAsked r).mapAsker r fun t => some { t with st := .ready, tries := 1 }

/-- Cellar lines of a reply that the target lost: they land as +0, and end only the request they serve (11 R245). -/
def takeLost (s : State) (r : Remote) (lines : List (Nat × List Byte)) (lost : List Nat) (src : Nat) : State :=
  if r.grove == 16 then s.dropRemote r.tag
  else match s.asker r with
    | none => s
    | some t => match mvSeq t.desc with
      | some q => (s.faultSeq r.clearing q (missCode false)).takeReply r (lines ++ lost.map fun i => (i, zeros 64)) src
      | none => if t.tries == 0 then s.againAsker r else s.stopAsker r .lost

/-- A request reaches REMOTE_TIMEOUT_US (12 R278). A write waits for nothing: it is only closed. -/
def timeoutRemote (s : State) (r : Remote) : State :=
  let s1 := s.bumpLive 0x6025 r.clearing 1
  if r.write then s.dropRemote r.tag
  else if r.grove == 16 then s1.dropRemote r.tag
  else match s.asker r with
    | none => s1.dropRemote r.tag
    | some t =>
      if t.desc.kind == 0xA1 then ((s1.dropAsked r).faultSeq r.clearing (pgSeq t.desc) 0x11).endAsker r
      else match mvSeq t.desc with
        | some q => ((s1.dropAsked r).faultSeq r.clearing q 0x15).endAsker r
        | none => if t.tries == 0 then s1.againAsker r else s1.stopAsker r .remoteTimeout

/-! ### Serving (11 R239) -/

/-- Whether a flit's target may be reached under its job number: a location of the job's window, or a page of a spread pool
of the job (07 R143). -/
def mayServe (s : State) (f : Flit) (len : Nat) : Bool :=
  if locTier f.target == 3 then
    s.exists? f.clearing && s.jobOf f.clearing == f.job && s.byPosition f.clearing
      && bitsOf f.target 59 34 < s.frc (0x4140 + f.clearing) 1
  else locOk f.target && s.locRemote f.job f.clearing f.target len

/-- The page of this module's pool, the slice and the offset in it that a tier-3 name gives. -/
def namePage (s : State) (n v : Nat) : Nat := pow2 32 * s.ownMember n + bitsOf v 59 34
/-- Region offset of the byte of a tier-3 name. -/
def nameOff (s : State) (n v : Nat) : Nat := s.sliceOff n (bitsOf v 59 34) (bitsOf v 33 18) (bitsOf v 17 0)

/-- FILL of a page as the step may read it: positions held at the step's start and those that its sequences append. -/
def servedFill (s : State) (n id : Nat) : Nat :=
  (s.vat n).seqs.foldl (fun a x => x.pages.foldl (fun a p => if p.2 == id && x.active then max a (stepFill x p.1) else a) a)
    (s.page n id).fill

/-- The bytes of the served part of a slice that the read makes: keys of positions below FILL, values in blocks of 32
positions (07 R140). -/
def readLen (s : State) (n v : Nat) : Nat :=
  let part := 256 * s.kvBytes n
  let fill := s.servedFill n (s.namePage n v)
  (if bitsOf v 17 0 < part then fill else ceilDiv fill 32 * 32) * s.kvBytes n - bitsOf v 17 0 % part

/-- The bytes of the served part of a slice that may be returned: those of positions below FILL (07 R137). -/
def servedLen (s : State) (n v : Nat) : Nat :=
  let part := 256 * s.kvBytes n
  s.servedFill n (s.namePage n v) * s.kvBytes n - bitsOf v 17 0 % part

/-- Bytes of a page by its tier-3 name read and charged, positions at or beyond FILL as +0. -/
def readName (s : State) (n v len : Nat) : List Byte × State :=
  let r := s.readRegion n 1 (s.nameOff n v) len
  (slice (slice r.1 0 (min len (s.servedLen n v))) 0 len, r.2)

/-- Bytes at a flit's target read and charged. -/
def serveRead (s : State) (f : Flit) (len : Nat) : List Byte × State :=
  if locTier f.target == 3 then s.readName f.clearing f.target len else s.locRead f.clearing f.target len

/-- The lines of a served read that cannot be read. -/
def serveBad (s : State) (f : Flit) : List Nat :=
  if locTier f.target == 3 then
    s.badRange f.clearing 1 (s.nameOff f.clearing f.target) (min (64 * f.lines) (s.readLen f.clearing f.target))
  else s.locBad f.clearing f.target (64 * f.lines)

/-- A served read that meets a lost line. A page's line ends every sequence that holds the page (07 R158), another is
counted to the region's owner (11 R248); a cellar line is named to the requester, which ends LOST (R245), and any other
read gets no reply and ends at its timeout (log entry 28). -/
def serveLost (s : State) (f : Flit) (bad : List Nat) : State :=
  let n := f.clearing
  if locTier f.target == 3 then
    (bad.foldl (fun s i => s.loseLine (regionPlace 1 n (s.nameOff n f.target + 64 * i))) s).losePage n (s.namePage n f.target)
  else if locTier f.target == 2 then (s.locLost n f.target bad).emit (.lostLines f.src f.tag (bad.map (f.lineIdx + ·)))
  else s.locLost n f.target bad

/-- A page by its tier-3 name written: one that is ACTIVE and not FULL, at positions it does not hold yet (07 R142,
R148). -/
def writeName (s : State) (n v : Nat) (data : List Byte) : State :=
  let r := s.page n (s.namePage n v)
  let part := 256 * s.kvBytes n
  let at_ := bitsOf v 17 0 % part
  if r.st == 1 && r.fill < 256 && r.fill * s.kvBytes n ≤ at_ && at_ + data.length ≤ part then
    s.writeRegion n 1 (s.nameOff n v) data
  else s

/-- Bytes at a flit's target written and charged; what arrives in a press's curd buffer may be a record's header (08
R174). -/
def serveWrite (s : State) (f : Flit) (data : List Byte) : State :=
  if locTier f.target == 3 then s.writeName f.clearing f.target data
  else
    let s1 := s.locWrite f.clearing f.target data
    if locTier f.target == 1 then s1.adoptCurd f.clearing (locOff f.target) data else s1

/-- The reply to a request, charged to the clearing it reads: the lines it asks for, or none where it is refused (11
R238, R239, 14 R297; DESIGN CHOICE, log entry 28). A read of a press's cellar by a buddy's module is a checkpoint read,
and its reply takes the buddy link (14 R303; DESIGN CHOICE, log entry 27). -/
def answerRead (s : State) (f : Flit) (foreign : Bool) (data : List Byte) : State :=
  let port := if locTier f.target == 2 && s.jobRole f.clearing == 1 then s.buddyPort f.src else none
  (s.emit (.reply f.src f.tag f.lineIdx foreign data)).carry f.clearing f.src
    { port := port, op := 3, clearing := f.clearing, job := f.job, tag := f.tag, first := f.lineIdx, data := data }

/-- The event of a request that may not reach its target, with the requester's module and clearing (11 R239). -/
def refuseRemote (s : State) (f : Flit) (asker : Nat) : State := s.postAll .remoteForeign .ok (words [f.src, asker])

end State

/-- REMOTE_REPLY: lines of a reply, or the target's refusal, reach the request of a tag (12 R277, 11 R239). Lines of a
request that has ended, or whose time is over, are discarded (12 R278). `lost` are cellar lines that the target lost (11
R245). -/
def execRemoteReply (tag : Nat) (lines : List (Nat × List Byte)) (foreign : Bool) (s : State) (lost : List Nat := []) : Ans :=
  let k := match s.remoteOf tag with
    | none => s
    | some r =>
      if r.issued + s.rd 0x6000 4 * 1000 ≤ s.time then s
      else if !foreign && r.write then s
      else if !foreign && !lost.isEmpty then s.takeLost r lines lost (s.askedModule r)
      else if !foreign then s.takeReply r lines (s.askedModule r)
      else if r.grove == 16 then s.dropRemote tag
      else s.stopAsker r .remoteForeign
  whenOn s k

/-- REMOTE_TIMEOUT: a request's reply has not fully landed REMOTE_TIMEOUT_US after its issue (12 R278). -/
def execRemoteTimeout (tag : Nat) (s : State) : Ans :=
  let k := match s.remoteOf tag with
    | none => s
    | some r => onlyIf (r.issued + s.rd 0x6000 4 * 1000 ≤ s.time) s (s.timeoutRemote r)
  whenOn s k

/-- REMOTE_READ_SERVE: a READ flit reaches the link engine of its target module (11 R239). `asker` is the requester's
clearing, which no field of the flit's header holds (log entry 28). -/
def execRemoteReadServe (f : Flit) (s : State) (asker : Nat := 0) : Ans :=
  let len := 64 * f.lines
  let r := s.serveRead f len
  let bad := s.serveBad f
  let k := if f.reserved then s.emit (.status .reservedSet)
    else if s.mayServe f len then
      if bad.isEmpty then r.2.answerRead f false r.1
      else r.2.serveLost f bad
    else (s.refuseRemote f asker).answerRead f true []
  inRange (wfModule f.src && wfClearing f.clearing && wfClearing asker) s k

/-- REMOTE_WRITE_SERVE: a WRITE flit reaches the link engine of its target module (11 R239, R251). -/
def execRemoteWriteServe (f : Flit) (s : State) (asker : Nat := 0) : Ans :=
  let data := slice f.payload 0 (64 * f.lines)
  let k := if f.reserved then s.emit (.status .reservedSet)
    else if s.mayServe f data.length then (s.chargeIngress f.clearing f.src data.length).serveWrite f data
    else (s.refuseRemote f asker).answerRead f true []
  inRange (wfModule f.src && wfClearing f.clearing && wfClearing asker) s k

end Sys2Proof.Machine
end

