-- ==== Sys2Proof/Machine/Start.lean ====
section
/-! DEFINITION. START: the whole start-up order from OFF to RUN, and what a failure in it leaves (21 R443, R444, R452,
R453, R461 to R463; 17 R381; 19 R411 to R415, R419; 20 R424, R433, R434). Log entry 20 names its readings. -/

namespace Sys2Proof.Machine

/-- The input is qualified (21 R443), and the total lies within the latest end of R452. -/
def inputQualified (e : StartEnv) : Bool :=
  decide (46000 ≤ e.inputMv) && decide (e.inputMv ≤ 62000) && decide (e.ms ≤ 3050)

/-- A tag as read, checked: TAG, VER, KIND and TAG_CRC (21 R462, R463). -/
def tagOk (kind : Nat) (t : List Byte) : Bool :=
  slice t 0 8 == ascii "CRIRONTG" && field t 8 1 == 1 && field t 9 1 == kind
    && field t 124 4 == crc32c (slice t 0 124)

/-- The image that the boot ROM takes first: the one the newer valid boot selection record names; without a record the
one with the higher VERSION, and image A on a tie (19 R412, R414). -/
def firstImage (f : Flash) : Nat :=
  match selOf f.sel0, selOf f.sel1 with
  | some a, some b => if seqNewer b.seq a.seq then b.image else a.image
  | some a, none => a.image
  | none, some b => b.image
  | none, none =>
    if field (Mem.reads f.imageA 0 12) 8 4 < field (Mem.reads f.imageB 0 12) 8 4 then 1 else 0

/-- The image accepted at step 2, and whether it is the fallback; none when neither passes (19 R412). -/
def bootImage (o : Otp) (f : Flash) : Option (Nat × Bool) :=
  let img (k : Nat) : Mem := if k == 0 then f.imageA else f.imageB
  let a := firstImage f
  if imageOk o (img a) then some (a, false)
  else if imageOk o (img (1 - a)) then some (1 - a, true)
  else none

namespace State

/-- A step of start-up completed. -/
def phase (s : State) (k : Nat) : State := s.wr 0x1200 1 k

/-- START stops: POWER_STATE stays START, and START_FAILED names the step and the device (21 R453). -/
def startFails (s : State) (step device : Nat) : State := s.postAll .startFailed .ok (words [step, device])

/-- Everything volatile as it is before step 1, and what one-time-programmable storage keeps published: FLOOR_RATE and
FLOOR_EPOCH (02 R31), the identity (18 R390, R394), STORE_WRITES. CRYPTO_STATE is SELF_TEST (19 R419). Module time has
run for `ms`. -/
def powerUp (s : State) (e : StartEnv) : State :=
  let o := { s.otp with startCount := s.otp.startCount + 1 }
  let s0 : State := { State.reset with
    power := { mode := .start, perst := s.power.perst }, time := e.ms * 1000000, flash := s.flash, otp := o,
    outbox := s.outbox, free := s.free, pending := s.pending }
  let s1 := o.floorDrops.foldl (fun s p => (s.wr 0x1110 p.1 (1200 - 10 * p.2)).wr 0x1111 p.1 p.2) s0
  let s2 := ((((s1.wr 0x1001 1 o.fieldMac).wr 0x1002 2 o.mfgWeek).wr 0x1210 5 o.storeWrites).wr 0x1100 4
    e.inputMv).wr 0x8003 1 1
  (s2.wrBlob 0x8000 1 (sha256 s2.identityPublic)).wrBlob 0x8000 2 o.idCert

/-- Step 2: the accepted image and both versions published (18 R392, 19 R412). -/
def bootStep (s : State) (k : Nat) : State :=
  ((((s.wr 0x1201 1 k).wr 0x1201 2 (imageVersion s.otp s.flash.imageA)).wr 0x1201 3
    (imageVersion s.otp s.flash.imageB)).phase 2)

/-- A certificate signed by the identity key (19 R415). -/
def signedCert (s : State) (kind : Nat) (key : List Byte) : List Byte :=
  let body := cert kind s.otp.startCount (sha256 s.identityPublic) s.fwHash key []
  body ++ slice (s.signIdentity body) 0 7856

/-- The security self-tests and key generation (19 R401, R419): CRYPTO_STATE is SELF_TEST until they end; then OK, with the
attestation and the encapsulation key that the DRBG makes and their certificates, or ERROR and no keys. -/
def securityStep (s : State) (ok : Bool) : State :=
  if ok then
    let a := s.drbg 64
    let k := a.2.drbg 64
    let s1 := { k.2 with sec := { k.2.sec with attestKey := some a.1, kemKey := some k.1 } }.wr 0x8003 1 0
    (s1.wrBlob 0x8000 3 (s1.signedCert 1 (slice (Config.slhPublic 1 a.1) 0 32))).wrBlob 0x8000 4
      (s1.signedCert 2 (slice (Config.kemPublic k.1) 0 1568))
  else s.wr 0x8003 1 2

/-- The bank to load (17 R381). -/
def bankChoice (s : State) : Option (Nat × Bank) :=
  let a := s.flash.bank0
  let b := s.flash.bank1
  match s.bankValid a, s.bankValid b with
  | true, true => if seqNewer b.seq a.seq then some (1, b) else some (0, a)
  | true, false => some (0, a)
  | false, true => some (1, b)
  | false, false => none

/-- One record applied or skipped (17 R381). DEDUCED: a micro-program entry that the records loaded so far leave INVALID
keeps its value, since its other entries follow in the bank and validate it again (06 R128, R129; log entry 29). -/
def loadRecord (s : State) (r : Nat × List Byte) : State :=
  let w := s.applyRecord (r.1 / 256) (r.1 % 256) r.2
  if w.1 == .ok || w.1 == .microprogInvalid then w.2 else s.bump 0x1210 6 1

/-- Step 3, the bank: its records applied, its SEQ and number published, and MODULE_NUMBER in force with its
coordinates (17 R381, R384; 18 R390). -/
def bankStep (s : State) : State :=
  let s1 := match s.bankChoice with
    | none => s
    | some (k, b) =>
      let s2 := b.records.foldl loadRecord s
      { (s2.wr 0x1210 3 k).wr 0x1210 4 b.seq with flash := { s2.flash with lastBank := some k } }
  { s1 with power := { s1.power with numberNew := false } }.wr 0x1003 2 (coordOf s1.ownModule)

/-- Step 3, the paths: FIELD_NODE is read, and the PCIe endpoint answers from its end unless PERST_N is asserted
(17 R361, 21 R454). -/
def pathStep (s : State) (fieldId : Nat) : State :=
  let s1 := (s.wr 0x1001 2 (fieldId % 32)).phase 3
  { s1 with power := { s1.power with linkUp := !s1.power.perst, answers := !s1.power.perst } }

/-- A physical cell that the grove self-test retires: it is in the record, it failed, or its margin is below 2 %
(20 R433). -/
def testRetires (s : State) (e : StartEnv) (g p : Nat) : Bool :=
  s.otp.retired.contains (g * 512 + p)
    || e.cells.any fun r => r.grove == g && r.phys == p && (r.failed || decide (r.margin < 200))

/-- One retired cell's place in the map taken by the nearest healthy unused spare, or multiplexed onto a host; a spare
not in use only lowers SPARES_LEFT (20 R426, R427, R431, R433). -/
def mapRetired (s : State) (g p : Nat) : State :=
  let fewer := s.wr (0x9010 + g) 2 (s.rd (0x9010 + g) 2 - 1)
  match s.servedBy g p with
  | [] => if isSpare p then fewer else s
  | cs =>
    match s.chooseSpare g p with
    | some q => cs.foldl (fun s c => s.setMap g c q) fewer
    | none =>
      match s.chooseHost g p with
      | some h => cs.foldl (fun s c => s.multiplexOnto g c h) s
      | none => s

/-- Step 5 on one grove: the firmware's programs in its store (03 R475), the retired cells, the map of R424 with the
replacements in ascending physical cell number, the counts, and the margins measured (20 R432 to R434). -/
def testGrove (s : State) (e : StartEnv) (g : Nat) : State :=
  let bad := (List.range 272).filter (s.testRetires e g)
  let s0 := (e.programs.filter programOk).foldl (fun s a => s.installProgram g 64 a) s
  let s1 := s0.setGrove g { s0.grove g with retired := bad }
  let s2 := bad.foldl (fun s p => s.mapRetired g p) s1
  let s3 := ((s2.wr (0x9010 + g) 1 (272 - bad.length)).wr (0x9010 + g) 5 bad.length).checkGrove g
  let mine := e.cells.filter fun r => r.grove == g && decide (r.phys < 272)
  mine.foldl (fun s r => s.measureMargin g r.phys r.margin) s3

/-- One tag judged (21 R463): the cold plate is 1, the harness 2. -/
def judgeTag (s : State) (kind : Nat) (t : Option (List Byte)) : State :=
  match t with
  | none => s.postAll .tagMissing .ok (words [kind])
  | some b => if tagOk kind b then s else s.postAll .tagInvalid .ok (words [kind])

/-- Step 7: every port is brought up, and the peers that answer are judged (14 R305). -/
def portStep (s : State) (e : StartEnv) : State :=
  let none' : PortEnv := { cable := none, trained := false, badLane := none }
  let s1 := (List.range 32).foldl (fun s p => s.bringUp p (e.ports.getD p none')) s
  e.peers.foldl (fun s q => if q.1 < 32 && s.portState q.1 == 2 then s.judgePeer q.1 q.2 else s) s1

/-- RUN entered: the event area counts from 0, MODULE_RUN is posted, and then what steps 1 to 3 found; the rollback
counter is raised to the accepted image's (17 R376, 18 R393, 19 R413, 21 R444). -/
def enterRun (s : State) (e : StartEnv) (found : List Name) : State :=
  let level := min 63 (field (Mem.reads s.activeImage 0 16) 12 4)
  let old := s.hub.evLog.reverse
  let s1 : State := { s with
    power := { s.power with mode := .run },
    otp := { s.otp with rollback := max s.otp.rollback level },
    hub := { s.hub with evRing := [], evLog := [], seq := 0, produced := 0, acked := 0, lost := 0, details := [] } }
  let s2 := ((s1.phase 8).wr 0x1200 2 e.ms).postAll .moduleRun
  let s3 := found.foldl (fun s n => s.postAll n) s2
  old.foldl (fun s v => s.postFull v.name v.clearing v.slot v.status v.tag v.detail) s3

/-- The built-in tables as a cell's 64 KiB region holds them: no byte behind it, and no function whose first record lies
there (06 R125). -/
def loadSfn (i : SfnImage) : SfnImage :=
  { region := i.region.take 0x10000, entries := i.entries.filter fun e => e.base < 2048 }

/-- Steps 4 to 8: a stack that fails training stops START; a cellar channel fails its group; the grove self-test, the
tags, the ports; RUN. What they find is posted on entering RUN, and what steps 1 to 3 found where START stops. -/
def lateSteps (s : State) (e : StartEnv) (found : List Name) : State :=
  match e.hbmBad with
  | d :: _ => (found.foldl (fun s n => s.postAll n) s).startFails 4 d
  | [] =>
    let s1 := (List.range 16).foldl (fun s g => s.setSupply g (max 750 (s.lowestSupply g))) s
    let s2 := s1.enterRun e found
    let s3 := e.cellarBad.foldl (fun s ch => if ch < 32 then s.failGroup (ch / 8) else s) s2
    let s4 := (List.range 16).foldl (fun s g => s.testGrove e g) { s3 with sfn := loadSfn e.sfn }
    let s5 := (s4.judgeTag 1 e.plateTag).judgeTag 2 e.harnessTag
    (s5.portStep e).postAll .identityTags .ok
      (slice (e.plateTag.getD []) 0 256 ++ slice (e.harnessTag.getD []) 0 256)

/-- START proceeds (21 R452, R453). -/
def startUp (s : State) (e : StartEnv) : State :=
  let s0 := s.powerUp e
  if !e.romOk then s0.startFails 1 0
  else match bootImage s0.otp s0.flash with
    | none => (s0.phase 1).startFails 2 0
    | some (k, fallback) =>
      let s1 := ((s0.bootStep k).securityStep e.selfTestOk)
      let s2 := (s1.bankStep).pathStep e.fieldId
      let found : List Name :=
        (if fallback then [.fwFallback] else []) ++ (if e.selfTestOk then [] else [.cryptoError])
          ++ (if s1.bankChoice.isNone then [.storeDefaults] else [])
          ++ (if s2.rd 0x1210 6 == 0 then [] else [.storeRecordSkipped])
          ++ (if e.fieldId % 32 == 0 then [.fieldIdInvalid] else [])
      s2.lateSteps e found

end State

/-- START: from OFF, with the input qualified and PWR_EN high, the module runs the start-up order (21 R444, R452). -/
def execStart (env : StartEnv) (s : State) : Ans :=
  .next (onlyIf (s.power.mode == .off && inputQualified env) s (s.startUp env))

end Sys2Proof.Machine
end

