-- ==== Sys2Proof/Machine/Dispatch.lean ====
section
/-! DEFINITION. The dispatch: one arm per command of the table, each one direct call of the command's meaning. -/

namespace Sys2Proof.Machine

/-- The effect of a command on everything but the queue. -/
def exec (i : Instr) (s : State) : Host.Outcome State Fault Refusal :=
  match i with
  | .start env => Sys2Proof.Machine.execStart env s
  | .powerOff cause => Sys2Proof.Machine.execPowerOff cause s
  | .moduleReset sess => Sys2Proof.Machine.execModuleReset sess s
  | .hold sess => Sys2Proof.Machine.execHold sess s
  | .holdDone => Sys2Proof.Machine.execHoldDone s
  | .resume sess => Sys2Proof.Machine.execResume sess s
  | .capControlTick mv ma w => Sys2Proof.Machine.execCapControlTick mv ma w s
  | .thermalWarn g mC => Sys2Proof.Machine.execThermalWarn g mC s
  | .thermalTrip die mC => Sys2Proof.Machine.execThermalTrip die mC s
  | .thermRelease temps => Sys2Proof.Machine.execThermRelease temps s
  | .thermalHotTimeout die mC => Sys2Proof.Machine.execThermalHotTimeout die mC s
  | .coolantLow flow tin tout => Sys2Proof.Machine.execCoolantLow flow tin tout s
  | .rateMeasure die beats => Sys2Proof.Machine.execRateMeasure die beats s
  | .regRefill n res dir => Sys2Proof.Machine.execRegRefill n res dir s
  | .perstAssert => Sys2Proof.Machine.execPerstAssert s
  | .perstRelease => Sys2Proof.Machine.execPerstRelease s
  | .sweep writes => Sys2Proof.Machine.execSweep writes s
  | .planPart slot image => Sys2Proof.Machine.execPlanPart slot image s
  | .planIncomplete planId => Sys2Proof.Machine.execPlanIncomplete planId s
  | .vatRequest slot => Sys2Proof.Machine.execVatRequest slot s
  | .cancel slot => Sys2Proof.Machine.execCancel slot s
  | .pause slot => Sys2Proof.Machine.execPause slot s
  | .reward slot => Sys2Proof.Machine.execReward slot s
  | .planWithdraw slot => Sys2Proof.Machine.execPlanWithdraw slot s
  | .dictSlotRead slot => Sys2Proof.Machine.execDictSlotRead slot s
  | .dictSlotWrite slot plan => Sys2Proof.Machine.execDictSlotWrite slot s plan
  | .registerWrite sess idx sub v => Sys2Proof.Machine.execRegisterWrite sess idx sub v s
  | .read fr => Sys2Proof.Machine.execRead fr s
  | .write fr => Sys2Proof.Machine.execWrite fr s
  | .segRead fr => Sys2Proof.Machine.execSegRead fr s
  | .segWrite fr => Sys2Proof.Machine.execSegWrite fr s
  | .abort fr => Sys2Proof.Machine.execAbort fr s
  | .transferTimeout idx sub sess => Sys2Proof.Machine.execTransferTimeout idx sub sess s
  | .bar0Write off v => Sys2Proof.Machine.execBar0Write off v s
  | .apertureLoad sess => Sys2Proof.Machine.execApertureLoad sess s
  | .apertureCommit sess => Sys2Proof.Machine.execApertureCommit sess s
  | .evAckedWrite v => Sys2Proof.Machine.execEvAckedWrite v s
  | .ringConsumedWrite ring v => Sys2Proof.Machine.execRingConsumedWrite ring v s
  | .store sess => Sys2Proof.Machine.execStore sess s
  | .resetDefaults sess => Sys2Proof.Machine.execResetDefaults sess s
  | .storeDone => Sys2Proof.Machine.execStoreDone s
  | .fwStageDataWrite sess v => Sys2Proof.Machine.execFwStageDataWrite sess v s
  | .erase sess => Sys2Proof.Machine.execErase sess s
  | .verify sess => Sys2Proof.Machine.execVerify sess s
  | .select sess => Sys2Proof.Machine.execSelect sess s
  | .restore sess n newer older => Sys2Proof.Machine.execRestore sess n newer older s
  | .restoreOlder sess n newer older => Sys2Proof.Machine.execRestoreOlder sess n newer older s
  | .restoreDone n blocks bad told more epoch => Sys2Proof.Machine.execRestoreDone n blocks s bad told more epoch
  | .arbClear sess => Sys2Proof.Machine.execArbClear sess s
  | .healthClear sess n => Sys2Proof.Machine.execHealthClear sess n s
  | .cellarTtlEnableWrite sess v => Sys2Proof.Machine.execCellarTtlEnableWrite sess v s
  | .attestReportRead sess => Sys2Proof.Machine.execAttestReportRead sess s
  | .sessionOpenManager sess v => Sys2Proof.Machine.execSessionOpenManager sess v s
  | .sessionOpenTenant sess v => Sys2Proof.Machine.execSessionOpenTenant sess v s
  | .commission sess v => Sys2Proof.Machine.execCommission sess v s
  | .close sess v => Sys2Proof.Machine.execClose sess v s
  | .sessionTimeout session => Sys2Proof.Machine.execSessionTimeout session s
  | .keyWrappedWrite sess n v => Sys2Proof.Machine.execKeyWrappedWrite sess n v s
  | .keyOpeningDone n => Sys2Proof.Machine.execKeyOpeningDone n s
  | .cryptoError => Sys2Proof.Machine.execCryptoError s
  | .create sess n => Sys2Proof.Machine.execCreate sess n s
  | .clearingCreated n => Sys2Proof.Machine.execClearingCreated n s
  | .resize sess n => Sys2Proof.Machine.execResize sess n s
  | .destroy sess n => Sys2Proof.Machine.execDestroy sess n s
  | .clearingDestroyed n => Sys2Proof.Machine.execClearingDestroyed n s
  | .microprogWrite sess entry sub v => Sys2Proof.Machine.execMicroprogWrite sess entry sub v s
  | .mpTableWrite sess v => Sys2Proof.Machine.execMpTableWrite sess v s
  | .microprogLoaded entry => Sys2Proof.Machine.execMicroprogLoaded entry s
  | .quotaScrubDone n => Sys2Proof.Machine.execQuotaScrubDone n s
  | .gwDatagram port d => Sys2Proof.Machine.execGwDatagram port d s
  | .tileLoad g c desc => Sys2Proof.Machine.execTileLoad g c desc s
  | .tilePick g c cls => Sys2Proof.Machine.execTilePick g c cls s
  | .matmul g c o => Sys2Proof.Machine.execMatmul g c o s
  | .splitSum g c o => Sys2Proof.Machine.execSplitSum g c o s
  | .convert g c o => Sys2Proof.Machine.execConvert g c o s
  | .rmsNorm g c o => Sys2Proof.Machine.execRmsNorm g c o s
  | .rmsNormBwd g c o => Sys2Proof.Machine.execRmsNormBwd g c o s
  | .softmax g c o => Sys2Proof.Machine.execSoftmax g c o s
  | .softmaxBwd g c o => Sys2Proof.Machine.execSoftmaxBwd g c o s
  | .rowVariance g c o => Sys2Proof.Machine.execRowVariance g c o s
  | .funcApply g c o => Sys2Proof.Machine.execFuncApply g c o s
  | .mask g c o => Sys2Proof.Machine.execMask g c o s
  | .rawWords g c o => Sys2Proof.Machine.execRawWords g c o s
  | .updateP1 g c o => Sys2Proof.Machine.execUpdateP1 g c o s
  | .updateP2 g c o => Sys2Proof.Machine.execUpdateP2 g c o s
  | .updateScalars g c o => Sys2Proof.Machine.execUpdateScalars g c o s
  | .precondPrep g c o => Sys2Proof.Machine.execPrecondPrep g c o s
  | .precondChol g c o => Sys2Proof.Machine.execPrecondChol g c o s
  | .precondMm g c o => Sys2Proof.Machine.execPrecondMm g c o s
  | .precondAffine g c o => Sys2Proof.Machine.execPrecondAffine g c o s
  | .move g c o => Sys2Proof.Machine.execMove g c o s
  | .pageGather g c o => Sys2Proof.Machine.execPageGather g c o s
  | .pageAppend g c o => Sys2Proof.Machine.execPageAppend g c o s
  | .weightRead g c o => Sys2Proof.Machine.execWeightRead g c o s
  | .sideSave g c o => Sys2Proof.Machine.execSideSave g c o s
  | .sideLoad g c o => Sys2Proof.Machine.execSideLoad g c o s
  | .tierMove g c o => Sys2Proof.Machine.execTierMove g c o s
  | .triggerPost g c o => Sys2Proof.Machine.execTriggerPost g c o s
  | .counterSignal g c ctr src => Sys2Proof.Machine.execCounterSignal g c ctr src s
  | .remoteReply tag lines foreign lost => Sys2Proof.Machine.execRemoteReply tag lines foreign s lost
  | .remoteTimeout tag => Sys2Proof.Machine.execRemoteTimeout tag s
  | .remoteReadServe f asker => Sys2Proof.Machine.execRemoteReadServe f s asker
  | .remoteWriteServe f asker => Sys2Proof.Machine.execRemoteWriteServe f s asker
  | .lockOverrun group unit input => Sys2Proof.Machine.execLockOverrun group unit input s
  | .cellarLate n slot line => Sys2Proof.Machine.execCellarLate n slot line s
  | .cellarGroupFailed group => Sys2Proof.Machine.execCellarGroupFailed group s
  | .vatStepStart n io => Sys2Proof.Machine.execVatStepStart n s io
  | .vatStepEnd n toks faults => Sys2Proof.Machine.execVatStepEnd n toks faults s
  | .pressBatchTake n => Sys2Proof.Machine.execPressBatchTake n s
  | .pauseExpired n tag => Sys2Proof.Machine.execPauseExpired n tag s
  | .stepBoundary n ended lineOk => Sys2Proof.Machine.execStepBoundary n ended lineOk s
  | .cultureFillDone g crcOk => Sys2Proof.Machine.execCultureFillDone g crcOk s
  | .claimTaken n g ns => Sys2Proof.Machine.execClaimTaken n g ns s
  | .claimHoldExpire n => Sys2Proof.Machine.execClaimHoldExpire n s
  | .claimReleased n => Sys2Proof.Machine.execClaimReleased n s
  | .multiplexSwitch g phys => Sys2Proof.Machine.execMultiplexSwitch g phys s
  | .versionProduced n => Sys2Proof.Machine.execVersionProduced n s
  | .landingReserve n => Sys2Proof.Machine.execLandingReserve n s
  | .shardSend n unit shard dst granted again => Sys2Proof.Machine.execShardSend n unit shard s dst granted again
  | .shardLanded n unit shard data bad => Sys2Proof.Machine.execShardLanded n unit shard data bad s
  | .frontStart n reports => Sys2Proof.Machine.execFrontStart n reports s
  | .unitReplace n others => Sys2Proof.Machine.execUnitReplace n s others
  | .turnSourceCurrent n others => Sys2Proof.Machine.execTurnSourceCurrent n s others
  | .vatLoad n version => Sys2Proof.Machine.execVatLoad n version s
  | .loadDone n => Sys2Proof.Machine.execLoadDone n s
  | .snapshotOpen n => Sys2Proof.Machine.execSnapshotOpen n s
  | .blockCopied ch => Sys2Proof.Machine.execBlockCopied ch s
  | .snapshotFailed ch cause => Sys2Proof.Machine.execSnapshotFailed ch cause s
  | .portBringup p env => Sys2Proof.Machine.execPortBringup p env s
  | .identReceive p id => Sys2Proof.Machine.execIdentReceive p id s
  | .laneFailure p lane => Sys2Proof.Machine.execLaneFailure p lane s
  | .flitReceive p f => Sys2Proof.Machine.execFlitReceive p f s
  | .transitForward p f => Sys2Proof.Machine.execTransitForward p f s
  | .trigPost die n d => Sys2Proof.Machine.execTrigPost die n d s
  | .chunkArrive die l dst data asker => Sys2Proof.Machine.execChunkArrive die l dst data s asker
  | .chunkAck die l => Sys2Proof.Machine.execChunkAck die l s
  | .chunkRetry die l undelivered => Sys2Proof.Machine.execChunkRetry die l undelivered s
  | .collFail n coll status opId line => Sys2Proof.Machine.execCollFail n coll status opId s line
  | .collTimeout n coll missing => Sys2Proof.Machine.execCollTimeout n coll s missing
  | .shardVerified n ok slot => Sys2Proof.Machine.execShardVerified n ok s slot
  | .ckptComplete n copiesOk others told vatSteps => Sys2Proof.Machine.execCkptComplete n copiesOk others s told vatSteps
  | .heartbeat n src epoch => Sys2Proof.Machine.execHeartbeat n src epoch s
  | .heartbeatMiss n modNo env => Sys2Proof.Machine.execHeartbeatMiss n modNo s env
  | .failureReport n modNo epoch env => Sys2Proof.Machine.execFailureReport n modNo epoch s env
  | .shrink n epoch drop failed => Sys2Proof.Machine.execShrink n epoch drop s failed
  | .shrinkResume n totals usable reports sent epoch => Sys2Proof.Machine.execShrinkResume n s totals usable reports sent epoch
  | .shrinkLimit n env => Sys2Proof.Machine.execShrinkLimit n s env
  | .stepTimeReport n reports env epoch => Sys2Proof.Machine.execStepTimeReport n reports s env epoch
  | .rejoinReady n modNo rejoin epoch => Sys2Proof.Machine.execRejoinReady n modNo s rejoin epoch
  | .rejoinDone n blocks more epoch => Sys2Proof.Machine.execRejoinDone n blocks s more epoch
  | .understorySegment g phys o => Sys2Proof.Machine.execUnderstorySegment g phys o s
  | .testOverdue g phys => Sys2Proof.Machine.execTestOverdue g phys s
  | .spareIn g spareOk => Sys2Proof.Machine.execSpareIn g spareOk s
  | .remargin g margins => Sys2Proof.Machine.execRemargin g margins s
  | .ckptDrainEnd n => Sys2Proof.Machine.execCkptDrainEnd n s
  | .gatewayFrame p f => Sys2Proof.Machine.execGatewayFrame p f s
  | .pcieLinkDown => Sys2Proof.Machine.execPcieLinkDown s

end Sys2Proof.Machine
end

