-- ==== Sys2Proof/Safety.lean ====
section
/-! DEFINITION. What counts as a sound state of the module, in the terms the statements use: storage in its canonical
form, one-time-programmable storage within what its fuses hold, and nothing kept in OFF but the flash devices and
that storage. -/

namespace Sys2Proof.Machine

/-- One-time-programmable storage holds no more than it has places for: 32 retired cells a grove (20 R433), eight
manager keys (19 R409), 64 rollback levels (19 R413), and a lowest supply of at most 0.75 V a grove (20 R436). -/
def Otp.inBounds (o : Otp) : Prop :=
  (∀ g, (o.retired.filter fun r => r / 512 == g).length ≤ 32) ∧ o.managerKeys.length ≤ 8 ∧ o.rollback ≤ 63
    ∧ ∀ p ∈ o.supplySteps, 700 + 10 * p.2 ≤ 750

/-- One-time-programmable storage `b` is what `a` was, with nothing taken back (02 R32; 19 R401, R409, R413; 20 R433,
R436): counts and levels only rise, keys and retired cells are only added, and what is fused at manufacture stays. -/
def Otp.grows (a b : Otp) : Prop :=
  a.rollback ≤ b.rollback ∧ a.startCount ≤ b.startCount ∧ a.storeWrites ≤ b.storeWrites
    ∧ (∃ l, b.managerKeys = l ++ a.managerKeys) ∧ (∃ l, b.retired = a.retired ++ l)
    ∧ (∀ d, (look a.floorDrops d).getD 0 ≤ (look b.floorDrops d).getD 0)
    ∧ (∀ g, (look a.supplySteps g).getD 0 ≤ (look b.supplySteps g).getD 0)
    ∧ (∀ g, (look a.delaySteps g).getD 0 ≤ (look b.delaySteps g).getD 0)
    ∧ b.revoked = a.revoked ∧ b.serial = a.serial ∧ b.mfgWeek = a.mfgWeek ∧ b.fieldMac = a.fieldMac
    ∧ b.idCert = a.idCert ∧ b.deviceSecret = a.deviceSecret ∧ b.identityKey = a.identityKey

/-- What was sent is a flit on a port. -/
def Out.isFlit : Out → Bool
  | .flit .. => true
  | _ => false

namespace State

/-- Every memory is in canonical form: addresses strictly rising and no entry equal to what an unlisted address reads
as. -/
def memoryWf (s : State) : Prop :=
  Mem.wf s.mem = true ∧ Mem.wf s.flash.imageA = true ∧ Mem.wf s.flash.imageB = true

/-- The state of a module in OFF (21 R445): that of reset, but for the flash devices, one-time-programmable storage,
the level of the PERST_N pin, and the model's own outbox, free counter and queue. -/
def offState (s : State) : State := { State.reset with
  power := { perst := s.power.perst },
  flash := { s.flash with writing := none, lastBank := none, verified := false },
  otp := s.otp,
  outbox := s.outbox, free := s.free, pending := s.pending }

/-- A sound state: canonical memories, one-time-programmable storage within bounds, and nothing volatile in OFF. -/
def Inv (s : State) : Prop := s.memoryWf ∧ s.otp.inBounds ∧ (s.power.mode = .off → s = s.offState)

/-- A sound state of a module that is not in OFF, whose one-time-programmable storage has grown from `fuse`. -/
def Sound (fuse : Otp) (s : State) : Prop :=
  s.power.mode ≠ .off ∧ s.memoryWf ∧ s.otp.inBounds ∧ fuse.grows s.otp

/-- Every scalar entry of the dictionary outside the positions of `keys` is in `t` as in `s`. -/
def sameEntriesBut (s t : State) (keys : List Nat) : Prop := ∀ k, k ∉ keys → look t.dict k = look s.dict k

/-- Every listed value of a map but those of `keys` is in `n` as in `m`, and none is added. -/
def sameListedBut {α : Type} (m n : Map α) (keys : List Nat) : Prop := ∀ p, p.1 ∉ keys → (p ∈ n ↔ p ∈ m)

/-- The entries a posted event writes: EVLOG_NEWEST, EV_LOST and HOST_RB_STATE (17 R376, R378; 18 R393). -/
def eventKeys : List Nat := [keyOf 0x7100 2, keyOf 0xA002 2, keyOf 0xA002 3]

/-- The last event posted in `t` is this one, under the next SEQ of `s` and at its time (17 R376). -/
def posts (s t : State) (name : Name) (clearing : Nat) (status : Name) : Prop :=
  ∃ e, t.hub.evLog.head? = some e ∧ e.name = name ∧ e.clearing = clearing ∧ e.status = status
    ∧ e.seq = s.hub.seq ∧ e.time = s.time ∧ t.hub.seq = (s.hub.seq + 1) % 2 ^ 32

/-- Every scalar entry outside the positions of `keys` and outside clearing `n`'s REG counters (12 R265), which its
transfers raise, is in `t` as in `s`. -/
def sameEntriesButCharges (s t : State) (n : Nat) (keys : List Nat) : Prop :=
  ∀ k, k ∉ keys → k / 256 ≠ 0x2460 + n → k / 256 ≠ 0x24A0 + n → look t.dict k = look s.dict k

/-- Beside the flits of its transfers (14 R296), this is what the module has sent in `t` since `s`, in order. -/
def sends (s t : State) (l : List Out) : Prop :=
  ∃ x, t.outbox = s.outbox ++ x ∧ x.filter (fun o => !o.isFlit) = l

/-- Every byte of memory outside a range of `n` from `a` reads in `t` as in `s`. -/
def sameBytesBut (s t : State) (a n : Nat) : Prop :=
  ∀ b, (b < a ∨ a + n ≤ b) → Mem.read t.mem b = Mem.read s.mem b

end State

end Sys2Proof.Machine
end

