-- ==== Sys2Proof/Certificates/Slice0/Obligations.lean ====
section
/-! DEFINITION. The statements of this model, for the provers: what its commands do by the manual's rules. -/

open Sys2Proof Sys2Proof.Machine Sys2Proof.Machine.State

/-- For every command c, queue rest and state s, a step of s with c at the front of its queue is exec of c on s
with the queue's rest. The queue is the model's own (log entry 1). -/
def Obligations.StepRunsFrontCommand : Prop :=
  ∀ (c : Instr) (rest : List Instr) (s : State),
    step { s with pending := c :: rest } = exec c { s with pending := rest }

/-- With no command waiting, a module in OFF stays as it is; any other module's time rises by 1 ns, and an
accepted MODULE_RESET whose time has come powers it down (21 R445, 18 R392). That a step of an empty queue is
one nanosecond is the model's choice (log entry 1). -/
def Obligations.EmptyQueueTicks : Prop :=
  ∀ s : State, s.pending = [] →
    (s.power.mode = .off → step s = .next s) ∧
    (s.power.mode ≠ .off → s.power.resetAt = none → step s = .next { s with time := s.time + 1 }) ∧
    (∀ at_, s.power.mode ≠ .off → s.power.resetAt = some at_ → s.time + 1 < at_ →
      step s = .next { s with time := s.time + 1 }) ∧
    (∀ at_, s.power.mode ≠ .off → s.power.resetAt = some at_ → at_ ≤ s.time + 1 →
      step s = .next { s with time := s.time + 1 }.powerDown)

/-- State.reset is in OFF with an empty queue, empty memories, no session, no clearing and no event, PERST_N
asserted, and meets the invariant Inv. The values of registers without a stated reset value are the model's (log
entries 2 and 7). -/
def Obligations.ResetIsSound : Prop :=
  State.reset.Inv ∧ State.reset.power.mode = .off ∧ State.reset.power.perst = true ∧ State.reset.pending = [] ∧
    State.reset.mem = [] ∧ State.reset.sec.sessions = [] ∧ State.reset.clearings = [] ∧ State.reset.hub.evLog = [] ∧
    State.reset.dict = [] ∧ State.reset.flash.writing = none

/-- From every state that meets Inv, whatever command stands at the front of the queue, a step that answers a
next state answers one that meets Inv: the memory and both firmware images stay in canonical form,
one-time-programmable storage holds at most 32 retired cells a grove, eight manager keys, 64 rollback levels and
a lowest supply of at most 0.75 V, and a module in OFF holds nothing but its flash devices, that storage and the
level of PERST_N. -/
def Obligations.EveryStepKeepsInv : Prop :=
  ∀ s t : State, s.Inv → step s = .next t → t.Inv

/-- In OFF every command whose numbers are the module's, but for START and the two levels of PERST_N, answers
the state unchanged: nothing runs, and the dictionary does not exist. -/
def Obligations.OffIgnoresEverythingElse : Prop :=
  ∀ (i : Instr) (s : State), s.power.mode = .off → i.wf = true →
    (∀ e, i ≠ .start e) → i ≠ .perstAssert → i ≠ .perstRelease → exec i s = .next s

/-- Whatever the state, a command whose numbers are all the module's (00 R10) answers a next state, and any
other stops with the fault numbering. That such a command is a fault is the model's choice (log entry 12). -/
def Obligations.CommandsStopOnlyOnForeignNumbers : Prop :=
  ∀ (i : Instr) (s : State),
    (i.wf = true → ∃ t, exec i s = .next t) ∧ (i.wf = false → exec i s = .fault .numbering)

/-- POWER_OFF in any state but OFF, and THERMAL_HOT_TIMEOUT at THERM_TRIP_C 100 ms after HELD was entered,
answer the same state t: nothing but flash, one-time-programmable storage and the level of PERST_N is kept, the
bank a STORE was writing is invalid, and the other bank, both images and the boot selection are as they were. A
THERMAL_HOT_TIMEOUT that is not due only publishes the junction. -/
def Obligations.OffLosesAllButFlash : Prop :=
  ∀ s : State, s.power.mode ≠ .off →
    (∃ t : State, (∀ c, exec (.powerOff c) s = .next t) ∧
      (∀ die mC, wfDie die = true → s.power.mode = .held → s.tripLevel ≤ mC →
        100000000 ≤ s.time - s.power.heldAt → exec (.thermalHotTimeout die mC) s = .next t) ∧
      t = t.offState ∧ t.power.perst = s.power.perst ∧ t.otp = s.otp ∧
      t.flash.imageA = s.flash.imageA ∧ t.flash.imageB = s.flash.imageB ∧
      t.flash.sel0 = s.flash.sel0 ∧ t.flash.sel1 = s.flash.sel1 ∧
      (s.flash.writing = none → t.flash.bank0 = s.flash.bank0 ∧ t.flash.bank1 = s.flash.bank1) ∧
      (∀ b, s.flash.writing = some (0, b) → t.flash.bank0.valid = false ∧ t.flash.bank1 = s.flash.bank1) ∧
      (∀ b, s.flash.writing = some (1, b) → t.flash.bank1.valid = false ∧ t.flash.bank0 = s.flash.bank0) ∧
      t.outbox = s.outbox ∧ t.pending = s.pending ∧ t.free = s.free) ∧
    (∀ die mC, wfDie die = true →
      (s.power.mode ≠ .held ∨ mC < s.tripLevel ∨ s.time - s.power.heldAt < 100000000) →
      exec (.thermalHotTimeout die mC) s = .next (s.wr 0x1120 die (i32 mC)))

/-- From OFF with the input qualified, START answers a state in RUN when the boot ROM checks, one of the two
images is accepted (19 R412) and every HBM4E stack trains, and a state that stays in START otherwise; module
time is the time start-up took, the flash images, banks and boot selection, the queue and the manager keys are
as they were, and the count of starts has risen by one. In any other state, or with the input not qualified, it
changes nothing. -/
def Obligations.StartRunsTheOrder : Prop :=
  ∀ (e : StartEnv) (s : State),
    (s.power.mode = .off → inputQualified e = true → ∃ t : State, exec (.start e) s = .next t ∧
      (t.power.mode = .run ↔ e.romOk = true ∧ (bootImage s.otp s.flash).isSome = true ∧ e.hbmBad = []) ∧
      (t.power.mode = .run ∨ t.power.mode = .start) ∧
      t.time = e.ms * 1000000 ∧ t.pending = s.pending ∧ t.otp.startCount = s.otp.startCount + 1 ∧
      t.otp.managerKeys = s.otp.managerKeys ∧ t.flash.imageA = s.flash.imageA ∧ t.flash.imageB = s.flash.imageB ∧
      t.flash.bank0 = s.flash.bank0 ∧ t.flash.bank1 = s.flash.bank1 ∧
      t.flash.sel0 = s.flash.sel0 ∧ t.flash.sel1 = s.flash.sel1) ∧
    (s.power.mode ≠ .off ∨ inputQualified e = false → exec (.start e) s = .next s)

/-- A manager's HOLD in RUN sets the hold and answers OK; HOLD_DONE, once no cell runs a tile, enters HELD,
posts MODULE_HELD and notes the time, and at once resumes where a RESUME waits behind the HOLD (log entry 23); a
manager's RESUME in HELD returns to RUN, puts the ageing policy and a new MODULE_NUMBER in force, applies the
policy to the cells measured below its threshold, posts MODULE_RUN and makes the checks of the clearings' plans
again, and is refused with THERMAL_TRIPPED, changing nothing, while THERM_N is asserted. A HOLD in HELD changes
nothing but the command's read-back. A manager's MODULE_RESET where the dictionary is reachable answers OK and
changes nothing but the time at which it takes effect, 1 ms after, unless one is due already; another role is
refused with ROLE_DENIED. Every accepted command lets its session's time begin anew (19 R408). -/
def Obligations.HoldAndResume : Prop :=
  ∀ (sess : Nat) (s : State),
    (s.roleOf sess = some .manager → s.power.mode = .run → exec (.hold sess) s = .next
      (({ s.wr 0x1100 2 1 with power := { s.power with holding := true, resumeNext := false } }.touch sess).emit
        (.status .ok))) ∧
    (s.roleOf sess = some .manager → s.power.mode = .held →
      exec (.hold sess) s = .next (((s.wr 0x1100 2 1).touch sess).emit (.status .ok))) ∧
    (s.power.mode = .run → s.power.holding = true → s.power.resumeNext = false →
      (∀ p ∈ s.cells, ∀ x ∈ p.2.slots, x.st ≠ .running) → exec .holdDone s = .next
        ({ s with power := { s.power with
          mode := .held, holding := false, resumeNext := false, heldAt := s.time } }.postAll .moduleHeld)) ∧
    (s.power.mode = .run → s.power.holding = true → s.power.resumeNext = true → s.power.thermN = false →
      (∀ p ∈ s.cells, ∀ x ∈ p.2.slots, x.st ≠ .running) → ∃ u : State,
      exec .holdDone s = .next (u.ageModule.postAll .moduleRun) ∧
      u.power = { s.power with holding := false, resumeNext := false, heldAt := s.time, numberNew := false } ∧
      u.frc 0x1130 1 = s.rd 0x1130 1 ∧ u.hub.seq = (s.hub.seq + 1) % 2 ^ 32 ∧
      s.sameEntriesBut u (eventKeys ++ [keyOf 0x1003 2] ++ (List.range 32).map fun p => keyOf (0x5000 + 16 * p) 2) ∧
      u = { s with dict := u.dict, force := u.force, hub := u.hub, power := u.power }) ∧
    (s.roleOf sess = some .manager → s.power.mode = .held → s.power.thermN = true →
      exec (.resume sess) s = .next (s.emit (.status .thermalTripped))) ∧
    (s.roleOf sess = some .manager → s.power.mode = .held → s.power.thermN = false → s.power.numberNew = false →
      exec (.resume sess) s = .next
        (((({ s.wr 0x1100 2 2 with power := { s.power with mode := .run } }.setFrc 0x1130 1
          (s.rd 0x1130 1)).ageModule.postAll .moduleRun).checkPlans.touch sess).emit (.status .ok))) ∧
    (s.roleOf sess = some .manager → s.power.mode = .held → s.power.thermN = false → s.power.numberNew = true →
      ∃ t : State, exec (.resume sess) s =
        .next (((t.ageModule.postAll .moduleRun).checkPlans.touch sess).emit (.status .ok)) ∧
      t.power = { s.power with mode := .run, numberNew := false } ∧
      t.ownModule = s.rd 0x1003 1 ∧ t.frc 0x1130 1 = s.rd 0x1130 1 ∧
      (∀ p < 32, t.rd (0x5000 + 16 * p) 2 =
        if s.rd (0x5000 + 16 * p) 1 = 1 ∨ s.rd (0x5000 + 16 * p) 1 = 2 ∨ s.rd (0x5000 + 16 * p) 1 = 3 then 0
        else s.rd (0x5000 + 16 * p) 2) ∧
      s.sameEntriesBut t ([keyOf 0x1100 2, keyOf 0x1003 2] ++
        (List.range 32).map fun p => keyOf (0x5000 + 16 * p) 2) ∧
      t = { s with dict := t.dict, force := t.force, power := t.power }) ∧
    (s.reachable = true → s.roleOf sess = some .manager → exec (.moduleReset sess) s = .next
      (({ s with power := { s.power with
        resetAt := some (s.power.resetAt.getD (s.time + 1000000)) } }.touch sess).emit (.status .ok))) ∧
    (∀ r, s.reachable = true → s.roleOf sess = some r → r ≠ .manager →
      exec (.moduleReset sess) s = .next (s.emit (.status .roleDenied)))

/-- CAP_CONTROL_TICK publishes the input; in RUN and HELD, above POWER_CAP_W it lowers every grove's supply by
10 mV but never below that grove's lowest, below the cap with every junction under THERM_WARN_C it raises every
supply by 10 mV towards 0.85 V, and otherwise it moves none; CAP_LIMITED_MS rises by one when the cap is not
above the input and some supply is below 0.85 V; CAP_UNREACHABLE is posted once per excursion that finds every
grove at its lowest. In START it moves, counts and posts nothing, since the supplies are the start-up order's.
Nothing else changes. -/
def Obligations.CapControllerMovesSupplies : Prop :=
  ∀ (mv ma w : Nat) (s : State), s.power.mode ≠ .off → ∃ t : State,
    exec (.capControlTick mv ma w) s = .next t ∧
    t.rd 0x1100 4 = mv ∧ t.rd 0x1100 5 = ma ∧ t.rd 0x1100 6 = w ∧
    (∀ g < 16, t.rd 0x1101 (g + 1) =
      if s.serving = true ∧ s.rd 0x1100 3 < w then max (s.rd 0x1101 (g + 1) - 10) (s.lowestSupply g)
      else if s.serving = true ∧ w < s.rd 0x1100 3 ∧ s.allBelow s.warnLevel = true then min (s.rd 0x1101 (g + 1) + 10) 850
      else s.rd 0x1101 (g + 1)) ∧
    t.rd 0x1100 8 = (if s.serving = true ∧ s.rd 0x1100 3 ≤ w ∧ t.someBelowTop = true then
        min (s.rd 0x1100 8 + 1) (2 ^ 64 - 1)
      else s.rd 0x1100 8) ∧
    t.hub.seq = (if s.serving = true ∧ s.rd 0x1100 3 < w ∧ s.allLowest = true ∧ s.power.capFlag = false then
        (s.hub.seq + 1) % 2 ^ 32 else s.hub.seq) ∧
    s.sameEntriesBut t (eventKeys ++ [4, 5, 6, 7, 8].map (keyOf 0x1100) ++ (List.range 16).map fun g => keyOf 0x1101 (g + 1)) ∧
    (∀ k, k ≠ keyOf 0x1100 7 → look t.live k = look s.live k) ∧
    t = { s with dict := t.dict, live := t.live, hub := t.hub, power := { s.power with capFlag := t.power.capFlag } }

/-- THERMAL_WARN above THERM_WARN_C lowers that grove's supply one step within its bound and posts the event
once per excursion, and at or below it ends the excursion. THERMAL_TRIP at THERM_TRIP_C asserts THERM_N, sets
every grove to its lowest supply, begins the HOLD in RUN and posts THERMAL_TRIP; during a HOLD or in HELD it
adds THERM_N only. THERM_RELEASE releases THERM_N exactly when every junction then lies below THERM_WARN_C − 10
°C. Each leaves everything else as it was. -/
def Obligations.ThermalResponse : Prop :=
  ∀ s : State, s.power.mode ≠ .off →
    (∀ g mC, wfGrove g = true → s.warnLevel < mC → ∃ t : State, exec (.thermalWarn g mC) s = .next t ∧
      t.rd 0x1101 (g + 1) = max (s.rd 0x1101 (g + 1) - 10) (s.lowestSupply g) ∧
      t.rd 0x1120 (g + 1) = i32 mC ∧ g ∈ t.power.warnGroves ∧
      t.hub.seq = (if g ∈ s.power.warnGroves then s.hub.seq else (s.hub.seq + 1) % 2 ^ 32) ∧
      s.sameEntriesBut t (eventKeys ++ [keyOf 0x1101 (g + 1), keyOf 0x1120 (g + 1)]) ∧
      t = { s with dict := t.dict, hub := t.hub, power := { s.power with warnGroves := t.power.warnGroves } }) ∧
    (∀ g mC, wfGrove g = true → mC ≤ s.warnLevel → exec (.thermalWarn g mC) s = .next
      { s.wr 0x1120 (g + 1) (i32 mC) with
        power := { s.power with warnGroves := s.power.warnGroves.filter (· != g) } }) ∧
    (∀ die mC, wfDie die = true → s.tripLevel ≤ mC → s.power.mode ≠ .held → s.power.holding = false → ∃ t : State,
      exec (.thermalTrip die mC) s = .next t ∧ t.rd 0x1120 die = i32 mC ∧
      (∀ g < 16, t.rd 0x1101 (g + 1) = s.lowestSupply g) ∧ s.posts t .thermalTrip 0xFF .ok ∧
      s.sameEntriesBut t (keyOf 0x1120 die :: eventKeys ++ (List.range 16).map fun g => keyOf 0x1101 (g + 1)) ∧
      t = { s with dict := t.dict, hub := t.hub, outbox := t.outbox, power := { s.power with
        thermN := true, holding := s.running, resumeNext := !s.running && s.power.resumeNext } }) ∧
    (∀ die mC, wfDie die = true → s.tripLevel ≤ mC → (s.power.mode = .held ∨ s.power.holding = true) →
      s.power.thermN = false → ∃ t : State, exec (.thermalTrip die mC) s = .next t ∧
      t = { s.wr 0x1120 die (i32 mC) with outbox := t.outbox, power := { s.power with thermN := true } }) ∧
    (∀ die mC, wfDie die = true → mC < s.tripLevel →
      exec (.thermalTrip die mC) s = .next (s.wr 0x1120 die (i32 mC))) ∧
    (∀ die mC, wfDie die = true → s.tripLevel ≤ mC → (s.power.mode = .held ∨ s.power.holding = true) →
      s.power.thermN = true → exec (.thermalTrip die mC) s = .next (s.wr 0x1120 die (i32 mC))) ∧
    (∀ temps : List (Nat × Int), ∃ t : State, exec (.thermRelease temps) s = .next t ∧
      t.power.thermN = (s.power.thermN && !(t.allBelow (t.warnLevel - 10000))) ∧
      ((temps.map (·.1)).Nodup → ∀ p ∈ temps, wfDie p.1 = true → t.rd 0x1120 p.1 = i32 p.2) ∧
      s.sameEntriesBut t (temps.map fun p => keyOf 0x1120 p.1) ∧
      t = { s with dict := t.dict, power := { s.power with thermN := t.power.thermN } })

/-- COOLANT_LOW publishes the flow and both temperatures and posts the event exactly when the flow is below
2,400 mL/min and the excursion is new. RATE_MEASURE of at most 2,050,000 beats, the most a millisecond holds,
publishes the die's rate and, in RUN and HELD, adds those beats to BEATS_ELAPSED (that HELD counts is log entry
29), and more than those change nothing. REG_REFILL of a clearing that exists adds ⌊share / 4,096 · C · 1,024 /
RATE_NOW⌋ bytes to its bucket up to REG_DEPTH times that, and what the full bucket cannot hold goes to the
resource's lending pool, which holds at most one period of C; where no elastic clearing's bucket lacks bytes
nothing else changes, and where one clearing's does it draws what it lacks from the pool, as much as the pool
holds, and the draw is counted. -/
def Obligations.CoolantRatesAndRefill : Prop :=
  ∀ s : State, s.power.mode ≠ .off →
    (∀ flow tin tout, ∃ t : State, exec (.coolantLow flow tin tout) s = .next t ∧
      t.rd 0x1121 1 = i32 tin ∧ t.rd 0x1121 2 = i32 tout ∧ t.rd 0x1121 3 = flow ∧
      t.hub.seq = (if flow < 2400 ∧ s.power.coolFlag = false then (s.hub.seq + 1) % 2 ^ 32 else s.hub.seq) ∧
      s.sameEntriesBut t (eventKeys ++ [1, 2, 3].map (keyOf 0x1121)) ∧
      t = { s with dict := t.dict, hub := t.hub, power := { s.power with coolFlag := decide (flow < 2400) } }) ∧
    (∀ die beats, wfDie die = true → beats ≤ 2050000 → ∃ t : State, exec (.rateMeasure die beats) s = .next t ∧
      t.rd 0x1112 die = beats / 1000 ∧
      t.rd 0x1113 die = (if s.serving = true then min (s.rd 0x1113 die + beats) (2 ^ 64 - 1)
        else s.rd 0x1113 die) ∧
      s.sameEntriesBut t [keyOf 0x1112 die, keyOf 0x1113 die] ∧
      t = { s with dict := t.dict }) ∧
    (∀ die beats, wfDie die = true → 2050000 < beats → exec (.rateMeasure die beats) s = .next s) ∧
    (∀ n res dir, wfClearing n = true → wfRegulator res dir = true →
      s.clearState n ≠ 0 → 0 < s.rd 0x1112 (regDie res) →
      (∀ m, s.frc 0x2450 m = 1 → 0 ≤ s.bucket m res dir) → ∃ t : State,
      exec (.regRefill n res dir) s = .next t ∧
      (let rate := s.rd 0x1112 (regDie res)
       let add := s.frc (0x2410 + n) res * capacity res * 1024 / (4096000000 * rate)
       let top := s.rd 0x2400 3 * add
       t.bucket n res dir = min (s.bucket n res dir + add) top ∧
       (look t.pools (res * 2 + dir)).getD 0 =
         min ((look s.pools (res * 2 + dir)).getD 0 + (s.bucket n res dir + add - top).toNat)
           (capacity res * 1024 / (1000000 * rate))) ∧
      (∀ m r d, State.bucketKey m r d ≠ State.bucketKey n res dir → t.bucket m r d = s.bucket m r d) ∧
      (∀ k, k ≠ res * 2 + dir → look t.pools k = look s.pools k) ∧
      t = { s with buckets := t.buckets, pools := t.pools }) ∧
    (∀ n m res dir, wfClearing n = true → wfClearing m = true → wfRegulator res dir = true → m ≠ n →
      s.clearState n ≠ 0 → 0 < s.rd 0x1112 (regDie res) → s.frc 0x2450 m = 1 → s.bucket m res dir < 0 →
      (∀ k, k ≠ m → s.frc 0x2450 k = 1 → 0 ≤ s.bucket k res dir) → ∃ t : State,
      exec (.regRefill n res dir) s = .next t ∧
      (let rate := s.rd 0x1112 (regDie res)
       let add := s.frc (0x2410 + n) res * capacity res * 1024 / (4096000000 * rate)
       let top := s.rd 0x2400 3 * add
       let pool := min ((look s.pools (res * 2 + dir)).getD 0 + (s.bucket n res dir + add - top).toNat)
         (capacity res * 1024 / (1000000 * rate))
       let lent := min (- s.bucket m res dir).toNat pool
       t.bucket n res dir = min (s.bucket n res dir + add) top ∧ t.bucket m res dir = s.bucket m res dir + lent ∧
       (look t.pools (res * 2 + dir)).getD 0 = pool - lent ∧
       t.rd (0x24A0 + m) res =
         if lent = 0 then s.rd (0x24A0 + m) res else min (s.rd (0x24A0 + m) res + lent) (2 ^ 64 - 1)) ∧
      t = { s with buckets := t.buckets, pools := t.pools, lastDraw := t.lastDraw, dict := t.dict })

/-- In every power state PERST_ASSERT takes the link down and PERST_RELEASE lets it train once start-up step 2
has ended and answer once step 3 has; PCIE_LINK_DOWN, outside OFF, takes the link down. Nothing else of the
module changes. -/
def Obligations.PerstTouchesOnlyTheEndpoint : Prop :=
  ∀ s : State,
    exec .perstAssert s = .next { s with power := { s.power with perst := true, linkUp := false } } ∧
    (∃ t : State, exec .perstRelease s = .next t ∧ t.power.perst = false ∧
      (t.power.linkUp = true ↔ s.power.mode ≠ .off ∧ 2 ≤ s.rd 0x1200 1) ∧
      (t.power.answers = true ↔ s.power.mode ≠ .off ∧ 3 ≤ s.rd 0x1200 1) ∧
      t = { s with power := { s.power with
        perst := t.power.perst, linkUp := t.power.linkUp, answers := t.power.answers } }) ∧
    (s.power.mode ≠ .off →
      exec .pcieLinkDown s = .next { s with power := { s.power with linkUp := false } })

/-- Posting an event logs one record with the next SEQ, the module time and the fields given, keeps the last
4,096 records of the log, and, when EV_PRODUCED − EV_ACKED is not 16,384, writes the record at EV_PRODUCED mod
16,384 and raises EV_PRODUCED; otherwise it raises EV_LOST and EV_LOST_TOTAL. A detail of at most 32 bytes
stands in the record; a longer one is cut to 32 bytes, and TRUNCATED is set exactly when no block was allocated,
which is always so when the ring has no room. Nothing else changes. -/
def Obligations.PostRecordsEvent : Prop :=
  ∀ (s : State) (name : Name) (n slot : Nat) (status : Name) (tag : Nat) (detail : List Byte), ∃ (t : State) (e : Ev),
    s.postFull name n slot status tag detail = t ∧
    e.name = name ∧ e.seq = s.hub.seq ∧ e.time = s.time ∧ e.clearing = n ∧ e.slot = slot ∧ e.status = status ∧
    e.tag = tag ∧ e.detail = detail.take 32 ∧ (e.truncated = true ↔ 32 < detail.length ∧ e.long = none) ∧
    (detail.length ≤ 32 → e.long = none) ∧
    t.hub.evLog = (e :: s.hub.evLog).take 4096 ∧ t.hub.seq = (s.hub.seq + 1) % 2 ^ 32 ∧
    t.rd 0x7100 2 = s.hub.seq ∧
    ((s.hub.produced + 2 ^ 32 - s.hub.acked) % 2 ^ 32 ≠ 16384 →
      look t.hub.evRing (s.hub.produced % 16384) = some e ∧
      (∀ k, k ≠ s.hub.produced % 16384 → look t.hub.evRing k = look s.hub.evRing k) ∧
      t.hub.produced = (s.hub.produced + 1) % 2 ^ 32 ∧ t.hub.lost = s.hub.lost ∧ t.rd 0xA002 2 = s.rd 0xA002 2) ∧
    ((s.hub.produced + 2 ^ 32 - s.hub.acked) % 2 ^ 32 = 16384 →
      e.long = none ∧ t.hub.evRing = s.hub.evRing ∧ t.hub.produced = s.hub.produced ∧
      t.hub.lost = (s.hub.lost + 1) % 2 ^ 32 ∧ t.rd 0xA002 2 = min (s.rd 0xA002 2 + 1) (2 ^ 64 - 1)) ∧
    s.sameEntriesBut t eventKeys ∧
    t = { s with dict := t.dict, hub := { s.hub with
      seq := t.hub.seq, evLog := t.hub.evLog, details := t.hub.details, evRing := t.hub.evRing,
      produced := t.hub.produced, lost := t.hub.lost } }

/-- A host write of EV_ACKED from the previous EV_ACKED to EV_PRODUCED, compared modulo 2^32, is taken as
written, and a larger one is taken as EV_PRODUCED. The detail blocks of the events passed are freed, HOST_RB is
re-evaluated, and nothing else changes. While the host cannot reach the module the write changes nothing. -/
def Obligations.EvAckedIsBounded : Prop :=
  ∀ (v : Nat) (s : State), s.power.mode ≠ .off →
    (s.hostUp = true → ∃ t : State, exec (.evAckedWrite v) s = .next t ∧
      ((v % 2 ^ 32 + 2 ^ 32 - s.hub.acked) % 2 ^ 32 ≤ (s.hub.produced + 2 ^ 32 - s.hub.acked) % 2 ^ 32 →
        t.hub.acked = v % 2 ^ 32) ∧
      ((s.hub.produced + 2 ^ 32 - s.hub.acked) % 2 ^ 32 < (v % 2 ^ 32 + 2 ^ 32 - s.hub.acked) % 2 ^ 32 →
        t.hub.acked = s.hub.produced) ∧
      (∀ d, d ∈ t.hub.details ↔ d ∈ s.hub.details ∧
        ((t.hub.acked + 2 ^ 32 - d.seq) % 2 ^ 32 = 0 ∨ 2 ^ 31 ≤ (t.hub.acked + 2 ^ 32 - d.seq) % 2 ^ 32)) ∧
      t.rd 0xA002 3 = (if s.hub.produced = t.hub.acked then 0 else 1) ∧
      s.sameEntriesBut t [keyOf 0xA002 3] ∧
      t = { s with dict := t.dict, hub := { s.hub with acked := t.hub.acked, details := t.hub.details } }) ∧
    (s.hostUp = false → exec (.evAckedWrite v) s = .next s)

/-- A host write of CONSUMED of an output ring is stored. Equal to PRODUCED after ENDED it closes the ring and
frees its block; beyond PRODUCED while the request runs it also marks the ring's request of that clearing
invalid, and no other request. An offset at which no ring lies changes nothing. -/
def Obligations.RingConsumedCloses : Prop :=
  ∀ (off v : Nat) (s : State), s.power.mode ≠ .off → s.hostUp = true →
    (s.hub.rings.find? (fun r => r.2.offset == off) = none → exec (.ringConsumedWrite off v) s = .next s) ∧
    ∀ id r, s.hub.rings.find? (fun r => r.2.offset == off) = some (id, r) → ∃ t : State,
      exec (.ringConsumedWrite off v) s = .next t ∧
      (r.ended = true → v = r.produced → t = { s with hub := { s.hub with rings := del s.hub.rings id } }) ∧
      (¬(r.ended = true ∧ v = r.produced) →
        look t.hub.rings id = some { r with consumed := v } ∧
        (∀ k, k ≠ id → look t.hub.rings k = look s.hub.rings k)) ∧
      (v ≤ r.produced ∨ r.ended = true → t.clearings = s.clearings) ∧
      (r.produced < v → r.ended = false →
        (t.vat r.clearing).waiting =
          ((s.vat r.clearing).waiting.map fun q => if q.ring = some id then { q with invalid := true } else q) ∧
        (t.vat r.clearing).seqs = ((s.vat r.clearing).seqs.map fun x =>
          if x.req.ring = some id then { x with req := { x.req with invalid := true } } else x) ∧
        ∀ m, m ≠ r.clearing → t.clr m = s.clr m) ∧
      t = { s with clearings := t.clearings, hub := { s.hub with rings := t.hub.rings } }

/-- For a REGISTER_WRITE by an open role, the first of orders 1 to 7 that fails (no entry; RO or an arbiter
input that does not exist; the role may not write; WH outside HELD; length; reserved bit or code; range) is the
status answered, and nothing else of the state changes. -/
def Obligations.FirstFailingCheckRefuses : Prop :=
  ∀ (sess idx sub : Nat) (v : List Byte) (s : State) (r : Role), s.reachable = true → s.roleOf sess = some r →
    (entryAt idx sub = none →
      exec (.registerWrite sess idx sub v) s = .next (s.emit (.status .entryAbsent))) ∧
    ∀ e, entryAt idx sub = some e →
      (e.acc = .ro ∨ absentInput idx sub = true →
        exec (.registerWrite sess idx sub v) s = .next (s.emit (.status .entryReadOnly))) ∧
      (e.acc ≠ .ro → absentInput idx sub = false →
        (e.acc = .wm ∨ e.acc = .wh → r ≠ .manager →
          exec (.registerWrite sess idx sub v) s = .next (s.emit (.status .roleDenied))) ∧
        (e.acc = .wt → (∀ n, e.clearing idx sub = some n → r ≠ .tenant (s.tenantOf n)) →
          exec (.registerWrite sess idx sub v) s = .next (s.emit (.status .roleDenied))) ∧
        (s.mayWrite r e idx sub = true → e.acc = .wh → s.power.mode ≠ .held →
          exec (.registerWrite sess idx sub v) s = .next (s.emit (.status .notHeld))) ∧
        (s.mayWrite r e idx sub = true → (e.acc = .wh → s.power.mode = .held) →
          (lengthBad e idx sub v = true →
            exec (.registerWrite sess idx sub v) s = .next (s.emit (.status .typeMismatch))) ∧
          (lengthBad e idx sub v = false → reservedBad e idx sub v = true →
            exec (.registerWrite sess idx sub v) s = .next (s.emit (.status .reservedSet))) ∧
          (lengthBad e idx sub v = false → reservedBad e idx sub v = false → s.rangeBad e idx sub v = true →
            exec (.registerWrite sess idx sub v) s = .next (s.emit (.status .valueRange)))))

/-- Where the dictionary can be reached, every REGISTER_WRITE answers one status, and when that status is not OK
the state is as before; a micro-program entry is the exception, which stores the value and reads INVALID when
its check fails (06 R129). A write under a session that is not open is refused with SESSION_UNKNOWN. -/
def Obligations.RefusedWriteChangesNothing : Prop :=
  ∀ (sess idx sub : Nat) (v : List Byte) (s : State), s.reachable = true →
    (s.roleOf sess = none →
      exec (.registerWrite sess idx sub v) s = .next (s.emit (.status .sessionUnknown))) ∧
    ∃ (k : State) (why : Name), exec (.registerWrite sess idx sub v) s = .next (k.emit (.status why)) ∧
      (why ≠ .ok → ¬(0x3240 ≤ idx ∧ idx ≤ 0x327F) → k = s)

/-- A REGISTER_WRITE that passes orders 1 to 7 on a module-wide entry whose chapter gives the write no further
check or effect answers OK, the entry holds the value, the session's time begins anew, and no other entry and no
other state changes. -/
def Obligations.AcceptedValueIsHeld : Prop :=
  ∀ (sess idx sub : Nat) (v : List Byte) (s : State) (r : Role) (e : Entry),
    s.reachable = true → s.roleOf sess = some r → entryAt idx sub = some e → e.clearing idx sub = none →
    s.checkForm r false idx sub v .any = .ok →
    idx ∉ [0x1003, 0x1210, 0x3201, 0x4000, 0x6100, 0x7100, 0x8001, 0x8002] →
    (idx, sub) ∉ [(0x1100, 2), (0x1200, 3), (0x1202, 2), (0x1202, 3), (0xA010, 4)] →
    ¬(0x3240 ≤ idx ∧ idx ≤ 0x327F) → ¬(0x5000 ≤ idx ∧ idx < 0x5200) → ¬(0x8040 ≤ idx ∧ idx ≤ 0x807F) → ∃ t : State,
      exec (.registerWrite sess idx sub v) s = .next t ∧ t.outbox = s.outbox ++ [.status .ok] ∧
      (∀ w, e.ty.width = some w → t.rd idx sub = leNat v ∧ t.blobs = s.blobs) ∧
      (e.ty.width = none → t.rdBlob idx sub = v ∧ t.dict = s.dict) ∧
      (∀ k, k ≠ keyOf idx sub → look t.dict k = look s.dict k ∧ look t.blobs k = look s.blobs k) ∧
      t = { s with dict := t.dict, blobs := t.blobs, outbox := t.outbox, sec := (s.touch sess).sec }

/-- A write of EVLOG_SELECT or ATTEST_NONCE by a role changes what that session reads and no other session's
value, and nothing else but the session's time of its last request. -/
def Obligations.OwnEntriesAreHeldPerSession : Prop :=
  ∀ (sess : Nat) (v : List Byte) (s : State) (r : Role), s.reachable = true → s.roleOf sess = some r →
    (v.length = 4 → ∃ t : State, exec (.registerWrite sess 0x7100 3 v) s = .next t ∧
      t.readScalar sess 0x7100 3 = leNat v ∧
      (∀ other, (s.roleOf other).isSome = true → other ≠ sess →
        t.readScalar other 0x7100 3 = s.readScalar other 0x7100 3) ∧
      (∀ other, t.nonceOf other = s.nonceOf other) ∧
      t = { s with sec := { s.sec with sessions := t.sec.sessions, hostSelect := t.sec.hostSelect },
                   outbox := s.outbox ++ [.status .ok] }) ∧
    (v.length ≤ 32 → ∃ t : State, exec (.registerWrite sess 0x8001 1 v) s = .next t ∧ t.nonceOf sess = v ∧
      (∀ other, (s.roleOf other).isSome = true → other ≠ sess → t.nonceOf other = s.nonceOf other) ∧
      (∀ other, t.readScalar other 0x7100 3 = s.readScalar other 0x7100 3) ∧
      t = { s with sec := { s.sec with sessions := t.sec.sessions, hostNonce := t.sec.hostNonce },
                   outbox := s.outbox ++ [.status .ok] })

/-- A manager's ARB_CLEAR leaves every arbiter counter reading 0 and every other entry, the WAIT_LIMITs among
them, as it was. Each accepted write lets its session's time begin anew. A manager's write of 00h or 01h to
CELLAR_TTL_ENABLE is stored, and another value is refused with RESERVED_SET. A tenant's HEALTH_CLEAR of its
ACTIVE clearing marks the clear for the next boundary and changes no counter. Any other role is refused with
ROLE_DENIED. -/
def Obligations.ManagerClearsAndEnables : Prop :=
  ∀ (sess : Nat) (s : State) (r : Role), s.reachable = true → s.roleOf sess = some r →
    (r = .manager → ∃ t : State, exec (.arbClear sess) s = .next t ∧
      (∀ idx sub, 0x6110 ≤ idx → idx ≤ 0x618F → sub < 256 → ¬(0x31 ≤ sub ∧ sub ≤ 0x37) →
        look t.dict (keyOf idx sub) = none) ∧
      t.dict = s.dict.filter (fun p =>
        !(0x6110 ≤ p.1 / 256 && p.1 / 256 ≤ 0x618F && (p.1 % 256 < 0x31 || 0x37 < p.1 % 256))) ∧
      t = { s with dict := t.dict, outbox := s.outbox ++ [.status .ok], sec := (s.touch sess).sec }) ∧
    (r ≠ .manager → exec (.arbClear sess) s = .next (s.emit (.status .roleDenied))) ∧
    (∀ v, v < 256 → (r = .manager → v ≤ 1 →
        exec (.cellarTtlEnableWrite sess v) s = .next (((s.wr 0x4C10 1 v).touch sess).emit (.status .ok))) ∧
      (r = .manager → 1 < v → exec (.cellarTtlEnableWrite sess v) s = .next (s.emit (.status .reservedSet))) ∧
      (r ≠ .manager → exec (.cellarTtlEnableWrite sess v) s = .next (s.emit (.status .roleDenied)))) ∧
    (∀ n, wfClearing n = true →
      (r = .tenant (s.tenantOf n) → s.clearState n = 3 →
        exec (.healthClear sess n) s =
          .next (((s.setClr n { s.clr n with healthClear := true }).touch sess).emit (.status .ok))) ∧
      (r ≠ .tenant (s.tenantOf n) → exec (.healthClear sess n) s = .next (s.emit (.status .roleDenied))))

/-- A manager's STORE or RESET_DEFAULTS, while no store is in progress, erases the header of the bank that was
not loaded or last written, which is then invalid, begins to write there, in the layout of R380, every
persistent value as accepted, or no record, under a SEQ one above the newest valid bank's, and leaves the other
bank whole; while one is in progress it is refused with STORE_BUSY. STORE_DONE puts the bank being written in
place, counts the write in flash and one-time-programmable storage, reports the SEQ and posts STORE_DONE.
Current values do not change, and an accepted command lets its session's time begin anew. -/
def Obligations.StoreUsesTheOtherBank : Prop :=
  ∀ (sess : Nat) (s : State), s.reachable = true → s.roleOf sess = some .manager →
    (∀ (i : Instr) (code : Nat) (records : List (Nat × List Byte)),
      i = .store sess ∧ code = 1 ∧ records = s.persistRecords ∨ i = .resetDefaults sess ∧ code = 2 ∧ records = [] →
      (s.rd 0x1210 2 = 1 → exec i s = .next (s.emit (.status .storeBusy))) ∧
      (s.rd 0x1210 2 ≠ 1 → ∃ (t : State) (target seq : Nat) (b : Bank), exec i s = .next t ∧
        target = (if s.flash.lastBank = some 0 then 1 else 0) ∧ t.flash.writing = some (target, b) ∧
        b = bankOf seq (s.rd 0x1000 3) records ∧
        (b.bytes.length < 2 ^ 32 → b.valid = true ∧ b.records = records ∧ b.seq = seq ∧
          b.scaleId = s.rd 0x1000 3 % 2 ^ 32) ∧
        (∀ q, s.newestSeq = some q → seq = (q + 1) % 2 ^ 32) ∧ (s.newestSeq = none → seq = 1) ∧
        (target = 0 → t.flash.bank0 = s.flash.bank0.erased ∧ t.flash.bank0.valid = false ∧
          t.flash.bank1 = s.flash.bank1) ∧
        (target = 1 → t.flash.bank1 = s.flash.bank1.erased ∧ t.flash.bank1.valid = false ∧
          t.flash.bank0 = s.flash.bank0) ∧
        t.rd 0x1210 2 = 1 ∧ t.rd 0x1210 1 = code ∧ s.sameEntriesBut t [keyOf 0x1210 1, keyOf 0x1210 2] ∧
        t = { s with dict := t.dict, outbox := s.outbox ++ [.status .ok], sec := (s.touch sess).sec, flash := { s.flash with
          bank0 := t.flash.bank0, bank1 := t.flash.bank1, writing := t.flash.writing } })) ∧
    (∀ k b, s.flash.writing = some (k, b) → ∃ t : State, exec .storeDone s = .next t ∧
      (k = 0 → t.flash.bank0 = b ∧ t.flash.bank1 = s.flash.bank1) ∧
      (k ≠ 0 → t.flash.bank1 = b ∧ t.flash.bank0 = s.flash.bank0) ∧
      t.flash.writing = none ∧ t.flash.lastBank = some k ∧ t.rd 0x1210 2 = 0 ∧ t.rd 0x1210 4 = b.seq ∧
      s.posts t .storeDone 0xFF .ok ∧
      s.sameEntriesBut t ([keyOf 0x1210 2, keyOf 0x1210 4, keyOf 0x1210 5] ++ eventKeys) ∧
      t = { s with
        dict := t.dict, hub := t.hub, otp := { s.otp with storeWrites := s.otp.storeWrites + 1 },
        flash := { s.flash with
          bank0 := t.flash.bank0, bank1 := t.flash.bank1, writing := none, lastBank := some k } }) ∧
    (s.flash.writing = none → exec .storeDone s = .next s)

/-- In HELD a manager's FW_STAGE_DATA writes its bytes at FW_STAGE_OFFSET of the inactive image and no other
byte of it, ERASE empties it, and each leaves it unverified with its published version following; VERIFY records
whether the image passes the checks of 19 R412; SELECT after a VERIFY that returned OK writes both boot
selection records, in the layout of 19 R414, with the inactive image and a SEQ one above the newest, and
otherwise is refused with FW_UNVERIFIED. The active image, the banks and every other entry stay as they were.
Outside HELD each is refused with NOT_HELD. An accepted one lets its session's time begin anew. -/
def Obligations.StagingWritesTheInactiveImage : Prop :=
  ∀ (sess : Nat) (s : State), s.roleOf sess = some .manager → s.memoryWf →
    (s.power.mode = .held →
      (∀ v : List Byte, v.length ≤ 65536 → ∃ t : State, exec (.fwStageDataWrite sess v) s = .next t ∧
        (∀ a, Mem.read (t.image s.inactive) a =
          if s.rd 0x1202 1 ≤ a ∧ a < s.rd 0x1202 1 + v.length then v.getD (a - s.rd 0x1202 1) 0
          else Mem.read (s.image s.inactive) a) ∧
        t.image (1 - s.inactive) = s.image (1 - s.inactive) ∧
        t.rd 0x1201 (2 + s.inactive) = imageVersion s.otp (t.image s.inactive) ∧ t.rd 0x1202 4 = 0 ∧
        s.sameEntriesBut t [keyOf 0x1201 (2 + s.inactive), keyOf 0x1202 4] ∧
        t = { s with dict := t.dict, outbox := s.outbox ++ [.status .ok], sec := (s.touch sess).sec, flash := { s.flash with
          imageA := t.flash.imageA, imageB := t.flash.imageB, verified := false } }) ∧
      (∃ t : State, exec (.erase sess) s = .next t ∧ t.image s.inactive = [] ∧
        t.image (1 - s.inactive) = s.image (1 - s.inactive) ∧
        t.rd 0x1201 (2 + s.inactive) = imageVersion s.otp [] ∧ t.rd 0x1202 4 = 0 ∧ t.rd 0x1202 3 = 1 ∧
        s.sameEntriesBut t [keyOf 0x1201 (2 + s.inactive), keyOf 0x1202 3, keyOf 0x1202 4] ∧
        t = { s with dict := t.dict, outbox := s.outbox ++ [.status .ok], sec := (s.touch sess).sec, flash := { s.flash with
          imageA := t.flash.imageA, imageB := t.flash.imageB, verified := false } }) ∧
      (∃ t : State, exec (.verify sess) s = .next t ∧ t.flash.verified = imageOk s.otp (s.image s.inactive) ∧
        t.rd 0x1202 4 = (if t.flash.verified = true then 0 else Name.fwUnverified.code) ∧ t.rd 0x1202 3 = 2 ∧
        s.sameEntriesBut t [keyOf 0x1202 3, keyOf 0x1202 4] ∧
        t = { s with
          dict := t.dict, outbox := s.outbox ++ [.status .ok], sec := (s.touch sess).sec,
                     flash := { s.flash with verified := t.flash.verified } }) ∧
      (s.flash.verified = true → ∃ (t : State) (b : BootSel), exec (.select sess) s = .next t ∧
        t.flash.sel0 = selBytes b ∧ t.flash.sel1 = selBytes b ∧ selOf (selBytes b) = some b ∧ b.image = s.inactive ∧
        b.version = field (Mem.reads (s.image s.inactive) 0 12) 8 4 ∧
        (selOf s.flash.sel0 = none → selOf s.flash.sel1 = none → b.seq = 1) ∧
        (∀ x, selOf s.flash.sel0 = some x → selOf s.flash.sel1 = none → b.seq = (x.seq + 1) % 2 ^ 32) ∧
        (∀ y, selOf s.flash.sel0 = none → selOf s.flash.sel1 = some y → b.seq = (y.seq + 1) % 2 ^ 32) ∧
        (∀ x y, selOf s.flash.sel0 = some x → selOf s.flash.sel1 = some y →
          b.seq = ((if seqNewer y.seq x.seq then y.seq else x.seq) + 1) % 2 ^ 32) ∧
        t.rd 0x1202 4 = 0 ∧ t.rd 0x1202 3 = 3 ∧ s.sameEntriesBut t [keyOf 0x1202 3, keyOf 0x1202 4] ∧
        t = { s with
          dict := t.dict, outbox := s.outbox ++ [.status .ok], sec := (s.touch sess).sec,
                     flash := { s.flash with sel0 := selBytes b, sel1 := selBytes b } }) ∧
      (s.flash.verified = false → exec (.select sess) s = .next (s.emit (.status .fwUnverified)))) ∧
    (s.reachable = true → s.power.mode ≠ .held → ∀ i, i = .erase sess ∨ i = .verify sess ∨ i = .select sess ∨
      (∃ v, i = .fwStageDataWrite sess v) → exec i s = .next (s.emit (.status .notHeld)))

/-- APERTURE_LOAD of a STR or BLOB entry the host may read copies its value to the front of the aperture, sets
APERTURE_LEN to its length and APERTURE_STATUS to OK; a command of a session lets its time begin anew; a refused
LOAD (no entry, not readable, a scalar) only sets APERTURE_STATUS. APERTURE_COMMIT applies the first
APERTURE_LEN bytes as one write in the host role and reports its status: ATTEST_NONCE takes them, and no entry,
a read-only one and one of the manager refuse them. BAR0_WRITE stores bytes into the aperture, or writes the
entry whose place it starts at in the host role, an entry of the host then holding the value and nothing else
changing; a refusal (read-only, role, kind of transfer) changes only BAR0_LAST_STATUS and BAR0_REFUSED. While
the host cannot reach the module BAR0_WRITE changes nothing. -/
def Obligations.ApertureAndBar0 : Prop :=
  ∀ s : State, s.reachable = true →
    (∀ sess r e, s.roleOf sess = some r → entryAt (s.rd 0xA010 1) (s.rd 0xA010 2) = some e →
      e.ty.width = none → s.mayRead .host e (s.rd 0xA010 1) (s.rd 0xA010 2) = true →
      (∀ b, (s.wr 0xA010 4 1).readEntry 0 (s.rd 0xA010 1) (s.rd 0xA010 2) = .ok b → ∃ t : State,
        exec (.apertureLoad sess) s = .next t ∧ t.hub.aperture.take b.length = b ∧
        t.hub.aperture.drop b.length = s.hub.aperture.drop b.length ∧
        t.rd 0xA010 3 = b.length ∧ t.rd 0xA010 4 = 1 ∧ t.rd 0xA010 5 = 0 ∧
        s.sameEntriesBut t [keyOf 0xA010 3, keyOf 0xA010 4, keyOf 0xA010 5] ∧
        t = { s with dict := t.dict, hub := { s.hub with aperture := t.hub.aperture },
                     outbox := s.outbox ++ [.status .ok], sec := (s.touch sess).sec }) ∧
      (∀ why, (s.wr 0xA010 4 1).readEntry 0 (s.rd 0xA010 1) (s.rd 0xA010 2) = .error why → ∃ t : State,
        exec (.apertureLoad sess) s = .next t ∧ t.rd 0xA010 4 = 1 ∧ t.rd 0xA010 5 = why.code ∧
        s.sameEntriesBut t [keyOf 0xA010 4, keyOf 0xA010 5] ∧
        t = { s with dict := t.dict, outbox := s.outbox ++ [.status .ok], sec := (s.touch sess).sec })) ∧
    (∀ sess r e, s.roleOf sess = some r → entryAt (s.rd 0xA010 1) (s.rd 0xA010 2) = some e → e.ty.width = none →
      s.mayRead .host e (s.rd 0xA010 1) (s.rd 0xA010 2) = true → s.rd 0xA010 1 ∉ [0x1002, 0x1202, 0x7100, 0x8001] →
      ¬(0x9010 ≤ s.rd 0xA010 1 ∧ s.rd 0xA010 1 ≤ 0x901F) → ∃ t : State, exec (.apertureLoad sess) s = .next t ∧
        t.hub.aperture = s.rdBlob (s.rd 0xA010 1) (s.rd 0xA010 2) ++
          s.hub.aperture.drop (s.rdBlob (s.rd 0xA010 1) (s.rd 0xA010 2)).length ∧
        t.rd 0xA010 3 = (s.rdBlob (s.rd 0xA010 1) (s.rd 0xA010 2)).length ∧ t.rd 0xA010 4 = 1 ∧ t.rd 0xA010 5 = 0 ∧
        s.sameEntriesBut t [keyOf 0xA010 3, keyOf 0xA010 4, keyOf 0xA010 5] ∧
        t = { s with dict := t.dict, hub := { s.hub with aperture := t.hub.aperture },
                     outbox := s.outbox ++ [.status .ok], sec := (s.touch sess).sec }) ∧
    (∀ (sess : Nat) (r : Role) (why : Machine.Name), s.roleOf sess = some r →
      (entryAt (s.rd 0xA010 1) (s.rd 0xA010 2) = none ∧ why = .entryAbsent ∨
        (∃ e, entryAt (s.rd 0xA010 1) (s.rd 0xA010 2) = some e ∧
          (s.mayRead .host e (s.rd 0xA010 1) (s.rd 0xA010 2) = false ∧ why = .roleDenied ∨
            s.mayRead .host e (s.rd 0xA010 1) (s.rd 0xA010 2) = true ∧ e.ty.width ≠ none ∧ why = .transferKind))) →
      ∃ t : State, exec (.apertureLoad sess) s = .next t ∧ t.rd 0xA010 4 = 1 ∧ t.rd 0xA010 5 = why.code ∧
        s.sameEntriesBut t [keyOf 0xA010 4, keyOf 0xA010 5] ∧
        t = { s with dict := t.dict, outbox := s.outbox ++ [.status .ok], sec := (s.touch sess).sec }) ∧
    (∀ sess r, s.roleOf sess = some r → s.rd 0xA010 1 = 0x8001 → s.rd 0xA010 2 = 1 → s.rd 0xA010 3 ≤ 32 →
      s.session 0 = none → ∃ t : State, exec (.apertureCommit sess) s = .next t ∧
        t.sec = { (s.touch sess).sec with hostNonce := slice s.hub.aperture 0 (s.rd 0xA010 3) } ∧
        t.rd 0xA010 4 = 2 ∧ t.rd 0xA010 5 = 0 ∧ s.sameEntriesBut t [keyOf 0xA010 4, keyOf 0xA010 5] ∧
        t = { s with sec := t.sec, dict := t.dict, outbox := s.outbox ++ [.status .ok] }) ∧
    (∀ (sess : Nat) (r : Role) (why : Machine.Name), s.roleOf sess = some r →
      (entryAt (s.rd 0xA010 1) (s.rd 0xA010 2) = none ∧ why = .entryAbsent ∨
        (∃ e, entryAt (s.rd 0xA010 1) (s.rd 0xA010 2) = some e ∧
          (e.acc = .ro ∧ why = .entryReadOnly ∨ e.acc = .wm ∧ absentInput (s.rd 0xA010 1) (s.rd 0xA010 2) = false ∧
            why = .roleDenied))) → ∃ t : State, exec (.apertureCommit sess) s = .next t ∧
        t.rd 0xA010 4 = 2 ∧ t.rd 0xA010 5 = why.code ∧ s.sameEntriesBut t [keyOf 0xA010 4, keyOf 0xA010 5] ∧
        t = { s with dict := t.dict, outbox := s.outbox ++ [.status .ok], sec := (s.touch sess).sec }) ∧
    (∀ sess r, s.roleOf sess = some r → ∃ (t s1 : State) (w : Name × State),
      exec (.apertureCommit sess) s = .next t ∧ s1.rd 0xA010 4 = 2 ∧ s.sameEntriesBut s1 [keyOf 0xA010 4] ∧
      s1 = { s with dict := s1.dict } ∧
      w = s1.writeAs .host 0 false (s.rd 0xA010 1) (s.rd 0xA010 2) (slice s.hub.aperture 0 (s.rd 0xA010 3)) .long
        (s1.knownGens (s.rd 0xA010 1)) ∧
      t = ((w.2.wr 0xA010 5 w.1.code).touch sess).emit (.status .ok)) ∧
    (∀ off v, s.hostUp = false → exec (.bar0Write off v) s = .next s) ∧
    (∀ off v, s.hostUp = true → 0xC00000 ≤ off → off < 0xC10000 → exec (.bar0Write off v) s = .next
      { s with hub := { s.hub with aperture :=
          (overwrite s.hub.aperture (off - 0xC00000) v).take 65536 } }) ∧
    (∀ off v, s.hostUp = true → 0xC10000 ≤ off → ∃ t : State, exec (.bar0Write off v) s = .next t ∧
      t.rd 0xA011 1 = Name.entryAbsent.code ∧ t.rd 0xA011 2 = min (s.rd 0xA011 2 + 1) (2 ^ 64 - 1) ∧
      s.sameEntriesBut t [keyOf 0xA011 1, keyOf 0xA011 2] ∧ t = { s with dict := t.dict }) ∧
    (∀ off v idx sub e, s.hostUp = true → barPlace off = some (idx, sub) → off % 8 = 0 → entryAt idx sub = some e →
      (∀ w, e.acc = .rw → e.ty.width = some w → v.length = w → reservedBad e idx sub v = false →
        s.rangeBad e idx sub v = false → idx = 0xA010 → sub ≠ 4 →
        ∃ t : State, exec (.bar0Write off v) s = .next t ∧ t.rd idx sub = leNat v ∧
          s.sameEntriesBut t [keyOf idx sub] ∧ t = { s with dict := t.dict }) ∧
      (∀ why : Machine.Name, e.acc = .ro ∧ why = .entryReadOnly ∨
          e.acc = .wm ∧ absentInput idx sub = false ∧ why = .roleDenied ∨
          e.acc = .rw ∧ e.ty.width = none ∧ absentInput idx sub = false ∧ why = .transferKind →
        ∃ t : State, exec (.bar0Write off v) s = .next t ∧ t.rd 0xA011 1 = why.code ∧
          t.rd 0xA011 2 = min (s.rd 0xA011 2 + 1) (2 ^ 64 - 1) ∧
          s.sameEntriesBut t [keyOf 0xA011 1, keyOf 0xA011 2] ∧ t = { s with dict := t.dict })) ∧
    (∀ off v idx sub w, s.hostUp = true → barPlace off = some (idx, sub) → w = (if off % 8 = 0 then v else []) →
      (∀ k, s.applyWrite 0 idx sub w .scalar = (.ok, k) → exec (.bar0Write off v) s = .next k) ∧
      (∀ why, why ≠ .ok → ¬(0x3240 ≤ idx ∧ idx ≤ 0x327F) → (s.applyWrite 0 idx sub w .scalar).1 = why →
        ∃ t : State, exec (.bar0Write off v) s = .next t ∧ t.rd 0xA011 1 = why.code ∧
          t.rd 0xA011 2 = min (s.rd 0xA011 2 + 1) (2 ^ 64 - 1) ∧
          s.sameEntriesBut t [keyOf 0xA011 1, keyOf 0xA011 2] ∧ t = { s with dict := t.dict }))

/-- SESSION_OPEN_MANAGER and SESSION_OPEN_TENANT with a well-formed request open a session of the next number,
with the session key of 19 R406 and COUNTER 0, when CRYPTO_STATE is OK, the key exists, the MAC proves it and
fewer than 64 sessions are open, and the reply names the number; otherwise no session opens and the reply
carries CRYPTO_UNAVAILABLE, MANAGER_ABSENT or KEY_ABSENT, SESSION_PROOF, SESSIONS_FULL, the first that applies;
a tenant whose delivered value does not open proves nothing (SESSION_PROOF; the model's reading, log entry 10).
Beside the DRBG's count, SESSION_OPEN, SESSION_REPLY and the time of the session that the command came under
nothing else changes. -/
def Obligations.SessionsOpenByProof : Prop :=
  ∀ (sess : Nat) (v : List Byte) (s : State) (i : Instr) (r : Role) (a : Option (List Byte)) (absent : Name),
    s.reachable = true → (s.roleOf sess).isSome = true → v.length = 1696 → sessionReserved v = false →
    (i = .sessionOpenManager sess v ∧ field v 1 1 = 1 ∧ r = .manager ∧ a = s.managerKey ∧
        absent = .managerAbsent ∨
      i = .sessionOpenTenant sess v ∧ field v 1 1 = 2 ∧ r = .tenant (field v 4 4) ∧
        (s.tenantKeyed (field v 4 4) = true ∧ a = s.provingKey (field v 4 4) ∧ absent = .sessionProof ∨
          s.tenantKeyed (field v 4 4) = false ∧ a = none ∧ absent = .keyAbsent)) →
    ∃ t : State, exec i s = .next t ∧ t.rdBlob 0x8002 1 = v ∧
      (∀ k, k ≠ keyOf 0x8002 1 → k ≠ keyOf 0x8002 2 → look t.blobs k = look s.blobs k) ∧
      t = { s with sec := t.sec, blobs := t.blobs, outbox := s.outbox ++ [.status .ok] } ∧
      (∀ key, s.rd 0x8003 1 = 0 → a = some key → proves key v = true → s.sec.sessions.length < 64 →
        ∃ x : Session, x.num = s.sec.nextSession ∧ x.role = r ∧ x.counter = 0 ∧ x.lastAt = s.time ∧
          x.sk = hkdf (s.kemOpen (slice v 48 1568)) key
            (ascii "CRIRON-SK" ++ slice v 16 32 ++ Config.drbg s.otp.startCount s.sec.drbgCount 32) 32 ∧
          t.sec = ({ s with sec := { s.sec with
            sessions := s.sec.sessions ++ [x], nextSession := s.sec.nextSession + 1,
            drbgCount := s.sec.drbgCount + 1 } }.touch sess).sec ∧
          t.rdBlob 0x8002 2 =
            sessionReply (field v 1 1) .ok x.num (slice v 16 32) (Config.drbg s.otp.startCount s.sec.drbgCount 32) x.sk) ∧
      (∀ why, (s.rd 0x8003 1 ≠ 0 ∧ why = .cryptoUnavailable) ∨
          (s.rd 0x8003 1 = 0 ∧ a = none ∧ why = absent) ∨
          (s.rd 0x8003 1 = 0 ∧ (∃ key, a = some key ∧ proves key v = false) ∧ why = .sessionProof) ∨
          (s.rd 0x8003 1 = 0 ∧ (∃ key, a = some key ∧ proves key v = true) ∧ 64 ≤ s.sec.sessions.length ∧
            why = .sessionsFull) →
        t.sec = { (s.touch sess).sec with drbgCount := s.sec.drbgCount + 1 } ∧
        t.rdBlob 0x8002 2 =
          sessionReply (field v 1 1) why 0 (slice v 16 32) (Config.drbg s.otp.startCount s.sec.drbgCount 32) [])

/-- A session reply carries VER 01h, the KIND, the status code, the session number, the opener's nonce and the
reply nonce at the offsets of R405, and 32 zero bytes for the MAC when the request was refused. A response to a
request without a session carries VER 01h, its FTYPE, the request's INDEX and SUBINDEX, the data length, the
status code at 24, the total length at 28 and the data from 32, and ends there. -/
def Obligations.ReplyLayouts : Prop :=
  (∀ (kind : Nat) (why : Name) (num : Nat) (opener reply sk : List Byte),
    kind < 256 → num < 2 ^ 32 → opener.length = 32 → reply.length = 32 →
    let b := sessionReply kind why num opener reply sk
    field b 0 1 = 1 ∧ field b 1 1 = kind ∧ field b 2 2 = 0 ∧ field b 4 4 = why.code % 2 ^ 32 ∧ field b 8 4 = num ∧
    field b 12 4 = 0 ∧ slice b 16 32 = opener ∧ slice b 48 32 = reply ∧
    (why ≠ .ok → b.length = 112 ∧ slice b 80 32 = zeros 32) ∧
    (why = .ok → slice b 80 32 = slice (hmac sk (ascii "CRIRON-SR" ++ b.take 80)) 0 32)) ∧
  (∀ (s : State) (p : List Byte) (ftype : Nat) (why : Name) (total : Nat) (v : List Byte),
    ftype < 256 → v.length < 65536 → total < 2 ^ 32 → field p 12 4 = 0 →
    let b := frameReply s p ftype why total v
    field b 0 1 = 1 ∧ field b 1 1 = ftype ∧ field b 4 2 = field p 4 2 ∧ field b 6 1 = field p 6 1 ∧
    field b 8 2 = v.length ∧ field b 24 4 = why.code % 2 ^ 32 ∧ field b 28 4 = total ∧ slice b 32 v.length = v ∧
    b.length = 32 + v.length)

/-- A COMMISSION that is proven (with the manager key in force, or 32 zero bytes before the first) and whose
sealed key opens puts the new key in force, keeps the older ones, closes every manager session and no other, and
posts MANAGER_COMMISSIONED; the reply names the next session number (the model's choice, log entry 10). It is
refused with CRYPTO_UNAVAILABLE, COMMISSION_FULL after the eighth, or SESSION_PROOF, and then no key and no
session changes but the time of the one it came under. -/
def Obligations.CommissionInstallsAManagerKey : Prop :=
  ∀ (sess : Nat) (v : List Byte) (s : State), s.reachable = true → (s.roleOf sess).isSome = true →
    v.length = 1696 → sessionReserved v = false → field v 1 1 = 3 →
    let a := s.managerKey.getD (zeros 32)
    let opened := Config.gcmOpen (hkdf (s.kemOpen (slice v 48 1568)) [] (ascii "CRIRON-CM") 32)
      (zeros 12) (slice v 0 48) (slice v 1616 32) (slice v 1648 16)
    (∀ mk, s.rd 0x8003 1 = 0 → s.otp.managerKeys.length < 8 → proves a v = true → opened = some mk →
      ∃ t : State, exec (.commission sess v) s = .next t ∧
        t.otp = { s.otp with
          managerKeys := { under := s.otp.deviceSecret, content := mk } :: s.otp.managerKeys } ∧ t.managerKey = some mk ∧
        t.sec = ({ s with sec := { s.sec with
          drbgCount := s.sec.drbgCount + 1, nextSession := s.sec.nextSession + 1,
          sessions := s.sec.sessions.filter fun x => x.role != Role.manager } }.touch sess).sec ∧
        t.rdBlob 0x8002 2 = sessionReply 3 .ok s.sec.nextSession (slice v 16 32)
          (Config.drbg s.otp.startCount s.sec.drbgCount 32)
          (s.sessionKey v a (Config.drbg s.otp.startCount s.sec.drbgCount 32)) ∧
        s.posts t .managerCommissioned 0xFF .ok ∧ s.sameEntriesBut t eventKeys ∧
        (∀ k, k ≠ keyOf 0x8002 1 → k ≠ keyOf 0x8002 2 → look t.blobs k = look s.blobs k) ∧
        t = { s with
          dict := t.dict, hub := t.hub, otp := t.otp, sec := t.sec, blobs := t.blobs,
                     outbox := s.outbox ++ [.status .ok] }) ∧
    (∀ why, (s.rd 0x8003 1 ≠ 0 ∧ why = .cryptoUnavailable) ∨
        (s.rd 0x8003 1 = 0 ∧ 8 ≤ s.otp.managerKeys.length ∧ why = .commissionFull) ∨
        (s.rd 0x8003 1 = 0 ∧ s.otp.managerKeys.length < 8 ∧ (proves a v = false ∨ opened = none) ∧
          why = .sessionProof) →
      ∃ t : State, exec (.commission sess v) s = .next t ∧
        t.rdBlob 0x8002 2 = sessionReply 3 why 0 (slice v 16 32) (Config.drbg s.otp.startCount s.sec.drbgCount 32) [] ∧
        t.sec = { (s.touch sess).sec with drbgCount := s.sec.drbgCount + 1 } ∧
        t = { s with sec := t.sec, blobs := t.blobs, outbox := s.outbox ++ [.status .ok] })

/-- A CLOSE proven with the session's own key closes that session and no other; one that is not proven, or names
a session that is not open, closes none; an accepted command lets the time of the session it came under begin
anew. SESSION_TIMEOUT closes the named session exactly when 3,600 s have passed since its last accepted request,
and changes nothing else. -/
def Obligations.SessionsClose : Prop :=
  ∀ (sess : Nat) (v : List Byte) (s : State),
    (s.reachable = true → (s.roleOf sess).isSome = true → v.length = 1696 → sessionReserved v = false →
      field v 1 1 = 4 → ∃ t : State, exec (.close sess v) s = .next t ∧
        (∀ x, s.session (field v 8 4) = some x → proves x.sk v = true →
          t.sec.sessions = ({ s with sec := { s.sec with
            sessions := s.sec.sessions.filter fun y => y.num != x.num } }.touch sess).sec.sessions ∧
          t.rdBlob 0x8002 2 = sessionReply 4 .ok x.num (slice v 16 32) (Config.drbg s.otp.startCount s.sec.drbgCount 32) x.sk) ∧
        (∀ x, s.session (field v 8 4) = some x → proves x.sk v = false → t.sec.sessions = (s.touch sess).sec.sessions ∧
          t.rdBlob 0x8002 2 =
            sessionReply 4 .sessionProof 0 (slice v 16 32) (Config.drbg s.otp.startCount s.sec.drbgCount 32) []) ∧
        (s.session (field v 8 4) = none → t.sec.sessions = (s.touch sess).sec.sessions ∧
          t.rdBlob 0x8002 2 =
            sessionReply 4 .sessionUnknown 0 (slice v 16 32) (Config.drbg s.otp.startCount s.sec.drbgCount 32) []) ∧
        t = { s with sec := { s.sec with sessions := t.sec.sessions, drbgCount := s.sec.drbgCount + 1 },
                     blobs := t.blobs, outbox := s.outbox ++ [.status .ok] }) ∧
    (∀ num x, s.power.mode ≠ .off → s.session num = some x →
      (3600000000000 ≤ s.time - x.lastAt → exec (.sessionTimeout num) s = .next
        { s with sec := { s.sec with sessions := s.sec.sessions.filter fun y => y.num != num } }) ∧
      (s.time - x.lastAt < 3600000000000 → exec (.sessionTimeout num) s = .next s)) ∧
    (∀ num, s.power.mode ≠ .off → s.session num = none → exec (.sessionTimeout num) s = .next s)

/-- A frame of the kind expected with a non-zero SESSION is refused with SESSION_UNKNOWN when the session is not
open, with SESSION_TAG when its TAG fails, and with SESSION_REPLAY when its COUNTER is not above the last
accepted one, in which cases nothing but the refusal is sent and no state changes; a request with the last
accepted COUNTER and the same bytes is not applied again and its response is sent again, which for a transfer
still open begins its 100 ms anew. -/
def Obligations.RequestsAreAdmittedOnce : Prop :=
  ∀ (fr : FieldFrame) (s : State) (i : Instr) (ftype : Nat),
    (i = .read fr ∧ ftype = 1 ∨ i = .write fr ∧ ftype = 2 ∨ i = .segRead fr ∧ ftype = 4 ∨
      i = .segWrite fr ∧ ftype = 5 ∨ i = .abort fr ∧ ftype = 7) →
    s.takesFrame fr ftype = true → frameReserved fr.payload = false → field fr.payload 12 4 ≠ 0 →
    let p := fr.payload
    let whole := slice p 0 (32 + field p 8 2)
    let tag := slice p (32 + field p 8 2) 16
    let refused (why : Name) := exec i s = .next (s.emit (.frame fr.src (frameReply s p 3 why 0 [])))
    (s.session (field p 12 4) = none → refused .sessionUnknown) ∧
    (∀ x, s.session (field p 12 4) = some x →
      (tag ≠ tagOf x.sk 0 whole → refused .sessionTag) ∧
      (tag = tagOf x.sk 0 whole → field p 16 8 < x.counter → refused .sessionReplay) ∧
      (tag = tagOf x.sk 0 whole → field p 16 8 = x.counter → x.lastReq ≠ whole → refused .sessionReplay) ∧
      (tag = tagOf x.sk 0 whole → field p 16 8 = x.counter → x.lastReq = whole →
        exec i s = .next ((s.renewTransfer p).emit (.frame fr.src x.lastReply))))

/-- ATTEST_REPORT_READ under an open role returns a report whose TAG, VER, ROLE, TENANT, NONCE, FW_ACTIVE,
CRYPTO_STATE, ROLLBACK, MODULE_TIME and SERIAL stand at the offsets of R416, whose entry of a clearing the
reader may not read is zero, and whose signature is the attestation key's over bytes 0 to 1,279. Nothing but the
returned value changes; a session that is not open is refused with SESSION_UNKNOWN. -/
def Obligations.AttestationReport : Prop :=
  ∀ (sess : Nat) (s : State), s.reachable = true →
    (s.roleOf sess = none → exec (.attestReportRead sess) s = .next (s.emit (.status .sessionUnknown))) ∧
    ∀ r, s.roleOf sess = some r → ∃ b : List Byte, exec (.attestReportRead sess) s = .next (s.emit (.value b)) ∧
      b.length = 18368 ∧ slice b 0 8 = ascii "CRIRONAR" ∧ field b 8 1 = 1 ∧
      field b 9 1 = (match r with | .host => 0 | .manager => 1 | .tenant _ => 2) ∧
      field b 12 4 = (match r with | .tenant t => t % 2 ^ 32 | _ => 0) ∧
      slice b 16 32 = slice (s.nonceOf sess) 0 32 ∧
      field b 148 1 = s.rd 0x1201 1 % 256 ∧ field b 149 1 = s.rd 0x8003 1 % 256 ∧
      field b 152 4 = s.otp.rollback % 2 ^ 32 ∧ field b 160 8 = s.time % 2 ^ 64 ∧
      slice b 200 16 = slice s.otp.serial 0 16 ∧
      (∀ n, n < 64 → r ≠ .manager → r ≠ .tenant (s.tenantOf n) →
        slice b (256 + 16 * n) 16 = zeros 16) ∧
      slice b 1280 17088 = slice (s.signAttest (b.take 1280)) 0 17088

/-- A manager's KEY_WRAPPED write of 1,676 well-formed bytes is refused with CLEARING_EXISTS, CLEARING_BUSY,
KEY_BINDING, KEY_STALE or CRYPTO_UNAVAILABLE, the first that applies, changing nothing; else KEY_STATE reads
DELIVERED, the opening starts and the session's time begins anew. When the opening ends with no CREATE held, the
key is kept if it opens and agrees with the key the tenant already has; otherwise KEY_STATE reads REFUSED and
KEY_REFUSED is posted, with KEY_TENANT_CONFLICT where the keys differ. A held CREATE that still lacks its key is
refused with the event CLEARING_REFUSED, and one that has it proceeds: the clearing is CREATING. -/
def Obligations.KeysAreDeliveredAndOpened : Prop :=
  ∀ (n : Nat) (s : State), wfClearing n = true → s.power.mode ≠ .off →
    (∀ (sess : Nat) (v : List Byte), s.reachable = true → s.roleOf sess = some .manager → v.length = 1676 →
      keyReserved v = false →
      let refused (why : Name) := exec (.keyWrappedWrite sess n v) s = .next (s.emit (.status why))
      let bound := field v 1 1 = n ∧ field v 4 4 = s.tenantOf n ∧ field v 8 4 = s.jobOf n
      (s.exists? n = true → refused .clearingExists) ∧
      (s.exists? n = false → (s.clr n).heldCreate = true → refused .clearingBusy) ∧
      (s.exists? n = false → (s.clr n).heldCreate = false →
        (¬bound → refused .keyBinding) ∧
        (bound → slice v 16 32 ≠ s.kemHash → refused .keyStale) ∧
        (bound → slice v 16 32 = s.kemHash → s.rd 0x8003 1 ≠ 0 → refused .cryptoUnavailable) ∧
        (bound → slice v 16 32 = s.kemHash → s.rd 0x8003 1 = 0 → exec (.keyWrappedWrite sess n v) s = .next
          (({ s.wr (0x8040 + n) 2 1 with sec := { s.sec with
              opening := ins s.sec.opening n v, delivered := del s.sec.delivered n } }.touch sess).emit (.status .ok))))) ∧
    (look s.sec.opening n = none → exec (.keyOpeningDone n) s = .next s) ∧
    (∀ v, look s.sec.opening n = some v →
      let done : State := { s with sec := { s.sec with opening := del s.sec.opening n } }
      ((s.clr n).heldCreate = false → ∀ k, s.unwrap v = some k →
        (s.tenantKey (s.tenantOf n) = none ∨ s.tenantKey (s.tenantOf n) = some k) →
        exec (.keyOpeningDone n) s =
          .next { done with sec := { done.sec with delivered := ins s.sec.delivered n k } }) ∧
      ((s.clr n).heldCreate = false → ∀ why,
        (s.unwrap v = none ∧ why = .keyRefused) ∨
          (∃ k old, s.unwrap v = some k ∧ s.tenantKey (s.tenantOf n) = some old ∧ old ≠ k ∧
            why = .keyTenantConflict) →
        ∃ t : State, exec (.keyOpeningDone n) s = .next t ∧ t.rd (0x8040 + n) 2 = 3 ∧
          s.posts t .keyRefused n why ∧ s.sameEntriesBut t (keyOf (0x8040 + n) 2 :: eventKeys) ∧
          (∀ x, x ∈ t.sec.sessions → x ∈ s.sec.sessions) ∧
          t = { s with dict := t.dict, hub := t.hub, sec := { s.sec with
            opening := del s.sec.opening n, sessions := t.sec.sessions } }) ∧
      ((s.clr n).heldCreate = true → s.rd 0x4000 7 = 1 → s.unwrap v = none → look s.sec.delivered n = none →
        ∃ t : State, exec (.keyOpeningDone n) s = .next t ∧ (t.clr n).heldCreate = false ∧
          (∃ e, t.hub.evLog.head? = some e ∧ e.name = .clearingRefused ∧ e.clearing = n ∧ e.status = .keyAbsent) ∧
          t.clearState n = s.clearState n) ∧
      ((s.clr n).heldCreate = true → ∀ k, s.unwrap v = some k →
        (s.tenantKey (s.tenantOf n) = none ∨ s.tenantKey (s.tenantOf n) = some k) →
        ∃ t : State, exec (.keyOpeningDone n) s = .next t ∧ (t.clr n).heldCreate = false ∧ t.clearState n = 1 ∧
          t.rd (0x8040 + n) 2 = 2 ∧ t.mem = s.mem ∧ t.otp = s.otp))

/-- After CRYPTO_ERROR the security block holds no session, no attestation or encapsulation key, no tenant key,
no clearing key, no key being opened and no delivered key, every clearing is ABSENT, CRYPTO_ERROR is the last
event posted, and one-time-programmable storage, flash and the power state are as before. -/
def Obligations.CryptoErrorZeroises : Prop :=
  ∀ s : State, s.power.mode ≠ .off → ∃ t : State, exec .cryptoError s = .next t ∧
    t.sec.sessions = [] ∧ t.sec.tenantKeys = [] ∧ t.sec.clearingKeys = [] ∧ t.sec.opening = [] ∧
    t.sec.delivered = [] ∧ t.sec.attestKey = none ∧ t.sec.kemKey = none ∧ (∀ n, n < 64 → t.clearState n = 0) ∧
      t.rd 0x8003 1 = 2 ∧
    (∃ e, t.hub.evLog.head? = some e ∧ e.name = .cryptoError ∧ e.clearing = 0xFF) ∧
    t.otp = s.otp ∧ t.flash = s.flash ∧ t.power = s.power ∧ t.time = s.time

/-- A manager's write of MP_STEPS, MP_TABLE_BASE or MP_TABLE_LEN of an entry that is IN_USE is refused with
MICROPROG_BUSY; any other is stored, and the entry reads LOADING with its CLAMPED flag and CRC, or, when it
fails a check of 06 R129, INVALID with status MICROPROG_INVALID. A write of MP_TABLE that changes a record of an
IN_USE entry is refused; any other is stored, each LOADING or LOADED entry whose records it changes is validated
again, and no other entry's state changes; an accepted write lets its session's time begin anew.
MICROPROG_LOADED turns LOADING into LOADED and changes nothing else. -/
def Obligations.MicroProgramStore : Prop :=
  ∀ (sess : Nat) (s : State), s.reachable = true → s.roleOf sess = some .manager →
    (∀ (entry sub : Nat) (v : List Byte), wfMicro entry = true →
      (sub = 1 ∧ v.length ≤ 96 ∧ stepsReserved v = false ∨ (sub = 2 ∨ sub = 3) ∧ v.length = 2) →
      (s.mpState entry = 3 → exec (.microprogWrite sess entry sub v) s = .next (s.emit (.status .microprogBusy))) ∧
      (s.mpState entry ≠ 3 → ∃ t : State,
        (∃ why, exec (.microprogWrite sess entry sub v) s =
          .next ((if why = Name.ok then t.touch sess else t).emit (.status why)) ∧
          (why = if t.mpValid entry = true then .ok else .microprogInvalid)) ∧
        (sub = 1 → t.rdBlob (mpIdx entry) 1 = v) ∧ (sub ≠ 1 → t.rd (mpIdx entry) sub = leNat v) ∧
        t.mpState entry = (if t.mpValid entry = true then 1 else 4) ∧
        (t.mpValid entry = true → t.rd (mpIdx entry) 6 = crc32c (t.rdBlob (mpIdx entry) 1 ++ t.mpRecords entry)) ∧
        (∀ k, k / 256 ≠ mpIdx entry → look t.dict k = look s.dict k ∧ look t.blobs k = look s.blobs k) ∧
        t = { s with dict := t.dict, blobs := t.blobs })) ∧
    (∀ v : List Byte, v.length ≤ 65536 →
      (s.mpTableBusy v = true → exec (.mpTableWrite sess v) s = .next (s.emit (.status .microprogBusy))) ∧
      (s.mpTableBusy v = false → ∃ t : State, exec (.mpTableWrite sess v) s = .next ((t.touch sess).emit (.status .ok)) ∧
        t.rdBlob 0x3201 1 = v ∧
        (∀ e, e < 64 → t.mpState e =
          if (s.mpState e = 1 ∨ s.mpState e = 2) ∧ s.mpTouched e v = true then (if t.mpValid e = true then 1 else 4)
          else s.mpState e) ∧
        (∀ k, k / 256 < 0x3240 ∨ 0x327F < k / 256 → look t.dict k = look s.dict k) ∧
        (∀ k, k ≠ keyOf 0x3201 1 → look t.blobs k = look s.blobs k) ∧
        t = { s with dict := t.dict, blobs := t.blobs })) ∧
    (∀ entry, wfMicro entry = true →
      (s.mpState entry = 1 → exec (.microprogLoaded entry) s = .next (s.wr (mpIdx entry) 4 2)) ∧
      (s.mpState entry ≠ 1 → exec (.microprogLoaded entry) s = .next s))

/-- In RUN and HELD, when no taken slot is left, a sweep counts itself and the FULL slots, leaves no slot
without a session FULL, leaves every other slot's bytes as the host wrote them, and changes nothing but hub
SRAM, sessions and dictionary counts. While taken slots are left it takes none and counts the delay once. No vat
of the state is blocked by a failed turning (10 R223) and no press has a membership, whose releases and findings
at a sweep are stated apart. -/
def Obligations.SweepTakesFullSlots : Prop :=
  ∀ (w : List SlotWrite) (s : State), (s.power.mode = .run ∨ s.power.mode = .held) →
    let s1 := s.hostStores w
    (s.hub.taken = [] → (∀ n, n < 64 → (s.clr n).turn.blocked = false ∧ (s.recov n).members = []) → ∃ t : State,
      exec (.sweep w) s = .next t ∧
      (∀ k, k < 64 → s1.sstate k = 1 → slotSession (s1.slotBytes k) = 0 → t.sstate k ≠ 1) ∧
      (∀ k, k < 64 → s1.sstate k ≠ 1 → t.slotBytes k = s1.slotBytes k) ∧
      t.rd 0xA000 2 = min (s.rd 0xA000 2 + 1) (topOf 0xA000 2) ∧
      t.rd 0xA000 4 = min (s.rd 0xA000 4 + ((List.range 64).filter fun k => s1.sstate k == 1).length) (topOf 0xA000 4) ∧
      (∀ x ∈ t.hub.taken, x.slot < 64 ∧ s1.sstate x.slot = 1 ∧ x.bytes = s1.slotBytes x.slot) ∧
      t = { s with dict := t.dict, hub := t.hub, sec := t.sec }) ∧
    (s.hub.taken ≠ [] → s.hub.sweepBusy = false → exec (.sweep w) s =
      .next ({ s1 with hub := { s1.hub with sweepBusy := true } }.bump 0xA000 3 1)) ∧
    (s.hub.taken ≠ [] → s.hub.sweepBusy = true → exec (.sweep w) s = .next s1) ∧
    (s1 = { s with hub := { s.hub with slots := s1.hub.slots } })

/-- The request in the slot processed now is refused, in this order, with REQ_INVALID where its clearing runs no
vat or taster plan, RESERVED_SET, REQ_INVALID, DEADLINE_MISSED, DEADLINE_UNREACHABLE, PAUSE_EXPIRED and
RING_SHORT, and then no clearing changes; DEADLINE_UNREACHABLE is counted in DEADLINE_REFUSED. Otherwise it
joins the end of its vat's acceptance order with the record's fields, its ring, if it asks for one, is allocated
and empty, its prompt blocks are hashed, the image it resumes is claimed (its expiry judged, where this module
judges it, at the time the sweep read the slot), REQ_ACCEPTED is posted, and no other clearing changes. -/
def Obligations.VatRequestAcceptance : Prop :=
  ∀ (slot : Nat) (x : Taken) (s : State), s.power.mode ≠ .off → wfSlot slot = true → s.hub.taken = [x] →
    x.checked = true → x.slot = slot → slotKind x.bytes = 2 →
    let n := slotClearing x.bytes
    let b := slotPayload x.bytes
    let q := parseReq b slot (slotTag x.bytes)
    let img := (s.vat n).paused.find? fun i => i.tag == q.resumeTag
    let resumes := ∃ i, img = some i ∧ i.claimed = false ∧
      (s.judgesExpiry n = true → s.rd 0x4C10 1 = 1 → x.readAt < i.expires)
    let refused (why : Name) := ∃ t : State, exec (.vatRequest slot) s = .next t ∧ s.posts t .slotRefused n why ∧
      t.hub.taken = [] ∧ t.sstate slot = 0 ∧
      t.live = (if why = .deadlineUnreachable then (s.bumpLive 0x6026 n 1).live else s.live) ∧
      t = { s with dict := t.dict, hub := t.hub, sec := t.sec, live := t.live }
    (s.planOf n = none → refused .reqInvalid) ∧
    ∀ p, s.planOf n = some p →
      (s.clearState n ≠ 3 ∨ p.role = 1 → refused .reqInvalid) ∧
      (s.clearState n = 3 → p.role ≠ 1 →
        (requestReserved b = true → refused .reservedSet) ∧
        (requestReserved b = false → s.requestBad n p b = true → refused .reqInvalid) ∧
        (requestReserved b = false → s.requestBad n p b = false →
          (q.deadline ≠ 0 → q.deadline ≤ s.time → refused .deadlineMissed) ∧
          ((q.deadline = 0 ∨ s.time < q.deadline) →
            (s.deadlineFits n p q = false → refused .deadlineUnreachable) ∧
            (s.deadlineFits n p q = true →
              (q.resumeTag ≠ 0 → ¬resumes → refused .pauseExpired) ∧
              ((q.resumeTag = 0 ∨ resumes) →
                (q.toRing = true → poolAlloc s.hub (64 + 16 * q.ringEntries) = none → refused .ringShort) ∧
                (∀ off, (if q.toRing = true then poolAlloc s.hub (64 + 16 * q.ringEntries) else some 0) = some off →
                  ∃ (t : State) (q1 : Req), exec (.vatRequest slot) s = .next t ∧
                    (t.vat n).waiting = (s.vat n).waiting ++ [q1] ∧
                    q1 = { q with ring := q1.ring, hashes := q1.hashes, resumed := q1.resumed, epochs := q1.epochs } ∧
                    q1.hashes = blockHashes n (s.rd (0x6040 + n) 4) (q.prompt.length / 256) [] q.prompt ∧
                    q1.epochs = (if q.deadline = 0 then [] else (s.clr n).floorEpochs) ∧
                    q1.ring = (if q.toRing = true then some s.hub.ringNext else none) ∧
                    (q.resumeTag = 0 → q1.resumed = [] ∧ (t.vat n).paused = (s.vat n).paused) ∧
                    (∀ i, q.resumeTag ≠ 0 → img = some i → q1.resumed = s.imageTokens n i ∧
                      ∀ j ∈ (t.vat n).paused, j.tag = q.resumeTag → j.claimed = true) ∧
                    (q.toRing = true → ∃ r, look t.hub.rings s.hub.ringNext = some r ∧ r.offset = off ∧
                      r.entries = q.ringEntries ∧ r.produced = 0 ∧ r.consumed = 0 ∧ r.ended = false ∧
                      r.clearing = n ∧ r.reqTag = q.tag) ∧
                    (∀ m, m ≠ n → t.clr m = s.clr m) ∧
                    (∃ e, t.hub.evLog.head? = some e ∧ e.name = .reqAccepted ∧ e.clearing = n) ∧ t.sstate slot = 0 ∧
                    t = { s with clearings := t.clearings, dict := t.dict, hub := t.hub, sec := t.sec }))))))

/-- A CANCEL or PAUSE in the slot processed now whose tag no open request of the job has is refused with
REQ_UNKNOWN and no clearing changes. Otherwise SLOT_DONE is posted, every waiting request and sequence of the
job with that tag is marked, for the next step start to end, and every other request and clearing is as before.
-/
def Obligations.CancelAndPauseReachTheRequest : Prop :=
  ∀ (slot : Nat) (x : Taken) (s : State) (i : Instr) (f : Req → Req),
    s.power.mode ≠ .off → wfSlot slot = true → s.hub.taken = [x] → x.checked = true → x.slot = slot →
    slotKind x.bytes = 3 →
    let n := slotClearing x.bytes
    let p := slotPayload x.bytes
    let tag := field p 8 8
    let g : Req → Req := fun q => { f q with cmds := q.cmds ++ [(slot, slotTag x.bytes)] }
    (i = .cancel slot ∧ field p 0 1 = 1 ∧ f = (fun q => { q with cancel := true }) ∨
      i = .pause slot ∧ field p 0 1 = 2 ∧ f = (fun q => { q with pauseAsked := true })) →
    (tag ∉ s.openTags n → ∃ t : State, exec i s = .next t ∧ s.posts t .slotRefused n .reqUnknown ∧
      t = { s with dict := t.dict, hub := t.hub, sec := t.sec }) ∧
    (tag ∈ s.openTags n → ∃ t : State, exec i s = .next t ∧ s.posts t .slotDone n .ok ∧ t.sstate slot = 0 ∧
      (∀ m, m < 64 → s.sameJob n m = true →
        (t.vat m).waiting = ((s.vat m).waiting.map fun q => if q.tag = tag then g q else q) ∧
        (t.vat m).seqs = ((s.vat m).seqs.map fun y =>
          if isScoring y = false ∧ y.req.tag = tag then { y with req := g y.req } else y) ∧
        t.clr m = { s.clr m with vat := { s.vat m with waiting := (t.vat m).waiting, seqs := (t.vat m).seqs } }) ∧
      (∀ m, ¬(m < 64 ∧ s.sameJob n m = true) → t.clr m = s.clr m) ∧
      t = { s with clearings := t.clearings, dict := t.dict, hub := t.hub, sec := t.sec })

/-- A REWARD in the slot processed now whose tag no record has is refused with REQ_UNKNOWN; in a job with a
taster, or where no record of the tag is PENDING, with REWARD_REFUSED; otherwise the first PENDING record of the
tag takes the reward and becomes SCORED, and no other record changes; the record's header of 64 bytes is written
where it lies in the curd buffer, here (where the press of the job may still be reached, and held while an open
snapshot has not copied the block) or over the links, where the directory keeps it too. A PLAN_WITHDRAW of a
clearing without a plan is refused with PLAN_CLEARING; otherwise exactly the clearings of its job with the same
plan are to be withdrawn at their next boundaries. -/
def Obligations.RewardScoresAPendingRecord : Prop :=
  ∀ (slot : Nat) (x : Taken) (s : State), s.power.mode ≠ .off → wfSlot slot = true → s.hub.taken = [x] →
    x.checked = true → x.slot = slot → slotKind x.bytes = 3 →
    let n := slotClearing x.bytes
    let p := slotPayload x.bytes
    let mine := (s.press n).curds.filter fun c => c.2.reqTag == field p 8 8
    let pending := mine.filter fun c => c.2.closed && headReward (s.headOf c.2) == 0
    let refused (i : Instr) (why : Name) := ∃ t : State, exec i s = .next t ∧ s.posts t .slotRefused n why ∧
      t = { s with dict := t.dict, hub := t.hub, sec := t.sec }
    (field p 0 1 = 3 →
      (mine = [] → refused (.reward slot) .reqUnknown) ∧
      (mine ≠ [] → s.tasted n = true ∨ pending = [] → refused (.reward slot) .rewardRefused) ∧
      (∀ id c, s.tasted n = false → pending.head? = some (id, c) → look (s.press n).curds id = some c →
        s.memoryWf → ∃ t : State, exec (.reward slot) s = .next t ∧
        (∃ e, t.hub.evLog.head? = some e ∧ e.name = .slotDone ∧ e.clearing = n ∧ e.status = .ok) ∧
        (let head := withReward (field p 4 4) (s.headOf c)
         let k := s.setPress n { s.press n with curds := ins (s.press n).curds id { c with head := head } }
         let reach := s.jobRole c.home = 1 ∧ s.mayReach n c.home 1 c.place 64 = true
         (c.modNo = s.ownModule → headReward head = 1 ∧ field head 20 4 = field p 4 4 ∧
            t.clearings = s.clearings ∧ t.outbox = s.outbox ∧ t.ports = s.ports ∧
            (reach → s.uncopied c.home c.place 64 = [] →
              t.peek (regionAddr 1 c.home c.place) 64 = head ∧ s.sameBytesBut t (regionAddr 1 c.home c.place) 64) ∧
            (¬reach ∨ s.uncopied c.home c.place 64 ≠ [] → t.mem = s.mem)) ∧
         (c.modNo ≠ s.ownModule → t.mem = s.mem ∧ t.clearings = k.clearings ∧
            t.outbox = (k.carryLines n c.modNo c.home 1 c.place head).outbox ∧
            t.ports = (k.carryLines n c.modNo c.home 1 c.place head).ports)) ∧
        t = { s with
          clearings := t.clearings, dict := t.dict, hub := t.hub, sec := t.sec, mem := t.mem, live := t.live,
          poison := t.poison, buckets := t.buckets, pools := t.pools, lastDraw := t.lastDraw, copiers := t.copiers,
          ports := t.ports, outbox := t.outbox })) ∧
    (field p 0 1 = 4 →
      (s.planOf n = none → refused (.planWithdraw slot) .planClearing) ∧
      (s.planOf n ≠ none → ∃ t : State, exec (.planWithdraw slot) s = .next t ∧ s.posts t .slotDone n .ok ∧
        (∀ m, m < 64 → s.sameJob n m = true → s.planOf m ≠ none → (s.clr m).planId = (s.clr n).planId →
          t.clr m = { s.clr m with withdraw := true }) ∧
        (∀ m, ¬(m < 64 ∧ s.sameJob n m = true ∧ s.planOf m ≠ none ∧ (s.clr m).planId = (s.clr n).planId) →
          t.clr m = s.clr m) ∧
        t = { s with clearings := t.clearings, dict := t.dict, hub := t.hub, sec := t.sec }))

/-- A DICT read in the slot processed now leaves in the slot SSTATE DONE and the value read, or the status that
refused it, and posts SLOT_DONE with that status, changing no entry but the counts of events; a value too long
for a slot is refused with TRANSFER_KIND. A DICT write is applied as a write of R359 under the slot's session,
and its status is answered likewise; a write of a micro-program entry that a later slot's plan names goes behind
the slot that completes the plan. -/
def Obligations.DictSlotsAnswerInTheSlot : Prop :=
  ∀ (slot : Nat) (x : Taken) (s : State), s.power.mode ≠ .off → wfSlot slot = true → s.hub.taken = [x] →
    x.checked = true → x.slot = slot → slotKind x.bytes = 4 →
    let p := slotPayload x.bytes
    let sess := slotSession x.bytes
    let idx := field p 0 2
    let sub := field p 2 1
    (field p 3 1 = 1 → ∃ (t : State) (why : Name) (v : List Byte), exec (.dictSlotRead slot) s = .next t ∧
      ((s.readEntry sess idx sub = .ok v ∧ v.length ≤ 65456 ∧ why = .ok) ∨
        (v = [] ∧ s.readEntry sess idx sub = .error why) ∨
        (v = [] ∧ why = .transferKind ∧ ∃ w, s.readEntry sess idx sub = .ok w ∧ 65456 < w.length)) ∧
      t.slotBytes slot = s.dictReply x.bytes why v ∧ t.sstate slot = 3 ∧
      s.posts t .slotDone (slotClearing x.bytes) why ∧ s.sameEntriesBut t eventKeys ∧
      t = { s with dict := t.dict, hub := t.hub, sec := t.sec }) ∧
    (field p 3 1 = 2 → ∀ why k, s.applyWrite sess idx sub (slice p 16 (field p 4 4)) .any = (why, k) →
      k.hub.taken = [x] → ∃ t : State, exec (.dictSlotWrite slot) s = .next t ∧
        t.slotBytes slot = s.dictReply x.bytes why [] ∧ t.sstate slot = 3 ∧
        k.posts t .slotDone (slotClearing x.bytes) why ∧ k.sameEntriesBut t eventKeys ∧
        t = { k with dict := t.dict, hub := t.hub, sec := t.sec }) ∧
    (field p 3 1 = 2 → ∀ k, exec (.dictSlotWrite slot (some k)) s = exec (.dictSlotWrite slot) s ∧
      ∀ y : Taken, y.slot = k → storeWrite x.bytes = true →
        let s2 : State := { s with hub := { s.hub with taken := [x, y] } }
        s2.completesPlan y.bytes = true →
        exec (.dictSlotWrite slot (some k)) s2 = .next { s2 with hub := { s2.hub with taken := [y, x] } }.thenNext)

/-- A PLAN_PART in the slot processed now is refused with SLOT_INVALID where its header disagrees with itself;
with PLAN_PART_CONFLICT where it differs from its plan's earlier parts, whose assembly is then dropped; with
QUOTA_SHORT where the image would pass the clearing's tier-1 region. A part that leaves others missing is stored
at its place in the region and answered. The last part runs the plan checks: where one fails the slot is refused
with its status and no clearing changes; where all pass PLAN_ACCEPTED is posted. PLAN_INCOMPLETE drops exactly
the assemblies of its PLAN_ID that have waited PLAN_ASSEMBLY_S. -/
def Obligations.PlanPartsAssemble : Prop :=
  ∀ (slot : Nat) (img : PlanImage) (x : Taken) (s : State), s.power.mode ≠ .off → wfSlot slot = true →
    s.hub.taken = [x] → x.checked = true → x.slot = slot → slotKind x.bytes = 1 →
    let n := slotClearing x.bytes
    let v := slotPayload x.bytes
    let id := field v 0 8
    let part := field v 8 2
    let new : PlanAsm := { planId := id, clearing := n, partCount := field v 10 2, imageBytes := field v 16 8,
                           imageOffset := field v 24 8, parts := [], since := s.time }
    let a := (s.planAsm id n).getD new
    let differs := a.partCount ≠ new.partCount ∨ a.imageBytes ≠ new.imageBytes ∨ a.imageOffset ≠ new.imageOffset ∨
      ∃ d, look a.parts part = some d ∧ d ≠ v.drop 32
    let others := s.hub.plans.filter fun y => !(y.planId == id && y.clearing == n)
    let s1 := (s.dropAsm id n).writeRegion n 1 (a.imageOffset + partBytes * part) (v.drop 32)
    (partBad v = true → ∃ t : State, exec (.planPart slot img) s = .next t ∧ s.posts t .slotRefused n .slotInvalid ∧
      t.hub.plans = s.hub.plans ∧ t = { s with dict := t.dict, hub := t.hub, sec := t.sec }) ∧
    (partBad v = false → differs → ∃ t : State, exec (.planPart slot img) s = .next t ∧
      s.posts t .slotRefused n .planPartConflict ∧ t.hub.plans = others ∧
      t = { s with dict := t.dict, hub := t.hub, sec := t.sec }) ∧
    (partBad v = false → ¬differs → s.regionLen n 1 < a.imageOffset + a.imageBytes → ∃ t : State,
      exec (.planPart slot img) s = .next t ∧ s.posts t .slotRefused n .quotaShort ∧ t.hub.plans = others ∧
      t = { s with dict := t.dict, hub := t.hub, sec := t.sec }) ∧
    (partBad v = false → ¬differs → a.imageOffset + a.imageBytes ≤ s.regionLen n 1 →
      ((ins a.parts part (v.drop 32)).length ≠ a.partCount → ∃ t : State, exec (.planPart slot img) s = .next t ∧
        t.hub.plans = s1.hub.plans ++ [{ a with parts := ins a.parts part (v.drop 32) }] ∧
        (∃ e, t.hub.evLog.head? = some e ∧ e.name = .slotDone ∧ e.clearing = n ∧ e.status = .ok) ∧
        t = { s1 with dict := t.dict, hub := t.hub, sec := t.sec }) ∧
      ((ins a.parts part (v.drop 32)).length = a.partCount →
        (s1.planChecks n img ≠ .ok → ∃ t : State, exec (.planPart slot img) s = .next t ∧
          (∃ e, t.hub.evLog.head? = some e ∧ e.name = .slotRefused ∧ e.clearing = n ∧
            e.status = s1.planChecks n img) ∧
          t.hub.plans = s1.hub.plans ∧ t = { s1 with dict := t.dict, hub := t.hub, sec := t.sec }) ∧
        (s1.planChecks n img = .ok → ∃ t : State, exec (.planPart slot img) s = .next t ∧
          (∃ e, t.hub.evLog.head? = some e ∧ e.name = .planAccepted ∧ e.clearing = n ∧ e.status = .ok) ∧
          t.clearings = (s1.acceptPlan n id img).clearings ∧ t.mem = s1.mem ∧ t.otp = s.otp)))

/-- Accepting a plan whose clearings are distinct sets each of them ACTIVE with its part of the image and no
step in flight, marks the micro-programs it names IN_USE, and leaves the record and the CLEAR_STATE of every
clearing outside its job as they were. PLAN_INCOMPLETE drops exactly the assemblies of its PLAN_ID that have
waited PLAN_ASSEMBLY_S and posts PLAN_INCOMPLETE for each, and changes no clearing; where none has waited it
changes nothing. -/
def Obligations.PlanAcceptanceActivates : Prop :=
  ∀ s : State,
    (∀ (n planId : Nat) (img : PlanImage), (img.clearings.map (·.n)).Nodup → (∀ p ∈ img.clearings, p.n < 64) →
      let t := s.acceptPlan n planId img
      (∀ p ∈ img.clearings, t.clearState p.n = 3 ∧ (t.clr p.n).plan = some p ∧ (t.clr p.n).planId = planId ∧
        (t.clr p.n).inStep = false) ∧
      (∀ e ∈ img.micro, e < 64 → t.mpState e = 3) ∧
      (∀ m, m < 64 → (∀ p ∈ img.clearings, p.n ≠ m) → t.clearState m = s.clearState m ∧
        (t.clr m).plan = (s.clr m).plan ∧ (t.clr m).vat = (s.clr m).vat ∧ (t.clr m).inStep = (s.clr m).inStep)) ∧
    (∀ planId, s.power.mode ≠ .off →
      let late := s.hub.plans.filter fun a => a.planId == planId && 1000000000 * s.rd 0xA000 6 + a.since ≤ s.time
      (late = [] → exec (.planIncomplete planId) s = .next s) ∧
      (∀ a, late = [a] → ∃ t : State, exec (.planIncomplete planId) s = .next t ∧
        t.hub.plans = (s.hub.plans.filter fun y => !(y.planId == planId && y.clearing == a.clearing)) ∧
        s.posts t .planIncomplete a.clearing .planIncomplete ∧ s.sameEntriesBut t eventKeys ∧
        t = { s with dict := t.dict, hub := t.hub }) ∧
      (late ≠ [] → ∃ t : State, exec (.planIncomplete planId) s = .next t ∧
        t.hub.plans = (s.hub.plans.filter fun y => !(y.planId == planId && late.any fun a => a.clearing == y.clearing)) ∧
        t.hub.seq = (s.hub.seq + late.length) % 2 ^ 32 ∧ s.sameEntriesBut t eventKeys ∧
        t = { s with dict := t.dict, hub := t.hub })) ∧
    (∀ planId, s.power.mode ≠ .off → ∃ t : State, exec (.planIncomplete planId) s = .next t ∧
      (∀ a, a ∈ t.hub.plans → a ∈ s.hub.plans) ∧
      (∀ a ∈ s.hub.plans, a.planId ≠ planId → a ∈ t.hub.plans) ∧
      (∀ a ∈ t.hub.plans, a.planId = planId → s.time < 1000000000 * s.rd 0xA000 6 + a.since) ∧
      s.sameEntriesBut t eventKeys ∧ t = { s with dict := t.dict, hub := t.hub })

/-- An admitted READ returns a scalar's value under FTYPE 03h with status OK, or the status that refuses it,
TRANSFER_KIND for a STR or BLOB; an admitted WRITE is applied as a write of R359 under its session and its
status is returned. The response goes to the requester's address, and beside what the write does only the
session's record and the outbox change. A frame that is not for the module, or is no whole frame of that type,
changes nothing. -/
def Obligations.FramesReadAndWrite : Prop :=
  ∀ (fr : FieldFrame) (s : State),
    let p := fr.payload
    let sess := field p 12 4
    let idx := field p 4 2
    let sub := field p 6 1
    let whole := slice p 0 (32 + field p 8 2)
    let s1 := if sess = 0 then s else s.recordCounter sess (field p 16 8) whole
    let admitted := frameReserved p = false ∧
      s.checkSession sess (field p 16 8) (slice p (32 + field p 8 2) 16) whole whole = .pass
    (s.power.mode ≠ .off → s.takesFrame fr 1 = false → exec (.read fr) s = .next s) ∧
    (s.power.mode ≠ .off → s.takesFrame fr 2 = false → exec (.write fr) s = .next s) ∧
    (s.takesFrame fr 1 = true → admitted → ∃ (t : State) (why : Name) (v b : List Byte),
      exec (.read fr) s = .next t ∧ t.outbox = s.outbox ++ [.frame fr.src b] ∧ b = frameReply s1 p 3 why 0 v ∧
      (s1.readEntry sess idx sub = .ok v ∧ why = .ok ∧ (∀ e, entryAt idx sub = some e → e.ty.width ≠ none) ∨
        v = [] ∧ s1.readEntry sess idx sub = .error why ∨
        v = [] ∧ why = .transferKind ∧ ∃ e w, entryAt idx sub = some e ∧ e.ty.width = none ∧
          s1.readEntry sess idx sub = .ok w) ∧
      t = { s with sec := t.sec, outbox := t.outbox }) ∧
    (s.takesFrame fr 2 = true → admitted → ∀ why k,
      s1.applyWrite sess idx sub (slice p 32 (field p 8 2)) .scalar = (why, k) → ∃ (t : State) (b : List Byte),
        exec (.write fr) s = .next t ∧ t.outbox = k.outbox ++ [.frame fr.src b] ∧ b = frameReply s1 p 3 why 0 [] ∧
        (∀ x ∈ t.sec.sessions, ∃ y ∈ k.sec.sessions, x.num = y.num ∧ x.role = y.role ∧ x.sk = y.sk ∧
          x.counter = y.counter) ∧
        t = { k with sec := { k.sec with sessions := t.sec.sessions }, outbox := t.outbox })

/-- The first SEG_READ of an entry fixes its value and returns its first 1,024 bytes and total length; each next
segment continues it, and the transfer closes behind the last; any other segment number is refused with
TRANSFER_ORDER and a ninth transfer with TRANSFER_BUSY; every reply of an open transfer begins its 100 ms anew.
A SEG_WRITE stores each segment in order and applies the whole value as one write of R359 with the last; until
then no entry changes. ABORT closes the transfer of its INDEX, SUBINDEX and SESSION; TRANSFER_TIMEOUT closes it
exactly when 100 ms have passed since its last reply. Other transfers are untouched. -/
def Obligations.SegmentedTransfers : Prop :=
  ∀ (fr : FieldFrame) (s : State),
    let p := fr.payload
    let sess := field p 12 4
    let idx := field p 4 2
    let sub := field p 6 1
    let seg := field p 10 2
    let whole := slice p 0 (32 + field p 8 2)
    let data := slice p 32 (field p 8 2)
    let s1 := if sess = 0 then s else s.recordCounter sess (field p 16 8) whole
    let admitted := frameReserved p = false ∧
      s.checkSession sess (field p 16 8) (slice p (32 + field p 8 2) 16) whole whole = .pass
    let rest := s.hub.transfers.filter fun t => !(t.key == keyOf idx sub && t.sess == sess)
    let answers (t : State) (ftype : Nat) (why : Name) (total : Nat) (v : List Byte) (trs : List Transfer) :=
      t.outbox = s.outbox ++ [.frame fr.src (frameReply s1 p ftype why total v)] ∧ t.hub.transfers = trs ∧
      t = { s with sec := t.sec, outbox := t.outbox, hub := { s.hub with transfers := t.hub.transfers } }
    (s.takesFrame fr 4 = true → admitted →
      (∀ x, s.transferOf p = some x → x.writing = true ∨ x.expected ≠ seg → ∃ t : State,
        exec (.segRead fr) s = .next t ∧ answers t 3 .transferOrder 0 [] (s.renewTransfer p).hub.transfers) ∧
      (∀ x, s.transferOf p = some x → x.writing = false → x.expected = seg → ∃ t : State,
        exec (.segRead fr) s = .next t ∧
        answers t 6 .ok (if seg = 0 then x.data.length else 0) ((x.data.drop (1024 * seg)).take 1024)
          (if x.data.length ≤ 1024 * (seg + 1) then rest
            else rest ++ [{ x with expected := seg + 1, lastReply := s.time }])) ∧
      (s.transferOf p = none → ∀ e v, entryAt idx sub = some e → e.ty.width = none →
        s1.readEntry sess idx sub = .ok v →
        (seg ≠ 0 → ∃ t : State, exec (.segRead fr) s = .next t ∧ answers t 3 .transferOrder 0 [] s.hub.transfers) ∧
        (seg = 0 → 8 ≤ s.hub.transfers.length → ∃ t : State, exec (.segRead fr) s = .next t ∧
          answers t 3 .transferBusy 0 [] s.hub.transfers) ∧
        (seg = 0 → s.hub.transfers.length < 8 → ∃ (t : State) (x : Transfer), exec (.segRead fr) s = .next t ∧
          x = { key := keyOf idx sub, sess := sess, writing := false, expected := 1, total := v.length, data := v,
                lastReply := s.time } ∧
          answers t 6 .ok v.length (v.take 1024) (if v.length ≤ 1024 then rest else rest ++ [x])))) ∧
    (s.takesFrame fr 5 = true → admitted →
      (∀ x, s.transferOf p = some x → x.writing = false ∨ x.expected ≠ seg → ∃ t : State,
        exec (.segWrite fr) s = .next t ∧ answers t 3 .transferOrder 0 [] (s.renewTransfer p).hub.transfers) ∧
      (∀ x, s.transferOf p = some x → x.writing = true → x.expected = seg → seg ≠ 0 →
        (data.length ≠ min 1024 (x.total - x.data.length) → ∃ t : State, exec (.segWrite fr) s = .next t ∧
          answers t 3 .typeMismatch 0 [] (s.renewTransfer p).hub.transfers) ∧
        (data.length = min 1024 (x.total - x.data.length) → x.data.length + data.length < x.total → ∃ t : State,
          exec (.segWrite fr) s = .next t ∧ answers t 3 .ok 0 []
            (rest ++ [{ x with data := x.data ++ data, expected := seg + 1, lastReply := s.time }])) ∧
        (data.length = min 1024 (x.total - x.data.length) → x.total ≤ x.data.length + data.length → ∀ why k,
          { s1 with hub := { s1.hub with transfers := rest } }.applyWrite sess idx sub (x.data ++ data) .long =
            (why, k) →
          ∃ t : State, exec (.segWrite fr) s = .next t ∧
            t.outbox = k.outbox ++ [.frame fr.src (frameReply s1 p 3 why 0 [])] ∧
            t = { k with sec := { k.sec with sessions := t.sec.sessions }, outbox := t.outbox })) ∧
      (s.transferOf p = none → seg ≠ 0 → ∃ t : State, exec (.segWrite fr) s = .next t ∧
        answers t 3 .transferOrder 0 [] s.hub.transfers) ∧
      (s.transferOf p = none → seg = 0 → 8 ≤ s.hub.transfers.length → ∃ t : State,
        exec (.segWrite fr) s = .next t ∧ answers t 3 .transferBusy 0 [] s.hub.transfers) ∧
      (s.transferOf p = none → seg = 0 → s.hub.transfers.length < 8 → data.length ≠ min 1024 (field p 28 4) →
        ∃ t : State, exec (.segWrite fr) s = .next t ∧ answers t 3 .typeMismatch 0 [] s.hub.transfers) ∧
      (s.transferOf p = none → seg = 0 → s.hub.transfers.length < 8 → 1024 < field p 28 4 → data.length = 1024 →
        ∃ (t : State) (x : Transfer), exec (.segWrite fr) s = .next t ∧
          x = { key := keyOf idx sub, sess := sess, writing := true, expected := 1, total := field p 28 4,
                data := data, lastReply := s.time } ∧
          answers t 3 .ok (field p 28 4) [] (rest ++ [x])) ∧
      (s.transferOf p = none → seg = 0 → s.hub.transfers.length < 8 → field p 28 4 ≤ 1024 →
        data.length = field p 28 4 → ∀ why k,
          { s1 with hub := { s1.hub with transfers := rest } }.applyWrite sess idx sub data .long = (why, k) →
          ∃ t : State, exec (.segWrite fr) s = .next t ∧
            t.outbox = k.outbox ++ [.frame fr.src (frameReply s1 p 3 why (field p 28 4) [])] ∧
            t = { k with sec := { k.sec with sessions := t.sec.sessions }, outbox := t.outbox })) ∧
    (s.takesFrame fr 7 = true → admitted → ∃ t : State, exec (.abort fr) s = .next t ∧ answers t 3 .ok 0 [] rest) ∧
    (∀ i sb num, s.power.mode ≠ .off →
      ((∃ x ∈ s.hub.transfers, x.key = keyOf i sb ∧ x.sess = num ∧ 100000000 ≤ s.time - x.lastReply) →
        exec (.transferTimeout i sb num) s = .next { s with hub := { s.hub with
          transfers := s.hub.transfers.filter fun t => !(t.key == keyOf i sb && t.sess == num) } }) ∧
      ((∀ x ∈ s.hub.transfers, x.key = keyOf i sb → x.sess = num → s.time - x.lastReply < 100000000) →
        exec (.transferTimeout i sb num) s = .next s))

/-- A manager's CREATE answers the first of CLEARING_BUSY, CLEARING_EXISTS, CLEARING_INCOMPLETE and the checks
of 12 R257 that fails and changes nothing; with a key opening under way it is held; with MEMORY_ENCRYPT 1 and no
delivered key it is refused with KEY_ABSENT. Accepted, the clearing is CREATING, its cell and claim maps and its
other boundary values are in force, its key is installed, it enters the rings of its cells, free granules are
assigned to it and none is taken from another, and no other cell, clearing or byte of memory changes; an
accepted command lets its session's time begin anew. CLEARING_CREATED makes a CREATING clearing IDLE with every
byte of its regions and of its spill area zero, gives it granules freed since, charges the scrub to its
regulators (an elastic clearing may draw from the lending pools for it) and posts CLEARING_CREATED; every other
byte of memory is as before. On any other clearing it changes nothing. -/
def Obligations.ClearingsAreCreated : Prop :=
  ∀ (sess n : Nat) (s : State), wfClearing n = true →
    (s.reachable = true → s.roleOf sess = some .manager →
      let bad := firstBad ([(s.busy n, Name.clearingBusy), (s.exists? n, .clearingExists),
        (s.incomplete n, .clearingIncomplete)] ++ s.assignChecks n)
      (bad ≠ .ok → exec (.create sess n) s = .next (s.emit (.status bad))) ∧
      (bad = .ok → (look s.sec.opening n).isSome = true → exec (.create sess n) s = .next
        ((((s.setClr n { s.clr n with heldCreate := true }).wr (0x200F + 16 * n) 1 1).touch sess).emit (.status .ok))) ∧
      (bad = .ok → look s.sec.opening n = none → s.keyMissing n = true →
        exec (.create sess n) s = .next (s.emit (.status .keyAbsent))) ∧
      (bad = .ok → look s.sec.opening n = none → s.keyMissing n = false → ∃ t : State,
        exec (.create sess n) s = .next t ∧ t.outbox = s.outbox ++ [.status .ok] ∧ t.clearState n = 1 ∧
        t.rd (0x4040 + n) 7 = ((List.range 16).map fun g => spillOn (s.newMap n g)).foldl (· + ·) 0 ∧
        (∀ g < 16, t.frcBlob (0x2001 + 16 * n) (g + 1) = s.newMap n g ∧
          t.frcBlob (0x2002 + 16 * n) (g + 1) = s.newClaim n g) ∧
        (∀ p ∈ forcePositions n, t.frc p.1 p.2 = s.rd p.1 p.2) ∧
        (∀ g < 16, ∀ c < 256,
          (mapBit (s.newMap n g) c = true → (∃ y ∈ (t.cell g c).ring, y.clearing = n) ∧
            (∀ i m, look (s.cell g c).scratchOwn i = some m → look (t.cell g c).scratchOwn i = some m) ∧
            (∀ i m, look (s.cell g c).scratchOwn i = none → look (t.cell g c).scratchOwn i = some m → m = n) ∧
            (∀ i m, look (s.cell g c).sideOwn i = some m → look (t.cell g c).sideOwn i = some m) ∧
            (t.cell g c).slots = (s.cell g c).slots) ∧
          (mapBit (s.newMap n g) c = false → t.cell g c = s.cell g c)) ∧
        t.clr n = { s.clr n with heldCreate := false, idleSince := s.time } ∧ (∀ m, m ≠ n → t.clr m = s.clr m) ∧
        (∀ k, look s.sec.delivered n = some k → t.rd (0x8040 + n) 2 = 2 ∧
          look t.sec.tenantKeys (s.tenantOf n) = some k ∧ (look t.sec.clearingKeys n).isSome = true) ∧
        (look s.sec.delivered n = none → t.sec = (s.touch sess).sec) ∧ t.sec.sessions = (s.touch sess).sec.sessions ∧
        s.sameEntriesBut t [keyOf (0x2000 + 16 * n) 1, keyOf (0x200F + 16 * n) 1, keyOf (0x4040 + n) 7,
          keyOf (0x8040 + n) 2] ∧
        t = { s with
          dict := t.dict, force := t.force, blobForce := t.blobForce, cells := t.cells,
          clearings := t.clearings, sec := t.sec, outbox := t.outbox })) ∧
    (s.power.mode ≠ .off → s.clearState n = 1 → ∃ t : State, exec (.clearingCreated n) s = .next t ∧
      t.clearState n = 2 ∧ s.posts t .clearingCreated n .ok ∧
      (∀ off < 2 ^ 52, Mem.read t.mem (regionAddr 1 n off) = 0 ∧ Mem.read t.mem (regionAddr 2 n off) = 0 ∧
        Mem.read t.mem (spillArea n off) = 0) ∧
      (s.memoryWf → ∀ a, (∀ off < 2 ^ 52, a ≠ regionAddr 1 n off ∧ a ≠ regionAddr 2 n off ∧ a ≠ spillArea n off) →
        Mem.read t.mem a = Mem.read s.mem a) ∧
      (s.frc 0x2450 n ≠ 1 →
        (∀ r, 1 ≤ r → r ≤ 4 → t.bucket n r 0 = s.bucket n r 0 - (s.frc (0x4040 + n) 3 / 4 : Nat)) ∧
        t.bucket n 5 0 = s.bucket n 5 0 - (s.frc (0x4040 + n) 4 : Nat) ∧ t.pools = s.pools) ∧
      (∀ m r d, m ≠ n ∨ r = 0 ∨ 5 < r ∨ d = 1 → r < 64 → d < 2 → t.bucket m r d = s.bucket m r d) ∧
      sameListedBut s.dict t.dict (keyOf (0x2000 + 16 * n) 1 :: eventKeys ++
        (counterKeys n).map fun p => keyOf p.1 p.2) ∧
      (∀ g < 16, ∀ c < 256, (s.holds n g c = false → t.cell g c = s.cell g c) ∧
        (t.cell g c).slots = (s.cell g c).slots ∧
        (∀ i m, look (s.cell g c).scratchOwn i = some m → look (t.cell g c).scratchOwn i = some m) ∧
        (∀ i m, look (s.cell g c).scratchOwn i = none → look (t.cell g c).scratchOwn i = some m → m = n)) ∧
      t = { s with
        dict := t.dict, live := t.live, blobs := t.blobs, mem := t.mem, poison := t.poison, cells := t.cells,
        buckets := t.buckets, pools := t.pools, lastDraw := t.lastDraw, hub := t.hub }) ∧
    (s.power.mode ≠ .off → s.clearState n ≠ 1 → exec (.clearingCreated n) s = .next s)

/-- A manager's RESIZE is refused with the first check that fails, among them CLEARING_IN_USE where an ACTIVE
clearing would lose a cell, and changes nothing; accepted, the new maps are in force, a cell given up holds no
place, no waiting tile and, where no granule of the clearing lies in a spill slot, no byte of the clearing's
scratchpad, a claim on a cell that neither new map names is given up, a new cell's ring holds the clearing, and
every other cell in neither map is as before. QUOTA_SCRUB_DONE zeroes the bytes a growing memory quota adds and
charges them; an ACTIVE clearing takes the quota at its next boundary, an IDLE one at once (log entry 23). A
manager's DESTROY makes the clearing DESTROYING, ends its requests and sequences, drops its waiting tiles, what
is parked of it and its outstanding remote requests; each accepted command lets its session's time begin anew.
CLEARING_DESTROYED, once no tile of it runs, leaves it ABSENT: its claims released and its place in every ring
gone, its entries unlisted and, where it held no claim, every other one as before, its regions and spill area
zero, its regulators' buckets, collectives, waiting chunks, remote requests and keys gone, and
CLEARING_DESTROYED posted; while a tile runs, or in another state, it changes nothing. -/
def Obligations.ClearingsChangeAndEnd : Prop :=
  ∀ (sess n : Nat) (s : State), wfClearing n = true →
    (s.reachable = true → s.roleOf sess = some .manager →
      let bad := firstBad ([(s.busy n, Name.clearingBusy), (!s.exists? n, .clearingAbsent)] ++ s.assignChecks n
        ++ [(s.clearState n == 3 && s.removesCells n, .clearingInUse)])
      (bad ≠ .ok → exec (.resize sess n) s = .next (s.emit (.status bad))) ∧
      (bad = .ok → ∃ t : State, exec (.resize sess n) s = .next t ∧ t.outbox = s.outbox ++ [.status .ok] ∧
        (∀ g < 16, t.frcBlob (0x2001 + 16 * n) (g + 1) = s.newMap n g ∧
          t.frcBlob (0x2002 + 16 * n) (g + 1) = s.newClaim n g) ∧
        (∀ g < 16, ∀ c < 256,
          (s.holds n g c = true → mapBit (s.newMap n g) c = false →
            (∀ y ∈ (t.cell g c).ring, y.clearing ≠ n) ∧
            (∀ x ∈ (t.cell g c).slots, x.desc.clearing = n → x.st = .running) ∧
            ((∀ h d, s.spilled n h d = false) → ∀ i, look (s.cell g c).scratchOwn i = some n → ∀ b < 0x4000,
              Mem.read t.mem (s.scrAddr g c (i * 0x4000 + b)) = 0)) ∧
          (s.holds n g c = false → mapBit (s.newMap n g) c = true → ∃ y ∈ (t.cell g c).ring, y.clearing = n) ∧
          ((s.cell g c).claimed = some n → mapBit (s.newClaim n g) c = false → mapBit (s.newMap n g) c = false →
            (t.cell g c).claimed = none ∧ ∀ y ∈ (t.cell g c).ring, y.clearing ≠ n) ∧
          (s.holds n g c = false → mapBit (s.newMap n g) c = false →
            (s.cell g c).claimed ≠ some n ∨ mapBit (s.newClaim n g) c = true → t.cell g c = s.cell g c)) ∧
        (s.clearState n = 3 → t.clearState n = 3 ∧ (t.clr n).addCells = true ∧
          ((∀ g c, s.spilled n g c = false) → t.mem = s.mem)) ∧
        (∀ m, m ≠ n → t.clr m = s.clr m) ∧
        (∀ g, t.grove g = s.grove g ∨ t.grove g = { s.grove g with seed := 0, tableState := 0, badWords := [] }) ∧
        t = { s with
          dict := t.dict, force := t.force, live := t.live, blobs := t.blobs, blobForce := t.blobForce,
          mem := t.mem, poison := t.poison, cells := t.cells, groves := t.groves, clearings := t.clearings,
          outbox := t.outbox, sec := (s.touch sess).sec }) ∧
      (s.busy n = true → exec (.destroy sess n) s = .next (s.emit (.status .clearingBusy))) ∧
      (s.busy n = false → s.exists? n = false → exec (.destroy sess n) s = .next (s.emit (.status .clearingAbsent))) ∧
      (s.busy n = false → s.exists? n = true → ∃ t : State, exec (.destroy sess n) s = .next t ∧
        (∃ l, t.outbox = s.outbox ++ l ++ [.status .ok]) ∧ t.clearState n = 4 ∧
        (t.vat n).waiting = [] ∧ (t.vat n).seqs = [] ∧ (t.vat n).toPause = [] ∧
        t.remotes = (s.remotes.filter fun r => r.clearing != n) ∧
        (∀ g < 16, ∀ c < 256, (∀ x ∈ (t.cell g c).slots, x.desc.clearing = n → x.st = .running) ∧
          (∀ q ∈ (t.cell g c).parked, q.victim ≠ n) ∧ (∀ d ∈ (t.cell g c).held, d.clearing ≠ n)) ∧
        t = { s with
          dict := t.dict, live := t.live, hub := t.hub, clearings := t.clearings, mem := t.mem,
          poison := t.poison, copiers := t.copiers, remotes := t.remotes, cells := t.cells, buckets := t.buckets,
          pools := t.pools, lastDraw := t.lastDraw, outbox := t.outbox, ports := t.ports,
          sec := (s.touch sess).sec })) ∧
    (s.power.mode ≠ .off → (s.clr n).scrubbing = false → exec (.quotaScrubDone n) s = .next s) ∧
    (s.power.mode ≠ .off → (s.clr n).scrubbing = true → ∃ t : State, exec (.quotaScrubDone n) s = .next t ∧
      (t.clr n).scrubbing = false ∧ (∀ m, m ≠ n → t.clr m = s.clr m) ∧
      (∀ off, s.frc (0x4040 + n) 3 ≤ off → off < s.rd (0x4040 + n) 3 → Mem.read t.mem (regionAddr 1 n off) = 0) ∧
      (∀ off, s.frc (0x4040 + n) 4 ≤ off → off < s.rd (0x4040 + n) 4 → Mem.read t.mem (regionAddr 2 n off) = 0) ∧
      (s.frc 0x2450 n ≠ 1 → (∀ r, 1 ≤ r → r ≤ 4 → t.bucket n r 0 =
          s.bucket n r 0 - ((s.rd (0x4040 + n) 3 - s.frc (0x4040 + n) 3) / 4 : Nat)) ∧
        t.bucket n 5 0 = s.bucket n 5 0 - (s.rd (0x4040 + n) 4 - s.frc (0x4040 + n) 4 : Nat)) ∧
      (s.clearState n ≠ 2 → t.clr n = { s.clr n with scrubbing := false, scrubDone := true } ∧ t.force = s.force ∧
        t.cells = s.cells ∧
        s.sameEntriesBut t ([1, 2, 3, 4, 5].flatMap fun r => [keyOf (0x2460 + n) r, keyOf (0x24A0 + n) r])) ∧
      (s.clearState n = 2 → t.frc (0x4040 + n) 3 = s.rd (0x4040 + n) 3 ∧
        t.frc (0x4040 + n) 4 = s.rd (0x4040 + n) 4) ∧
      t = { s with
        dict := t.dict, force := t.force, live := t.live, blobs := t.blobs, mem := t.mem,
        poison := t.poison, cells := t.cells, groves := t.groves, clearings := t.clearings, buckets := t.buckets,
        pools := t.pools, lastDraw := t.lastDraw }) ∧
    (s.power.mode ≠ .off → s.clearState n ≠ 4 ∨ s.hasRunning n = true →
      exec (.clearingDestroyed n) s = .next s) ∧
    (s.power.mode ≠ .off → s.clearState n = 4 → s.hasRunning n = false → ∃ t : State,
      exec (.clearingDestroyed n) s = .next t ∧ t.clearState n = 0 ∧
      (∃ e, t.hub.evLog.head? = some e ∧ e.name = .clearingDestroyed ∧ e.clearing = n ∧ e.status = .ok) ∧
      (∀ k, belongs n k = true → look t.dict k = none ∧ look t.force k = none ∧ look t.live k = none ∧
        look t.blobs k = none ∧ look t.blobForce k = none) ∧
      (s.claimedBy n = [] → s.parkedOf n = [] → s.posts t .clearingDestroyed n .ok ∧
        sameListedBut (s.dict.filter fun p => !belongs n p.1) t.dict (keyOf 0x4C10 3 :: eventKeys ++
          (List.range 64).map fun e => keyOf (0x3240 + e) 4)) ∧
      (∀ g < 16, ∀ c < 256, (t.cell g c).claimed ≠ some n ∧ ∀ y ∈ (t.cell g c).ring, y.clearing ≠ n) ∧
      t.force = (s.force.filter fun p => !belongs n p.1) ∧ t.blobs = (s.blobs.filter fun p => !belongs n p.1) ∧
      (∀ off < 2 ^ 52, Mem.read t.mem (regionAddr 1 n off) = 0 ∧ Mem.read t.mem (regionAddr 2 n off) = 0 ∧
        Mem.read t.mem (spillArea n off) = 0) ∧
      (∀ p ∈ t.buckets, p.1 / 256 ≠ n) ∧ (∀ p ∈ t.colls, p.1 / 4096 ≠ n) ∧
      (∀ w ∈ t.waitingChunks, w.line.clearing ≠ n) ∧
      (∀ p ∈ t.linkDies, ∀ q ∈ p.2.slots, q.2.clearing ≠ n) ∧
      t.sec.clearingKeys = del s.sec.clearingKeys n ∧ t.sec.delivered = del s.sec.delivered n ∧
      (∀ x ∈ t.sec.sessions, x ∈ s.sec.sessions) ∧
      t.power = s.power ∧ t.time = s.time ∧ t.flash = s.flash ∧ t.otp = s.otp ∧
      t.remotes = (s.remotes.filter fun r => r.clearing != n) ∧
      t.ports = s.ports ∧ t.outbox = s.outbox)

/-- SNAPSHOT_OPEN opens a wanted snapshot between steps on the channel reserved for the clearing or the lowest
free one, with the plan's block list, as the snapshot of that boundary (its step, version, VAT_STEP, JOB_EPOCH
and time), under the next generation's number, and zeroes the buddy's manifest and shard header; with no channel
free it changes nothing, and where the shard does not fit its slot or its copier does not reach it (log entry
24) it fails at once. BLOCK_COPIED takes the next block, a redirected one first: its CRC-32C stands at its list
position, its bytes go to the buddy's slot at (2 + position) × 2 MiB (on this module only into a press region of
the job that the window admits, over the spur port of the buddy's module elsewhere), and after the last one the
check table and the header follow, the channel is free and CKPT_STATE is VERIFYING; a block with a line that
cannot be read, which is counted and posted, fails the snapshot, as a slot out of reach does. SNAPSHOT_FAILED
frees the channel and fails the generation: every shard of it on this module reads FAILED, and the other members
are told. SHARD_VERIFIED counts a good shard, one on this module being read back here, and fails the generation
on a bad one; for a slot of this module it reads back and reports VERIFIED or BAD to the writer its header
names. CKPT_COMPLETE with good manifest copies, at the leader only with an entry of every shard, makes the
generation the newest complete one of every press clearing of the job, frees the writers that verified a shard,
and the leader tells the members; without good copies it changes nothing but the shards of a generation that a
member tells has failed. CKPT_DRAIN_END ends the drains. After the channel's commands the chunks that waited for
its writes land. -/
def Obligations.SnapshotsCopyAndComplete : Prop :=
  ∀ (n : Nat) (s : State), wfClearing n = true → s.power.mode ≠ .off →
    (let gen := s.nextGen n
     let b := s.buddyOf n gen
     (s.ckpt n).wanted = true → (s.clr n).inStep = false → s.clearState n ≠ 0 →
      (s.freeChannel n = none → exec (.snapshotOpen n) s = .next s) ∧
      ∀ k, s.freeChannel n = some k →
        (s.slotFits n gen = true → ∃ t : State, exec (.snapshotOpen n) s = .next t ∧
          t.copier k = { s.copier k with clearing := some n, blocks := s.blockList n, redirected := [], stalled := [] } ∧
          (∀ j, j ≠ k → t.copier j = s.copier j) ∧ t.ckptState n = 1 ∧ t.rd (0x4080 + n) 0xC = gen ∧
          t.ckpt n = { s.ckpt n with
            gen := gen, step := (s.clr n).stepNo, openedAt := s.time, version := s.rd (0x6040 + n) 5,
            vatStep := s.nextVatStep n, epoch := s.rd (0x9080 + n) 2, wanted := false, channel := some k, crcs := [],
            verified := false } ∧
          t.rd 0x40C1 (k + 1) = 1 ∧ t.rd 0x40C2 (k + 1) = n ∧ t.rd 0x40C3 (k + 1) = (s.blockList n).length ∧
          (b.1 ≠ s.ownModule → t.mem = s.mem ∧ s.sends t
            [.lines b.1 b.2.1 2 b.2.2 (zeros 64), .lines b.1 b.2.1 2 (b.2.2 + blockBytes) (zeros 64)]) ∧
          (b.1 = s.ownModule → t.outbox = s.outbox ∧ t.ports = s.ports ∧ (s.memoryWf → ∀ a, Mem.read t.mem a =
            if (regionAddr 2 b.2.1 b.2.2 ≤ a ∧ a < regionAddr 2 b.2.1 b.2.2 + 64) ∨
                (regionAddr 2 b.2.1 (b.2.2 + blockBytes) ≤ a ∧ a < regionAddr 2 b.2.1 (b.2.2 + blockBytes) + 64) then 0
            else Mem.read s.mem a)) ∧
          s.sameEntriesButCharges t n [keyOf 0x40C1 (k + 1), keyOf 0x40C2 (k + 1), keyOf 0x40C3 (k + 1),
            keyOf (0x4080 + n) 0xB, keyOf (0x4080 + n) 0xC] ∧
          (∀ m, m ≠ n → t.clr m = s.clr m) ∧
          t = { s with
            dict := t.dict, clearings := t.clearings, copiers := t.copiers, mem := t.mem, poison := t.poison,
            buckets := t.buckets, pools := t.pools, lastDraw := t.lastDraw, ports := t.ports, outbox := t.outbox }) ∧
        (s.slotFits n gen = false → ∃ t : State, exec (.snapshotOpen n) s = .next t ∧
          (t.copier k).clearing = none ∧ t.ckptState n = 3 ∧ t.rd (0x4080 + n) 0xC = 0 ∧ (t.ckpt n).wanted = false ∧
          (∃ e f l, t.hub.evLog = e :: f :: l ∧ e.name = .ckptFailed ∧ e.clearing = n ∧ f.name = .snapshotFailed) ∧
          t = { s with
            dict := t.dict, live := t.live, hub := t.hub, clearings := t.clearings, copiers := t.copiers,
            mem := t.mem, poison := t.poison, outbox := t.outbox })) ∧
    ((s.ckpt n).wanted = false ∨ (s.clr n).inStep = true ∨ s.clearState n = 0 → exec (.snapshotOpen n) s = .next s) ∧
    (∀ ch, wfChannel ch = true → (s.copier ch).clearing = none → exec (.blockCopied ch) s = .next s ∧
      ∀ why, exec (.snapshotFailed ch why) s = .next s.landWaiting) ∧
    (∀ ch blk, wfChannel ch = true → (s.copier ch).clearing = some n → nextBlock (s.copier ch) = some blk →
      s.badRange n 1 (blk * blockBytes) blockBytes = [] → s.slotFits n (s.ckpt n).gen = true →
      let pos := (s.blockList n).findIdx fun y => y == blk
      let data := s.peek (regionAddr 1 n (blk * blockBytes)) blockBytes
      let b := s.buddyOf n (s.ckpt n).gen
      ∃ t : State, exec (.blockCopied ch) s = .next t.landWaiting ∧
        (t.copier ch).blocks = ((s.copier ch).blocks.filter (· != blk)) ∧
        (t.copier ch).redirected = ((s.copier ch).redirected.filter (· != blk)) ∧
        (∀ j, j ≠ ch → t.copier j = s.copier j) ∧
        look (t.ckpt n).crcs pos = some (crc32c data) ∧
        ((t.copier ch).blocks ≠ [] → (t.copier ch).clearing = some n ∧ t.ckptState n = s.ckptState n ∧
          t.rd 0x40C3 (ch + 1) = (t.copier ch).blocks.length ∧
          (b.1 ≠ s.ownModule → s.sends t [.lines b.1 b.2.1 2 (b.2.2 + (2 + pos) * blockBytes) data]) ∧
          (b.1 = s.ownModule → (s.copier ch).stalled = [] → t.outbox = s.outbox ∧ t.ports = s.ports ∧
            t.mem = if s.slotReach n b.1 b.2.1 (b.2.2 + (2 + pos) * blockBytes) data.length then
              Mem.writes s.mem (regionAddr 2 b.2.1 (b.2.2 + (2 + pos) * blockBytes)) data else s.mem)) ∧
        ((t.copier ch).blocks = [] → (t.copier ch).clearing = none ∧ t.ckptState n = 2 ∧
          t.rd 0x40C1 (ch + 1) = 0 ∧ t.rd 0x40C2 (ch + 1) = 0xFF ∧
          (b.1 ≠ s.ownModule → s.sends t [.lines b.1 b.2.1 2 (b.2.2 + (2 + pos) * blockBytes) data,
            .lines b.1 b.2.1 2 (b.2.2 + (blockBytes + 64)) (t.checkTable n),
            .lines b.1 b.2.1 2 (b.2.2 + blockBytes) (t.shardHeader n)])) ∧
        (∀ m, m ≠ n → t.clr m = s.clr m) ∧
        s.sameEntriesButCharges t n [keyOf 0x40C1 (ch + 1), keyOf 0x40C2 (ch + 1), keyOf 0x40C3 (ch + 1),
          keyOf (0x4080 + n) 0xB, keyOf (0x4040 + n) 9] ∧
        t = { s with
          dict := t.dict, clearings := t.clearings, copiers := t.copiers, mem := t.mem, poison := t.poison,
          buckets := t.buckets, pools := t.pools, lastDraw := t.lastDraw, ports := t.ports, outbox := t.outbox }) ∧
    (∀ ch, wfChannel ch = true → (s.copier ch).clearing = some n → nextBlock (s.copier ch) = none →
      s.slotFits n (s.ckpt n).gen = true → ∃ t : State, exec (.blockCopied ch) s = .next t.landWaiting ∧
        t.copier ch = { s.copier ch with clearing := none } ∧ t.ckptState n = 2 ∧ (∀ m, m ≠ n → t.clr m = s.clr m) ∧
        t = { s with
          dict := t.dict, clearings := t.clearings, copiers := t.copiers, mem := t.mem, poison := t.poison,
          buckets := t.buckets, pools := t.pools, lastDraw := t.lastDraw, ports := t.ports, outbox := t.outbox }) ∧
    (∀ ch, wfChannel ch = true → (s.copier ch).clearing = some n →
      (s.slotFits n (s.ckpt n).gen = false ∨
        ∃ blk, nextBlock (s.copier ch) = some blk ∧ s.badRange n 1 (blk * blockBytes) blockBytes ≠ []) → ∃ t : State,
      exec (.blockCopied ch) s = .next t.landWaiting ∧
        (t.copier ch).clearing = none ∧ (t.copier ch).stalled = [] ∧ t.ckptState n = 3 ∧
        t.outbox = (s.tellMembers n "CKPT_FAILED" [(s.ckpt n).gen]).outbox ∧
        (∃ e f l, t.hub.evLog = e :: f :: l ∧ e.name = .ckptFailed ∧ f.name = .snapshotFailed ∧
          (∀ blk, nextBlock (s.copier ch) = some blk → s.badRange n 1 (blk * blockBytes) blockBytes ≠ [] →
            ∃ g, l.head? = some g ∧ g.name = .memoryLost ∧ g.clearing = n)) ∧
        t = { s with
          dict := t.dict, live := t.live, hub := t.hub, clearings := t.clearings, copiers := t.copiers,
          mem := t.mem, poison := t.poison, outbox := t.outbox }) ∧
    (∀ ch why, wfChannel ch = true → (s.copier ch).clearing = some n →
      let gen := (s.ckpt n).gen
      let mate (m : Nat) : Prop := m ∈ s.jobPresses n ∧ m ≠ n ∧ s.rd (0x4080 + m) 0xC = gen ∧ gen ≠ 0
      let failed (x : Ckpt) (m : Nat) : Ckpt := { x with
        wanted := false, channel := none, verified := false, forward := s.rd (0x9080 + m) 0xA == 3 || x.forward }
      ∃ t : State, exec (.snapshotFailed ch why) s = .next t.landWaiting ∧
        t.copier ch = { s.copier ch with clearing := none, blocks := [], redirected := [], stalled := [] } ∧
        (∀ j, j ≠ ch → (∀ m, (s.copier j).clearing = some m → m ≠ n ∧ ¬mate m) → t.copier j = s.copier j) ∧
        t.ckptState n = 3 ∧ t.rd (0x4080 + n) 0xC = 0 ∧ t.ckpt n = failed (s.ckpt n) n ∧ t.rd 0x40C1 (ch + 1) = 2 ∧
        (∀ m, mate m → t.ckptState m = 3 ∧ t.rd (0x4080 + m) 0xC = 0 ∧ t.ckpt m = failed (s.ckpt m) m) ∧
        (∀ m, m ≠ n → ¬mate m → t.clr m = s.clr m) ∧
        (why = .unreachable → t.hub.seq = (s.hub.seq + 2) % 2 ^ 32) ∧
        (∃ e f l, t.hub.evLog = e :: f :: l ∧ e.name = .ckptFailed ∧ e.status = .snapshotFailed ∧
          f.name = .snapshotFailed) ∧
        t.outbox = (s.tellMembers n "CKPT_FAILED" [gen]).outbox ∧
        ((∀ j, (s.copier j).stalled = []) → t.mem = s.mem) ∧
        t = { s with
          dict := t.dict, live := t.live, hub := t.hub, clearings := t.clearings, copiers := t.copiers,
          mem := t.mem, poison := t.poison, degraded := t.degraded, outbox := t.outbox }) ∧
    (∀ ok, s.ckptState n ≠ 2 ∨ (s.ckpt n).verified = true → exec (.shardVerified n ok) s = .next s) ∧
    (∀ ok, s.ckptState n = 2 → (s.ckpt n).verified = false →
      let b := s.buddyOf n (s.ckpt n).gen
      let good := if b.1 = s.ownModule then (s.readBackSlot b.2.1 b.2.2).1 else ok
      ∃ t : State, exec (.shardVerified n ok) s = .next t ∧
      (good = true → t.ckpt n = { s.ckpt n with verified := true } ∧ t.ckptState n = 2 ∧ t.hub = s.hub ∧
        t.liveOf (0x4080 + n) 0x10 = min (s.liveOf (0x4080 + n) 0x10 + 1) (2 ^ 64 - 1) ∧
        t.rd (0x4080 + n) 0x13 = s.time - (s.ckpt n).openedAt ∧
        (s.isLeader n = true → t.outbox = s.outbox) ∧
        (s.isLeader n = false → ∀ e, s.manifestEntry n (s.ckpt n).gen = some e →
          t.outbox = s.outbox ++ [.job n "SHARD" (s.ckpt n).epoch (e.2.map (·.toNat))]) ∧
        (∀ m, m ≠ n → t.clr m = s.clr m) ∧ t.copiers = s.copiers ∧ t.mem = s.mem ∧ t.poison = s.poison) ∧
      (good = false → t.ckptState n = 3 ∧ t.rd (0x4080 + n) 0xC = 0 ∧ (t.ckpt n).verified = false ∧
        (t.ckpt n).channel = none ∧ s.posts t .ckptFailed n .shardCorrupt ∧
        t.outbox = (s.tellMembers n "CKPT_FAILED" [(s.ckpt n).gen]).outbox ∧
        (∀ m, m ≠ n → m ∉ s.jobPresses n → t.clr m = s.clr m)) ∧
      t = { s with
        dict := t.dict, live := t.live, hub := t.hub, clearings := t.clearings, copiers := t.copiers, mem := t.mem,
        poison := t.poison, buckets := t.buckets, pools := t.pools, lastDraw := t.lastDraw, outbox := t.outbox }) ∧
    (∀ ok off,
      (s.clearState n ≠ 0 → s.jobRole n = 1 → off + 2 * blockBytes ≤ s.regionLen n 2 →
        let h := s.slotHeader n off
        ∃ t : State, exec (.shardVerified n ok (some off)) s = .next t ∧
          t.outbox = s.outbox ++ [.job n (if s.slotBad n off = [] ∧ s.slotSound n off = true then "VERIFIED" else "BAD")
            (s.rd (0x9080 + n) 2) [field h 48 2 % 16384, field h 50 1 % 64, field h 16 4, field h 20 4]] ∧
          s.sameEntriesButCharges t n [keyOf (0x4040 + n) 0xB] ∧
          t = { s with
            dict := t.dict, buckets := t.buckets, pools := t.pools, lastDraw := t.lastDraw, outbox := t.outbox }) ∧
      (s.clearState n = 0 ∨ s.jobRole n ≠ 1 ∨ s.regionLen n 2 < off + 2 * blockBytes →
        exec (.shardVerified n ok (some off)) s = .next s)) ∧
    (∀ others vs, exec (.ckptComplete n false others none vs) s = .next s) ∧
    (∀ others vs g, ∃ t : State, exec (.ckptComplete n false others (some g) vs) s = .next t ∧
      (∀ m ∈ s.jobPresses n, s.rd (0x4080 + m) 0xC = g.generation → g.generation ≠ 0 →
        t.ckptState m = 3 ∧ t.rd (0x4080 + m) 0xC = 0 ∧ (t.ckpt m).verified = false) ∧
      (∀ m, m ∉ s.jobPresses n ∨ s.rd (0x4080 + m) 0xC ≠ g.generation ∨ g.generation = 0 → t.clr m = s.clr m) ∧
      t = { s with
        dict := t.dict, live := t.live, clearings := t.clearings, copiers := t.copiers, mem := t.mem,
        poison := t.poison }) ∧
    (∀ others vs, s.ckptState n ≠ 2 ∨ (s.ckpt n).verified = false →
      exec (.ckptComplete n true others none vs) s = .next s) ∧
    (∀ others told vs g, s.clearState n ≠ 0 → s.jobRole n = 1 →
      (s.ckptState n = 2 ∧ (s.ckpt n).verified = true ∧ g = s.genUnderWay n ∨
        s.ckptState n ≠ 2 ∧ s.rd (0x4080 + n) 0xC = 0 ∧ told = some g) →
      let new : GenCheck := { g with vatStep := vs.foldl max g.vatStep }
      (s.isLeader n = true → s.allShards n g others = false →
        exec (.ckptComplete n true others told vs) s = .next s) ∧
      (s.isLeader n = false ∨ s.allShards n g others = true → ∃ t : State,
        exec (.ckptComplete n true others told vs) s = .next t ∧
        (s.ckptState n = 2 → t.ckptState n = 0 ∧ t.rd (0x4080 + n) 0xC = 0 ∧
          t.rd (0x4080 + n) 0xD = (s.ckpt n).gen ∧ t.rd (0x4080 + n) 0xE = (s.ckpt n).step ∧
          t.ckpt n = { s.ckpt n with verified := false, prev := (s.ckpt n).last, last := some new }) ∧
        (s.ckptState n ≠ 2 → t.ckpt n = { s.ckpt n with prev := (s.ckpt n).last, last := some new }) ∧
        (s.isLeader n = true → s.posts t .ckptComplete n .ok ∧
          ((liveMembers (s.recov n)).any (fun m => m.modNo != s.ownModule) = true →
            t.outbox.getLast? = some (.job n "CKPT_COMPLETE" (s.rd (0x9080 + n) 2) [g.generation]))) ∧
        (s.isLeader n = false → t.hub = s.hub ∧ t.mem = s.mem ∧ t.outbox = s.outbox ∧ t.ports = s.ports) ∧
        (∀ m ∈ s.verifiedShards n, t.ckptState m = 0) ∧
        (∀ m ∈ s.jobPresses n, (t.ckpt m).last = some new ∧ (t.ckpt m).prev = (s.ckpt m).last) ∧
        (∀ m, m ∉ s.jobPresses n → t.clr m = s.clr m) ∧
        t = { s with
          dict := t.dict, hub := t.hub, clearings := t.clearings, mem := t.mem, poison := t.poison,
          buckets := t.buckets, pools := t.pools, lastDraw := t.lastDraw, ports := t.ports, outbox := t.outbox })) ∧
    exec (.ckptDrainEnd n) s = .next (s.setCkpt n { s.ckpt n with drains := [] })

/-- RESTORE and RESTORE_OLDER by the manager are refused with NOT_LEADER where the clearing is no press clearing
of a job led by this module. On the leader they choose one of the two generations, which is complete and passes
rows 3 to 6 of 15 R328 (RESTORE the newer one when it passes, RESTORE_OLDER the older one); with none,
RECOVERY_STATE is FAILED and JOB_FAILED posted, and otherwise every press clearing of the job here is RESTORING
with CKPT_STATE LOADING and holds, the job's vats have no request, and the other members are told. A member
begins the restore that its leader names. RESTORE_DONE puts every press clearing of the job here at STEP and
VERSION of the generation, which is then its newest complete one, and the vats at VAT_STEP, loading that
version, raises JOB_EPOCH and returns to RUNNING; on a module without a press of the job the vats resume as the
leader names the generation. A block that failed its check makes the leader restore the older generation or fail
the job, and a member report it. REJOIN_READY of the last rejoining module brings the checkpoint forward and
sets REJOINING, as the leader's REJOIN does on a member; REJOIN_DONE, once that generation is complete, returns
the replicas, raises JOB_EPOCH, and posts REJOIN_DONE. A message of a lower epoch changes nothing. -/
def Obligations.RestoresAndRejoins : Prop :=
  ∀ (n : Nat) (s : State), wfClearing n = true →
    (∀ o a b g, (s.chooseGen n o a b).1 = some g → (g = a ∨ g = b) ∧ g.present = true ∧ g.missing = none ∧
      g.mismatch = none ∧ g.corrupt = none ∧ g.scaleId = s.rd 0x1000 3 ∧ g.planShape = s.planShape n) ∧
    (∀ a b, a.present = true → b.present = false → s.judgeGen n a = none → s.chooseGen n false a b = (some a, none)) ∧
    (∀ a b why, a.present = true → b.present = false → s.judgeGen n a = some why →
      s.chooseGen n false a b = (none, some why)) ∧
    (∀ sess a b (older : Bool), s.reachable = true → s.roleOf sess = some .manager → s.clearState n ≠ 1 →
      s.clearState n ≠ 4 →
      let i := if older then Instr.restoreOlder sess n a b else .restore sess n a b
      (s.clearState n = 0 ∨ s.jobRole n ≠ 1 ∨ s.isLeader n = false →
        exec i s = .next (s.emit (.status .notLeader))) ∧
      (s.clearState n = 3 → s.jobRole n = 1 → s.isLeader n = true → ∃ t : State, exec i s = .next t ∧
        t.outbox.getLast? = some (.status .ok) ∧
        ((s.chooseGen n older a b).1 = none → t.recState n = 4 ∧
          ((s.chooseGen n older a b).2 = none → s.posts t .jobFailed n .restoreNone) ∧
          t = { s with dict := t.dict, hub := t.hub, outbox := t.outbox, sec := (s.touch sess).sec }) ∧
        (∀ g, (s.chooseGen n older a b).1 = some g → t.recState n = 2 ∧ t.ckptState n = 4 ∧
          (∀ m ∈ s.jobPresses n, t.recState m = 2 ∧ t.ckptState m = 4 ∧ (t.recov m).chosen = some g ∧
            (t.recov m).hold = true) ∧
          (∀ m ∈ s.jobVats n, (t.vat m).waiting = [] ∧ (t.vat m).seqs = []) ∧
          ((liveMembers (s.recov n)).any (fun m => m.modNo != s.ownModule) = true →
            .job n "RESTORE" (s.epochOf n) [g.generation] ∈ t.outbox) ∧
          t = { s with
            dict := t.dict, live := t.live, hub := t.hub, clearings := t.clearings, copiers := t.copiers,
            mem := t.mem, poison := t.poison, buckets := t.buckets, pools := t.pools, lastDraw := t.lastDraw,
            ports := t.ports, outbox := t.outbox, sec := (s.touch sess).sec }))) ∧
    (∀ sess a b, s.reachable = true → s.roleOf sess = some .manager → s.clearState n = 3 → s.jobRole n = 1 →
      s.isLeader n = true →
      (a.present = true → b.present = false → s.judgeGen n a = none → ∃ t : State,
        exec (.restore sess n a b) s = .next t ∧ t.recState n = 2 ∧ (t.recov n).chosen = some a) ∧
      (a.present = true → b.present = true → seqNewer b.generation a.generation = false → s.judgeGen n b = none →
        ∃ t : State, exec (.restoreOlder sess n a b) s = .next t ∧ t.recState n = 2 ∧ (t.recov n).chosen = some b) ∧
      (a.present = false → b.present = false → ∃ t : State, exec (.restoreOlder sess n a b) s = .next t ∧
        t.recState n = 4)) ∧
    (∀ blocks bad more epoch, s.power.mode ≠ .off → s.recState n ≠ 2 ∨ bad = none ∧ (s.recov n).chosen = none →
      exec (.restoreDone n blocks bad none more epoch) s = .next s) ∧
    (∀ blocks bad told more e, s.power.mode ≠ .off → e < s.epochOf n →
      exec (.restoreDone n blocks bad told more (some e)) s = .next s) ∧
    (∀ blocks k told more, s.power.mode ≠ .off → s.recState n = 2 → s.isLeader n = false →
      exec (.restoreDone n blocks (some k) told more) s = .next (s.emit (.job n "BAD" (s.epochOf n) [k]))) ∧
    (∀ blocks k told more, s.power.mode ≠ .off → s.recState n = 2 → s.isLeader n = true → s.clearState n ≠ 0 →
      s.jobRole n = 1 → ∃ t : State, exec (.restoreDone n blocks (some k) told more) s = .next t ∧
      ((s.recov n).fallback = none → t.recState n = 4 ∧ t = { s with dict := t.dict, hub := t.hub }) ∧
      (∀ g, (s.recov n).fallback = some g → t.recState n = 2 ∧ (t.recov n).chosen = some g ∧
        (t.recov n).fallback = none)) ∧
    (∀ g blocks bad more, s.power.mode ≠ .off → s.recState n ≠ 2 → s.recState n ≠ 4 → s.isLeader n = false →
      s.clearState n ≠ 0 → s.jobRole n = 1 → ∃ t : State, exec (.restoreDone n blocks bad (some g) more) s = .next t ∧
      (∀ m ∈ s.jobPresses n, t.recState m = 2 ∧ t.ckptState m = 4 ∧ (t.recov m).chosen = some g ∧
        (t.recov m).hold = true) ∧ t.epochOf n = s.epochOf n ∧
      (∀ m ∈ s.jobVats n, (t.vat m).waiting = [] ∧ (t.vat m).seqs = [])) ∧
    (∀ g blocks bad more, s.power.mode ≠ .off → s.recState n ≠ 2 → s.isLeader n = false → s.clearState n ≠ 0 →
      s.jobRole n ≠ 1 → s.jobPresses n = [] → ∃ t : State,
      exec (.restoreDone n blocks bad (some g) more) s = .next t ∧
      (∀ m ∈ s.jobVats n, (t.clr m).stepNo = g.vatStep ∧ t.turnState m = 4 ∧ (t.turn m).version = g.version)) ∧
    (∀ g blocks told more, s.power.mode ≠ .off → s.recState n = 2 → (s.recov n).chosen = some g → s.clearState n ≠ 0 →
      s.jobRole n = 1 → ∃ t : State,
      exec (.restoreDone n blocks none told more) s = .next t ∧ t.recState n = 0 ∧ t.ckptState n = 0 ∧
      t.rd (0x4080 + n) 0xD = g.generation ∧ t.rd (0x4080 + n) 0xE = g.step ∧ (t.ckpt n).last = some g ∧
      (∀ m ∈ s.jobPresses n, t.recState m = 0 ∧ (t.clr m).stepNo = g.step ∧ (t.press m).current = some g.version) ∧
      t.epochOf n = s.epochOf n + 1 ∧ (t.clr n).stepNo = g.step ∧ (t.clr n).inStep = false ∧
      (t.press n).current = some g.version ∧ t.rd (0x6040 + n) 5 = g.version ∧ t.rd (0x9080 + n) 0xB = 0 ∧
      t.rd (0x9080 + n) 0xF = min (s.rd (0x9080 + n) 0xF + 1) (2 ^ 32 - 1) ∧
      (t.recov n).chosen = none ∧ (t.recov n).hold = false ∧
      (∀ m ∈ s.jobVats n, (t.clr m).stepNo = g.vatStep ∧ t.turnState m = 4 ∧ (t.turn m).version = g.version) ∧
      (∀ m, m ≠ n → m ∉ s.jobVats n → m ∉ s.jobPresses n → t.clr m = s.clr m) ∧
      (blocks = [] → more = [] → t.mem = s.mem) ∧
      (∀ k i d, more = [] → blocks = [(i, d)] → (s.blockList n)[i]? = some k →
        t.mem = Mem.writes s.mem (regionAddr 1 n (k * blockBytes)) (slice d 0 blockBytes)) ∧
      t = { s with
        dict := t.dict, blobs := t.blobs, clearings := t.clearings, cells := t.cells, mem := t.mem,
        poison := t.poison, buckets := t.buckets, pools := t.pools, lastDraw := t.lastDraw }) ∧
    (∀ m, wfModule m = true → s.power.mode ≠ .off → s.recState n ≠ 0 ∨ m ∉ (s.recov n).rejoining →
      exec (.rejoinReady n m) s = .next s) ∧
    (∀ m, wfModule m = true → s.power.mode ≠ .off → s.recState n = 0 → m ∈ (s.recov n).rejoining → ∃ t : State,
      exec (.rejoinReady n m) s = .next t ∧
      (∀ k, k ∈ (t.recov n).readyMods ↔ k = m ∨ k ∈ (s.recov n).readyMods) ∧
      ((∀ k ∈ (s.recov n).rejoining, k = m ∨ k ∈ (s.recov n).readyMods) →
        t.recState n = 3 ∧ (t.ckpt n).forward = true) ∧
      ((∃ k ∈ (s.recov n).rejoining, k ≠ m ∧ k ∉ (s.recov n).readyMods) → t.recState n = 0 ∧ t.ckpt n = s.ckpt n) ∧
      s.sameEntriesBut t [keyOf (0x9080 + n) 0xA] ∧ (∀ k, k ≠ n → t.clr k = s.clr k) ∧
      t = { s with dict := t.dict, clearings := t.clearings, outbox := t.outbox }) ∧
    (∀ m l, wfModule m = true → s.power.mode ≠ .off → l ≠ [] →
      (s.recState n ≠ 0 ∨ s.isLeader n = true ∨ s.clearState n = 0 ∨ s.jobRole n ≠ 1 →
        exec (.rejoinReady n m l) s = .next s) ∧
      (s.recState n = 0 → s.isLeader n = false → s.clearState n ≠ 0 → s.jobRole n = 1 → ∃ t : State,
        exec (.rejoinReady n m l) s = .next t ∧ t.recState n = 3 ∧ (t.ckpt n).forward = true ∧
        (∀ k, k ∈ (t.recov n).rejoining ↔ ∃ x ∈ l, x.modNo = k) ∧
        (∀ x ∈ (s.recov n).members, (∀ y ∈ l, y.replica ≠ x.replica ∨ y.position ≠ x.position) →
          x ∈ (t.recov n).members) ∧
        (t.recov n).members.length = (s.recov n).members.length ∧
        s.sameEntriesBut t [keyOf (0x9080 + n) 0xA] ∧ (∀ k, k ≠ n → t.clr k = s.clr k) ∧
        t = { s with dict := t.dict, clearings := t.clearings })) ∧
    (∀ m l e, wfModule m = true → s.power.mode ≠ .off → e < s.epochOf n →
      exec (.rejoinReady n m l (some e)) s = .next s) ∧
    (∀ blocks more, s.power.mode ≠ .off → s.recState n ≠ 3 ∨ s.forwardDone n = false →
      exec (.rejoinDone n blocks more) s = .next s) ∧
    (∀ blocks more e, s.power.mode ≠ .off → e < s.epochOf n → exec (.rejoinDone n blocks more (some e)) s = .next s) ∧
    (∀ blocks more, s.power.mode ≠ .off → s.recState n = 3 → s.forwardDone n = true →
      ∃ t : State, exec (.rejoinDone n blocks more) s = .next t ∧
      t.recState n = 0 ∧ t.epochOf n = s.epochOf n + 1 ∧ s.posts t .rejoinDone n .ok ∧
      (t.recov n).rejoining = [] ∧ (t.recov n).readyMods = [] ∧
      (∀ k, k ∈ (t.recov n).dropped ↔ k ∈ (s.recov n).dropped ∧
        ∀ x ∈ (s.recov n).members, x.modNo ∈ (s.recov n).rejoining → x.replica ≠ k) ∧
      (s.ownModule ∉ (s.recov n).rejoining → (t.clr n).stepNo = (s.clr n).stepNo ∧
        ((s.clr n).inStep = true → t.mem = s.mem)) ∧
      (∀ m, m ≠ n → t.clr m = s.clr m) ∧
      t = { s with
        dict := t.dict, blobs := t.blobs, hub := t.hub, clearings := t.clearings, cells := t.cells, mem := t.mem,
        poison := t.poison, buckets := t.buckets, pools := t.pools, lastDraw := t.lastDraw, outbox := t.outbox })

/-- A heartbeat of another module at the epoch or a later one is recorded, and this module's own is sent;
HEARTBEAT_MISS counts what is missing. A FAILURE_REPORT of a lower epoch is discarded, a member that is not the
leader passes the failure on, and the leader in RUNNING, with enough replicas left and NESTED_MAX not below 1,
raises JOB_EPOCH, drops every replica with a failed module and sets SHRINKING with the press held; so does it
when HEARTBEAT_MISS heartbeats are missing. SHRINK on a member takes the epoch and the failed modules, holds the
press, frees the clearing's descriptors and waiting chunks and answers with whether it holds the totals.
SHRINK_RESUME, at the leader once every member has reported its totals, lands those that a member was sent,
returns to RUNNING, counts the shrink and posts SHRINK_DONE; SHRINK_LIMIT, when due on the leader, restores the
generation 15 R328 chooses, onto usable spares in every failed position, or fails the job. A message of a lower
epoch changes nothing. STEP_TIME_REPORT counts the modules slower than STRAGGLER_FACTOR / 256 times the median.
-/
def Obligations.FailuresShrinkTheJob : Prop :=
  ∀ (n : Nat) (s : State), wfClearing n = true → s.power.mode ≠ .off →
    (∀ src epoch, wfModule src = true → s.clearState n ≠ 0 → s.jobRole n = 1 →
      (src = s.ownModule → (∃ m ∈ liveMembers (s.recov n), m.modNo ≠ s.ownModule) →
        exec (.heartbeat n src epoch) s = .next (s.emit (.job n "HEARTBEAT" (s.epochOf n) [src]))) ∧
      (src ≠ s.ownModule → epoch < s.epochOf n → exec (.heartbeat n src epoch) s = .next s) ∧
      (src ≠ s.ownModule → s.epochOf n ≤ epoch → exec (.heartbeat n src epoch) s = .next
        (s.setRecov n { s.recov n with
          missed := del (s.recov n).missed src, lastHeard := ins (s.recov n).lastHeard src s.time }))) ∧
    (∀ m, wfModule m = true → (∃ x ∈ liveMembers (s.recov n), x.modNo = m) → m ≠ s.ownModule →
      s.isLeader n = true → m ∉ (s.recov n).failedMods →
      let gone := (s.time - (look (s.recov n).lastHeard m).getD 0) / (1000000 * s.rd 0x90C0 4)
      (∀ env, gone = 0 → exec (.heartbeatMiss n m env) s = .next s) ∧
      (∀ env, gone ≠ 0 → gone < s.rd 0x90C0 5 → exec (.heartbeatMiss n m env) s = .next
        (s.setRecov n { s.recov n with missed := ins (s.recov n).missed m gone }))) ∧
    (∀ m epoch env, wfModule m = true → s.clearState n ≠ 0 → s.jobRole n = 1 →
      (epoch < s.epochOf n → exec (.failureReport n m epoch env) s = .next s) ∧
      (s.epochOf n ≤ epoch → s.isLeader n = false → m ≠ s.rd (0x9080 + n) 1 → exec (.failureReport n m epoch env) s = .next
        (s.emit (.job n "FAILURE_REPORT" (s.epochOf n) [m])))) ∧
    (∀ m epoch env i, wfModule m = true → m ≠ s.ownModule → s.isLeader n = true →
      (∃ x ∈ liveMembers (s.recov n), x.modNo = m) → m ∉ (s.recov n).rejoining → m ∉ (s.recov n).failedMods →
      s.recState n = 0 →
      (i = .failureReport n m epoch env ∧ s.clearState n ≠ 0 ∧ s.jobRole n = 1 ∧ s.epochOf n ≤ epoch ∨
        i = .heartbeatMiss n m env ∧ 0 < s.rd 0x90C0 5 ∧
          s.rd 0x90C0 5 ≤ (s.time - (look (s.recov n).lastHeard m).getD 0) / (1000000 * s.rd 0x90C0 4)) →
      let drop := hitReplicas { s.recov n with failedMods := (s.recov n).failedMods ++ [m] }
      1 ≤ s.rd 0x90C0 3 →
      s.rd (0x9080 + n) 4 ≤ ((replicasOf (s.recov n).members).filter fun k =>
        !drop.contains k && !(s.recov n).dropped.contains k).length →
      ∃ t : State, exec i s = .next t ∧ t.recState n = 1 ∧ t.epochOf n = s.epochOf n + 1 ∧
        t.rd (0x9080 + n) 0xB = 1 ∧
        (∀ k, k ∈ (t.recov n).failedMods ↔ k ∈ (s.recov n).failedMods ∨ k = m) ∧
        (∀ k, k ∈ (t.recov n).dropped ↔ k ∈ (s.recov n).dropped ∨ k ∈ drop) ∧
        (t.recov n).hold = true ∧ (t.recov n).discard = !(s.recov n).totals ∧ (t.ckpt n).forward = false ∧
        (∃ l, t.outbox = s.outbox ++ l ∧ .job n "TOTALS" (s.epochOf n + 1)
          [s.ownModule, if (s.recov n).totals then 1 else 0] ∈ l ∧ .job n "SHRINK" (s.epochOf n + 1)
          (drop.length :: drop ++ ((s.recov n).failedMods ++ [m])) ∈ l) ∧
        (∀ p ∈ t.linkDies, ∀ q ∈ p.2.slots, q.2.clearing ≠ n) ∧ ∀ w ∈ t.waitingChunks, w.line.clearing ≠ n) ∧
    (∀ epoch drop failed, epoch < s.epochOf n → exec (.shrink n epoch drop failed) s = .next s) ∧
    (∀ epoch drop failed, s.clearState n ≠ 0 → s.jobRole n = 1 → s.epochOf n ≤ epoch → ∃ t : State,
      exec (.shrink n epoch drop failed) s = .next t ∧ t.recState n = 1 ∧ t.epochOf n = epoch ∧
      (∀ k, k ∈ (t.recov n).failedMods ↔ k ∈ (s.recov n).failedMods ∨ k ∈ failed) ∧
      (∀ w ∈ t.waitingChunks, w.line.clearing ≠ n) ∧
      (∀ k, k ∈ (t.recov n).dropped ↔ k ∈ (s.recov n).dropped ∨ k ∈ drop) ∧
      (t.recov n).hold = true ∧ (t.recov n).discard = !(s.recov n).totals ∧ (t.recov n).rejoining = [] ∧
      t.rd (0x9080 + n) 0xB = (if s.recState n = 1 then min (s.rd (0x9080 + n) 0xB + 1) 255 else 1) ∧
      (∀ p ∈ t.linkDies, (∀ q ∈ p.2.slots, q.2.clearing ≠ n) ∧ ∀ q ∈ p.2.holds, q.clearing ≠ n) ∧
      t.outbox.getLast? = some (.job n "TOTALS" epoch [s.ownModule, if (s.recov n).totals then 1 else 0]) ∧
      (drop.contains (s.rd (0x9080 + n) 5) = false → t.hub = s.hub ∧ t.mem = s.mem ∧
        ∀ m, m ≠ n → t.clr m = s.clr m) ∧
      t = { s with
        dict := t.dict, live := t.live, blobs := t.blobs, hub := t.hub, clearings := t.clearings,
        mem := t.mem, poison := t.poison, copiers := t.copiers, linkDies := t.linkDies, colls := t.colls,
        waitingChunks := t.waitingChunks, buckets := t.buckets, pools := t.pools, lastDraw := t.lastDraw,
        ports := t.ports, outbox := t.outbox }) ∧
    (∀ totals usable reports sent epoch env, s.recState n ≠ 1 →
      exec (.shrinkResume n totals usable reports sent epoch) s = .next s ∧ exec (.shrinkLimit n env) s = .next s) ∧
    (∀ totals usable reports sent e, e < s.epochOf n →
      exec (.shrinkResume n totals usable reports sent (some e)) s = .next s) ∧
    (∀ totals usable reports sent, s.recState n = 1 → (s.noteTotals n reports).allTold n = false →
      exec (.shrinkResume n totals usable reports sent) s = .next (s.noteTotals n reports) ∧
      (s.noteTotals n reports).clr n = { s.clr n with recov := { s.recov n with
        told := ((s.noteTotals n reports).recov n).told } } ∧
      ∀ p ∈ reports, ∃ q ∈ ((s.noteTotals n reports).recov n).told, q.1 = p.1) ∧
    (∀ totals usable reports sent, s.recState n = 1 → (s.noteTotals n reports).allTold n = true → ∃ t : State,
      exec (.shrinkResume n totals usable reports sent) s = .next t ∧ t.recState n = 0 ∧
      (t.recov n).told = [] ∧ (t.clr n).stopped = [] ∧
      (s.isLeader n = true → (liveMembers (s.recov n)).any (fun m => m.modNo != s.ownModule) = true →
        ∃ args, .job n "RESUME" (s.epochOf n) args ∈ t.outbox) ∧
      (∀ off d, sent = [(off, d)] → (s.recov n).discard = true → totals = true → (s.clr n).inStep = true →
        off + d.length ≤ s.regionLen n 1 →
        t.mem = Mem.writes s.mem (regionAddr 1 n off) d ∧ (t.recov n).totals = true) ∧
      t.rd (0x9080 + n) 0xB = 0 ∧ t.rd (0x9080 + n) 0xE = min (s.rd (0x9080 + n) 0xE + 1) (2 ^ 32 - 1) ∧
      (t.recov n).hold = false ∧ (t.recov n).discard = false ∧ (t.recov n).shrinkAt = none ∧
      (∃ e ∈ t.hub.evLog.take 2, e.name = .shrinkDone ∧ e.clearing = n ∧ e.seq = s.hub.seq) ∧
      (∀ m, m ≠ n → t.clr m = s.clr m) ∧
      t = { s with
        dict := t.dict, hub := t.hub, clearings := t.clearings, cells := t.cells, mem := t.mem, poison := t.poison,
        buckets := t.buckets, pools := t.pools, lastDraw := t.lastDraw, outbox := t.outbox }) ∧
    (∀ at_ env, s.recState n = 1 → s.isLeader n = true → s.clearState n ≠ 0 → s.jobRole n = 1 →
      (s.recov n).shrinkAt = some at_ →
      1000000000 * s.rd 0x90C0 2 ≤ s.time - at_ → ∃ t : State, exec (.shrinkLimit n env) s = .next t ∧
      let f := s.fillAll n env.usable (s.recov n).failedMods
      let c := s.chooseGen n false env.newer env.older
      (f.2 = true ∨ c.1 = none →
        t.recState n = 4 ∧ (∃ e, t.hub.evLog.head? = some e ∧ e.name = .jobFailed ∧ e.clearing = n)) ∧
      (∀ g, f.2 = false → c.1 = some g →
        t.recState n = 2 ∧ t.ckptState n = 4 ∧ (t.recov n).chosen = some g ∧ (t.recov n).dropped = [])) ∧
    (∀ reports env e, e < s.epochOf n → exec (.stepTimeReport n reports env (some e)) s = .next s) ∧
    (∀ reports env, s.isLeader n = true → s.clearState n ≠ 0 → s.jobRole n = 1 → (s.recov n).slow = [] →
      2 ≤ s.rd (0x9080 + n) 8 → (reports.map (·.1)).Nodup → ∃ t : State,
      exec (.stepTimeReport n reports env) s = .next t ∧
      (∀ p ∈ reports, look (t.recov n).slow p.1 =
        if s.rd (0x9080 + n) 7 * median (reports.map (·.2)) < 256 * p.2 then some 1 else none) ∧
      (∀ m, m ≠ n → t.clr m = s.clr m) ∧ t.clr n = { s.clr n with recov := { s.recov n with slow := (t.recov n).slow } } ∧
      t = { s with clearings := t.clearings })

/-- PORT_BRINGUP leaves an OFF port DOWN, a port without a readable cable DOWN with CABLE_UNKNOWN, one whose
cable draws more than 3.0 W DOWN with CABLE_POWER, one that does not train (or a gateway with a bad lane that it
uses) FAILED, its queued flits leaving on the port that takes its place, a trained gateway UP, and any other
trained port in IDENT with its first IDENT sent, a bad lane replaced by lane 8, counted, which the other end is
told; the link layer starts afresh. IDENT_RECEIVE sets IDENT_MISMATCH and posts NEIGHBOUR_CHANGED for a peer
that does not prove its identity or is not the expected one, keeping the identity that was proven, and otherwise
brings the port UP (SPARED on lane 8), posting NEIGHBOUR_NEW when none was expected, and its queued flits leave.
The first LANE_FAILURE of a port that works or exchanges identity puts lane 8 in its place, SPARED, counts it,
tells the other end and asks for a replay; a second, or a loss of lock on all lanes, retrains the port, and
every transfer of the module with a flit not acknowledged on it is reported to the engine that sent it, a chunk
being sent again; on a gateway any failure of a lane it uses fails it. Nothing else changes. -/
def Obligations.PortsComeUp : Prop :=
  ∀ (p : Nat) (s : State), wfPort p = true → s.power.mode ≠ .off →
    let i := 0x5000 + 16 * p
    (∀ e : PortEnv, ∃ t : State, exec (.portBringup p e) s = .next t ∧
      (t.port p).expected = 0 ∧ (t.port p).sent = 0 ∧ (t.port p).replay = [] ∧ (t.port p).credits = [] ∧
      (t.port p).held = [] ∧ (t.port p).owed = [] ∧ (t.port p).proven = none ∧
      (t.portState p ≠ 5 ∨ (s.port p).queue = [] → ∀ q, q ≠ p → t.port q = s.port q) ∧
      (s.portMode p = 0 → t.portState p = 0 ∧ t.hub = s.hub) ∧
      (s.portMode p ≠ 0 → e.cable = none → t.portState p = 0 ∧ s.posts t .cableUnknown 0xFF .ok) ∧
      (∀ c, s.portMode p ≠ 0 → e.cable = some c → (t.port p).cable = some c ∧
        t.rd i 8 = min (c.lenDm + c.delayPs / 500) 0xFFFF ∧ t.rdBlob i 9 = c.vendor.take 16 ∧
        (3000 < c.powerMw → t.portState p = 0 ∧ s.posts t .cablePower 0xFF .ok) ∧
        (c.powerMw ≤ 3000 → e.trained = false ∨ (s.portMode p = 4 ∧ ∃ l, e.badLane = some l ∧ l ≠ 8) →
          t.portState p = 5 ∧ t.hub = s.hub ∧ ((s.port p).queue = [] → t.outbox = s.outbox)) ∧
        (c.powerMw ≤ 3000 → e.trained = true → s.portMode p = 4 → e.badLane = none ∨ e.badLane = some 8 →
          t.portState p = 3 ∧ t.outbox = s.outbox) ∧
        (c.powerMw ≤ 3000 → e.trained = true → s.portMode p ≠ 4 → t.portState p = 2 ∧
          (e.badLane = none → t.rd i 3 = 0xFF ∧ t.hub = s.hub) ∧
          (e.badLane = some 8 → t.rd i 3 = 0xFF ∧ (t.port p).lanesFailed = [8] ∧ t.hub = s.hub) ∧
          (∀ l, l ≠ 8 → e.badLane = some l → t.rd i 3 = l ∧ (t.port p).lanesFailed = [l] ∧
            (t.port p).spares = (s.port p).spares + 1 ∧ s.posts t .laneSpared 0xFF .ok) ∧
          (t.port p).queue = (s.port p).queue ∧
          (t.port p).nonce = Config.drbg s.otp.startCount s.sec.drbgCount 32 ∧
          t.outbox = s.outbox ++ (if ∃ l, e.badLane = some l ∧ l ≠ 8 then [.spare p (e.badLane.getD 0)] else []) ++ [.ident p
            (leBytes 2 s.ownModule ++ leBytes 1 p ++ s.rdBlob 0x8000 2 ++ s.rdBlob 0x8000 3 ++ (t.port p).nonce)])) ∧
      s.sameEntriesBut t ([keyOf i 2, keyOf i 3, keyOf i 8] ++ eventKeys) ∧
      (∀ k, k ∉ [keyOf i 9, keyOf i 0xA, keyOf i 0xB] → look t.blobs k = look s.blobs k) ∧
      t = { s with
        dict := t.dict, blobs := t.blobs, ports := t.ports, hub := t.hub, outbox := t.outbox,
        sec := { s.sec with drbgCount := t.sec.drbgCount } }) ∧
    (∀ x : Ident, s.portState p ≠ 2 → s.portState p ≠ 6 → exec (.identReceive p x) s = .next s) ∧
    (∀ x : Ident, s.portState p = 2 ∨ s.portState p = 6 →
      let hash := sha256 (certKey x.idCert)
      let want := slice (s.rdBlob i 7) 0 32
      ∃ t : State, exec (.identReceive p x) s = .next t ∧ t.rd i 4 = x.peerModule ∧ t.rd i 5 = x.peerPort ∧
      (s.peerOk p x = false ∨ (allZero want = false ∧ want ≠ hash) →
        t.portState p = 6 ∧ s.posts t .neighbourChanged 0xFF .ok ∧ t.blobs = s.blobs ∧
        t.port p = { s.port p with proven := if s.peerOk p x then some hash else none }) ∧
      (s.peerOk p x = true → allZero want = true ∨ want = hash →
        t.portState p = (if s.rd i 3 = 0xFF then 3 else 4) ∧ t.rdBlob i 6 = hash ∧
        (allZero want = true → s.posts t .neighbourNew 0xFF .ok) ∧ (allZero want = false → t.hub = s.hub)) ∧
      s.sends t [.ident p (s.signAttest (identText (s.port p).nonce x.nonce s.ownModule p x.peerModule x.peerPort))] ∧
      (∀ q, q ≠ p → t.port q = s.port q) ∧ ((s.port p).queue = [] → t.outbox.length = s.outbox.length + 1) ∧
      s.sameEntriesBut t ([keyOf i 2, keyOf i 4, keyOf i 5] ++ eventKeys) ∧
      t = { s with dict := t.dict, blobs := t.blobs, hub := t.hub, ports := t.ports, outbox := t.outbox }) ∧
    (∀ l, wfLane l = true → s.portWorks p = false → s.portState p ≠ 2 → s.portState p ≠ 6 →
      exec (.laneFailure p l) s = .next s) ∧
    (∀ l, wfLane l = true → s.portWorks p = true ∨ s.portState p = 2 ∨ s.portState p = 6 →
      (s.portMode p = 4 → l ≠ 8 → exec (.laneFailure p l) s = .next ((s.wr i 2 5).shiftQueue p)) ∧
      (s.portMode p = 4 → l = 8 → exec (.laneFailure p l) s = .next s) ∧
      (s.portMode p ≠ 4 → l ≠ 9 → l ∈ (s.port p).lanesFailed → exec (.laneFailure p l) s = .next s) ∧
      (s.portMode p ≠ 4 → l ∉ (s.port p).lanesFailed → s.rd i 3 = 0xFF →
        (l < 8 → 8 ∉ (s.port p).lanesFailed → ∃ t : State, exec (.laneFailure p l) s = .next t ∧
          t.rd i 3 = l ∧ t.portState p = (if s.portWorks p = true then 4 else s.portState p) ∧
          t.port p = { s.port p with lanesFailed := [l], spares := (s.port p).spares + 1 } ∧
          (∀ q, q ≠ p → t.port q = s.port q) ∧ s.posts t .laneSpared 0xFF .ok ∧
          t.outbox = s.outbox ++ [.spare p l, .replay p (((s.port p).expected + 4095) % 4096)] ∧
          s.sameEntriesBut t ([keyOf i 2, keyOf i 3] ++ eventKeys) ∧
          t = { s with dict := t.dict, ports := t.ports, hub := t.hub, outbox := t.outbox }) ∧
        (l = 8 → exec (.laneFailure p l) s = .next (s.setPort p { s.port p with lanesFailed := [8] }))) ∧
      (s.portMode p ≠ 4 →
        l = 9 ∨ l ∉ (s.port p).lanesFailed ∧ (s.rd i 3 ≠ 0xFF ∨ (l < 8 ∧ 8 ∈ (s.port p).lanesFailed)) →
        ∃ t : State, exec (.laneFailure p l) s = .next t ∧ t.portState p = 1 ∧
          t.rd (i + 1) 4 = min (s.rd (i + 1) 4 + 1) (2 ^ 32 - 1) ∧
          (∀ f die x, (s.port p).replay = [f] → f.src = s.ownModule → f.op = 4 → s.heldTag f.tag = some (die, x) →
            t = (((s.bump (i + 1) 4 1).freshPort p).setPortState p 1).retryChunk die x true) ∧
          ((∀ f ∈ (s.port p).replay, f.src = s.ownModule → f.op ≠ 4) → (t.port p).replay = [] ∧
            (t.port p).queue = (s.port p).queue ∧ (∀ q, q ≠ p → t.port q = s.port q) ∧
            (∀ f ∈ (s.port p).replay, f.src = s.ownModule → .undelivered f.dest f.tag ∈ t.outbox) ∧
            (∃ out, t.outbox = s.outbox ++ out ∧ ∀ o ∈ out, ∃ f ∈ (s.port p).replay,
              f.src = s.ownModule ∧ o = .undelivered f.dest f.tag) ∧
            s.sameEntriesBut t [keyOf i 2, keyOf (i + 1) 4] ∧
            t = { s with dict := t.dict, ports := t.ports, outbox := t.outbox })))

/-- On a port that works (or, for IDENT and CONTROL, exchanges identity), and is no gateway's, FLIT_RECEIVE
counts the codewords that the FEC corrected and lost; a flit whose FCRC fails or, but for a CONTROL flit, whose
sequence number is not the expected one, or for which no buffer is free, asks for a replay and changes nothing
else; one in sequence raises the expected number, frees what it acknowledges, takes and gives back its credit,
whereupon queued flits and due credits leave; one with a reserved field set is refused whole behind that (log
entry 27), and one that its BUDDY port does not carry is dropped and counted. A replay request sends again every
flit not acknowledged, and the eighth in a row retrains. TRANSIT_FORWARD sends the flit on the next hop with one
more hop, a new sequence number, its check computed again and one credit less; from a BUDDY port, or after 30
hops, it drops and counts it; without a way, credit or room it waits. GW_DATAGRAM that is not addressed to the
gateway is discarded; one that does not open, or is older than the window, counts GW_AUTH_FAIL; a number seen is
ignored; a new one is recorded and written where its session may write, or begins the drain it asks for of a
complete generation, whose slot here is sent in datagrams numbered above all of its transfer and sealed under
the transfer's key. GATEWAY_FRAME answers a solicitation of an own address, counts flow control, and discards
the rest. -/
def Obligations.FlitsAreCheckedAndForwarded : Prop :=
  ∀ (p : Nat) (s : State), s.power.mode ≠ .off →
    (∀ f : Flit, wfPort p = true → wfModule f.src = true → s.portMode p ≠ 4 →
      (s.portWorks p = true ∨ ((s.portState p = 2 ∨ s.portState p = 6) ∧ (f.op = 8 ∨ f.op = 9))) →
      let i := 0x5001 + 16 * p
      let u := (s.bump i 1 f.fecFixed).bump i 2 f.fecLost
      let last := ((s.port p).expected + 4095) % 4096
      (f.fcrcOk = false ∨ (f.op ≠ 9 ∧ (f.lseq ≠ (s.port p).expected ∨ s.bufferFull p f.vc = true)) →
        exec (.flitReceive p f) s = .next (u.emit (.replay p last))) ∧
      (f.fcrcOk = true → f.op = 9 → f.reserved = true →
        exec (.flitReceive p f) s = .next (u.emit (.status .reservedSet))) ∧
      (f.fcrcOk = true → f.op ≠ 9 → f.lseq = (s.port p).expected → s.bufferFull p f.vc = false → ∃ t : State,
        exec (.flitReceive p f) s = .next ((t.pumpPort p).returnCredits p) ∧
        (t.port p).queue = (s.port p).queue ∧ (t.port p).expected = ((s.port p).expected + 1) % 4096 ∧
        (t.port p).acked = f.lack ∧ (t.port p).sent = (s.port p).sent ∧
        (∀ g, g ∈ (t.port p).replay ↔ g ∈ (s.port p).replay ∧ (g.lseq + 4096 - f.lack) % 4096 ≠ 0 ∧
          (g.lseq + 4096 - f.lack) % 4096 < 2048) ∧
        (f.credits ≠ 0 → t.creditsOf p f.creditVc = min 192 (s.creditsOf p f.creditVc + 4 * f.credits)) ∧
        (f.credits = 0 → (t.port p).credits = (s.port p).credits) ∧
        (let here := f.reserved = true ∨ f.dest = s.ownModule ∨ s.portMode p = 3
         (here → (look (t.port p).owed f.vc).getD 0 = (look (s.port p).owed f.vc).getD 0 + 1) ∧
         (¬here → (look (t.port p).held f.vc).getD 0 = (look (s.port p).held f.vc).getD 0 + 1 ∧
           (t.port p).owed = (s.port p).owed)) ∧
        (∀ q, q ≠ p → t.port q = s.port q) ∧
        t.rd i 1 = u.rd i 1 ∧ t.rd i 2 = u.rd i 2 ∧
        t.rd i 6 = (if f.reserved = false ∧ s.portMode p = 3 ∧ (f.dest ≠ s.ownModule ∨ buddyCarries f = false) then
          min (s.rd i 6 + 1) (2 ^ 64 - 1) else s.rd i 6) ∧
        t.outbox = s.outbox ++ (if f.reserved = true then [.status .reservedSet] else []) ∧
        s.sameEntriesBut t [keyOf i 1, keyOf i 2, keyOf i 6] ∧
        t = { s with dict := t.dict, ports := t.ports, outbox := t.outbox }) ∧
      (f.fcrcOk = true → f.reserved = false → f.op = 9 →
        (f.credits ≠ 0 → exec (.flitReceive p f) s = .next ((u.takeLink p f).pumpPort p)) ∧
        (f.credits = 0 → ((s.takeLink p f).port p).replays + 1 < 8 → ∃ t : State,
          exec (.flitReceive p f) s = .next t ∧
          t.outbox = s.outbox ++ ((s.takeLink p f).port p).replay.map (Out.flit p) ∧
          (t.port p).replay = ((s.takeLink p f).port p).replay ∧ t.portState p = s.portState p ∧
          (∀ q, q ≠ p → t.port q = s.port q) ∧ t = { s with dict := t.dict, ports := t.ports, outbox := t.outbox }) ∧
        (f.credits = 0 → 8 ≤ ((s.takeLink p f).port p).replays + 1 →
          exec (.flitReceive p f) s = .next ((u.takeLink p f).retrain p)))) ∧
    (∀ f : Flit, wfPort p = true → wfModule f.src = true → s.portMode p = 4 → exec (.flitReceive p f) s = .next s) ∧
    (∀ f : Flit, wfPort p = true → wfModule f.src = true → s.portWorks p = false →
      (s.portState p ≠ 2 ∧ s.portState p ≠ 6) ∨ (f.op ≠ 8 ∧ f.op ≠ 9) → exec (.flitReceive p f) s = .next s) ∧
    (∀ f : Flit, wfPort p = true → wfModule f.dest = true → s.portWorks p = true → s.portMode p ≠ 4 → f.op ≠ 9 →
      f.dest ≠ s.ownModule →
      let done := f.expressDone || s.portMode p == 2
      let u := s.leaveBuffer p f.vc
      (f.reserved = true → exec (.transitForward p f) s = .next (s.emit (.status .reservedSet))) ∧
      (f.reserved = false → s.portMode p = 3 ∨ 30 ≤ f.hops →
        exec (.transitForward p f) s = .next ((s.bump (0x5001 + 16 * p) 6 1).leaveBuffer p f.vc)) ∧
      (f.reserved = false → s.portMode p ≠ 3 → f.hops < 30 → s.hopPort (dieOfPort p) f.dest f.portSet done = none →
        exec (.transitForward p f) s = .next s) ∧
      (∀ q, f.reserved = false → s.portMode p ≠ 3 → f.hops < 30 →
        s.hopPort (dieOfPort p) f.dest f.portSet done = some q →
        let vc := s.nextVc p q (if s.portMode p = 2 then f.vc / 2 * 2 else f.vc)
        (s.portWorks q = false ∨ s.creditsOf q vc = 0 ∨ 512 ≤ (s.port q).replay.length →
          exec (.transitForward p f) s = .next s) ∧
        (s.portWorks q = true → s.creditsOf q vc ≠ 0 → (s.port q).replay.length < 512 → ∃ (t : State) (g : Flit),
          exec (.transitForward p f) s = .next (t.returnCredits p) ∧ t.outbox = s.outbox ++ [.flit q g] ∧
          g = { f with
            hops := f.hops + 1, expressDone := done, vc := vc, lseq := (s.port q).sent,
            lack := ((s.port q).expected + 4095) % 4096, credits := g.credits, creditVc := g.creditVc,
            fcrc := g.fcrc, fecFixed := 0, fecLost := 0 } ∧ g.fcrcOk = true ∧
          (t.port q).sent = ((s.port q).sent + 1) % 4096 ∧ (t.port q).replay = (s.port q).replay ++ [g] ∧
          t.creditsOf q vc = s.creditsOf q vc - 1 ∧ (∀ r, r ≠ q → t.port r = u.port r) ∧
          t.rd (0x5001 + 16 * q) 5 = min (s.rd (0x5001 + 16 * q) 5 + 64 * f.lines) (topOf (0x5001 + 16 * q) 5) ∧
          s.sameEntriesBut t [keyOf (0x5001 + 16 * q) 5] ∧
          t = { s with dict := t.dict, ports := t.ports, outbox := t.outbox }))) ∧
    (∀ d : GwDatagram, wfGwPort p = true → s.portMode p ≠ 4 ∨ s.portWorks p = false ∨ s.gatewayOwn p d = false →
      exec (.gwDatagram p d) s = .next s) ∧
    (∀ d : GwDatagram, wfGwPort p = true → s.portMode p = 4 → s.portWorks p = true → s.gatewayOwn p d = true →
      (s.session d.session = none → exec (.gwDatagram p d) s = .next (s.bump (0x5002 + 16 * p) 5 1)) ∧
      ∀ x, s.session d.session = some x →
        let key := pow2 32 * d.session + d.transfer
        let seen := (look s.sec.datagrams key).getD []
        let opened := Config.gcmOpen (hkdfExpand x.sk (ascii "CRIRON-GW" ++ leBytes 4 d.transfer) 32)
          (leBytes 4 d.transfer ++ leBytes 8 d.number) [] d.sealedData d.tag
        (opened = none → exec (.gwDatagram p d) s = .next (s.bump (0x5002 + 16 * p) 5 1)) ∧
        (opened ≠ none → (∃ k ∈ seen, d.number + 1023 < k) →
          exec (.gwDatagram p d) s = .next (s.bump (0x5002 + 16 * p) 5 1)) ∧
        (opened ≠ none → (∀ k ∈ seen, k ≤ d.number + 1023) → d.number ∈ seen →
          exec (.gwDatagram p d) s = .next s) ∧
        (∀ data, opened = some data → (∀ k ∈ seen, k ≤ d.number + 1023) → d.number ∉ seen → ∃ t : State,
          exec (.gwDatagram p d) s = .next t ∧
          (∃ l, look t.sec.datagrams key = some (d.number :: l) ∧ ∀ k ∈ l, k ∈ seen) ∧
          (let own := (x.role = .manager ∨ s.isTenantOf x.role d.clearing = true) ∧ s.clearState d.clearing ≠ 0
           let may := own ∧ (d.tier = 1 ∨ d.tier = 2) ∧ d.offset + data.length ≤ s.regionLen d.clearing d.tier
           let plain := { s with sec := { s.sec with datagrams := t.sec.datagrams } }
           (d.op = .data → may → d.tier = 2 ∨ s.channelOf d.clearing = none →
             t.mem = Mem.writes s.mem (regionAddr d.tier d.clearing d.offset) data ∧
             (s.frc 0x2450 d.clearing ≠ 1 →
               t.bucket d.clearing (0x20 + p) 1 = s.bucket d.clearing (0x20 + p) 1 - (data.length : Nat))) ∧
           (d.op = .data → ¬may → t = plain) ∧
           (∀ gen, d.op = .drain gen →
             let here := s.slotHolds d.clearing d.offset gen
             let due := own ∧ s.jobRole d.clearing = 1 ∧ gen ≠ 0 ∧ (s.rd (0x4080 + d.clearing) 0xD = gen ∨
               (s.ckpt d.clearing).prev.map (·.generation) = some gen ∨ here = true)
             let len := blockBytes + shardBytes (s.slotHeader d.clearing d.offset)
             (due → gen ∈ (t.ckpt d.clearing).drains ∧ .drain p d.clearing gen ∈ t.outbox) ∧
             (due → here = false → t = { plain with clearings := t.clearings, outbox := t.outbox }) ∧
             (due → here = true → ∃ k0, d.number < k0 ∧ (∀ k ∈ seen, k < k0) ∧ ∀ j < ceilDiv len datagramBytes,
               .datagram p d.session d.transfer (k0 + j)
                 (Config.gcmSeal (hkdfExpand x.sk (ascii "CRIRON-GW" ++ leBytes 4 d.transfer) 32)
                   (leBytes 4 d.transfer ++ leBytes 8 (k0 + j)) []
                   (s.peek (regionAddr 2 d.clearing (d.offset + datagramBytes * j))
                     (min datagramBytes (len - datagramBytes * j)))).1
                 (Config.gcmSeal (hkdfExpand x.sk (ascii "CRIRON-GW" ++ leBytes 4 d.transfer) 32)
                   (leBytes 4 d.transfer ++ leBytes 8 (k0 + j)) []
                   (s.peek (regionAddr 2 d.clearing (d.offset + datagramBytes * j))
                     (min datagramBytes (len - datagramBytes * j)))).2 ∈ t.outbox) ∧
             (¬due → t = plain))) ∧
          t = { s with
            dict := t.dict, mem := t.mem, poison := t.poison, buckets := t.buckets, pools := t.pools,
            lastDraw := t.lastDraw, copiers := t.copiers, clearings := t.clearings, outbox := t.outbox,
            sec := { s.sec with datagrams := t.sec.datagrams, sendNext := t.sec.sendNext } })) ∧
    (∀ f : GwFrame, wfGwPort p = true → s.portMode p = 4 → s.portWorks p = true →
      (∀ a, f = .solicit a → s.ownAddress p a = true → exec (.gatewayFrame p f) s = .next (s.emit (.advert p))) ∧
      (∀ a, f = .solicit a → s.ownAddress p a = false → exec (.gatewayFrame p f) s = .next s) ∧
      (f = .pause → exec (.gatewayFrame p f) s = .next (s.bump (0x5002 + 16 * p) 6 1)) ∧
      (f = .other → exec (.gatewayFrame p f) s = .next s))

/-- TRIG_POST of a descriptor of 64 bytes answers TRIG_INVALID, TIER_FOREIGN or QUOTA_SHORT, or arms the lowest
free slot; a chunk descriptor whose counter already meets its threshold, alone on the die, is sent at once,
where its source can be read, with the CRC-32C of its source, which stays held. A chunk that arrives first lets
the chunks whose lines have been written since be used. Then one with a reserved field set is refused; from a
module that may not reach the place it posts REMOTE_FOREIGN; of a failed collective it is discarded; a duplicate
is counted, and acknowledged once it has been used; a corrupt chunk lands, is asked for again and counted; one
whose lines wait for a snapshot waits with them; and a good one is written, counted in its trigger counter and
acknowledged. CHUNK_ACK releases the held source and raises SRC_ACK; CHUNK_RETRY sends the chunk again on the
next port set, where its source can be read, and after three resends fails the collective with CHUNK_UNDELIVERED
or CHUNK_CORRUPT. COLL_FAIL, and a COLL_TIMEOUT that is due while the collective is not complete here or a chunk
of another module is missing, free the collective's descriptors and held sources, count the failure, and stop
the plan on every grove where a tile of the clearing waits; the module that finds the failure tells the
collective's other modules and names the peer at the next sweep. -/
def Obligations.CollectivesAreChecked : Prop :=
  ∀ (die n : Nat) (s : State), wfLinkDie die = true → wfClearing n = true → s.power.mode ≠ .off →
    (∀ b, s.clearState n = 0 → exec (.trigPost die n b) s = .next s) ∧
    (∀ b, s.clearState n ≠ 0 →
      let d := readTrig b
      (trigReserved d = true → exec (.trigPost die n b) s = .next (s.emit (.status .trigInvalid))) ∧
      (trigReserved d = false → s.trigForeign n d = true →
        exec (.trigPost die n b) s = .next (s.emit (.status .tierForeign))) ∧
      (trigReserved d = false → s.trigForeign n d = false →
        ((s.takeTrig die n d.trig).isNone = true ∨ s.freeTrigSlot die n = none →
          exec (.trigPost die n b) s = .next (s.emit (.status .quotaShort))) ∧
        (∀ k, (s.takeTrig die n d.trig).isSome = true → s.freeTrigSlot die n = some k →
          (s.readySlots die = [] → s.trigOf die d.trig < d.threshold → ∃ t : State,
            exec (.trigPost die n b) s = .next t ∧
            look (t.linkDie die).slots k = some { clearing := n, desc := d, attempt := 0 } ∧
            (∀ j, j ≠ k → look (t.linkDie die).slots j = look (s.linkDie die).slots j) ∧
            (t.linkDie die).ctrs = (s.linkDie die).ctrs ∧ (t.linkDie die).holds = (s.linkDie die).holds ∧
            look (t.linkDie die).owners d.trig = some n ∧
            (∀ e, e ≠ die → t.linkDie e = s.linkDie e) ∧ t = { s with linkDies := t.linkDies }) ∧
          ((s.linkDie die).slots = [] → d.threshold ≤ s.trigOf die d.trig → d.top = 1 → bitOf d.tflags 0 = false →
            s.locBad n d.src d.length = [] →
            let x : Trig := { clearing := n, desc := d, attempt := 0 }
            let data := (s.locRead n d.src d.length).1
            let peer := s.chainModule n d.dstModule
            ∃ t : State, exec (.trigPost die n b) s = .next t ∧
            s.sends t [.chunk peer (s.setOf die peer x) (s.lineOf x data) data] ∧
            (s.lineOf x data).crc = crc32c data ∧
            (t.linkDie die).slots = [] ∧
            (t.linkDie die).holds = (s.linkDie die).holds ++ [{ x with tag := s.nextTag }] ∧
            (t.coll n d.coll).firstFire = ((s.coll n d.coll).firstFire.or (some s.time)) ∧
            t.rd (0x5220 + n) 4 = min (s.rd (0x5220 + n) 4 + 1) (2 ^ 64 - 1) ∧
            t = { s with
              dict := t.dict, linkDies := t.linkDies, colls := t.colls, buckets := t.buckets, pools := t.pools,
              lastDraw := t.lastDraw, outbox := t.outbox, nextTag := t.nextTag, ports := t.ports })))) ∧
    (s.waitingChunks = [] → s.landWaiting = s) ∧
    (∀ (l : ChunkLine) (dst : Nat) (data : List Byte) (asker : Nat), l.clearing = n → wfColl l.coll = true →
      let u := s.landWaiting
      let waits := ∃ w ∈ u.waitingChunks, w.line.clearing = n ∧ w.line.coll = l.coll ∧ w.line.chunk = l.chunk
      (l.reserved = true ∨ locOk dst = false →
        exec (.chunkArrive die l dst data asker) s = .next (u.emit (.status .reservedSet))) ∧
      (l.reserved = false → locOk dst = true → u.locRemote l.job n dst data.length = false → ∃ t : State,
        exec (.chunkArrive die l dst data asker) s = .next t ∧
        u.posts t .remoteForeign 0xFF .ok ∧ t = { u with dict := t.dict, hub := t.hub }) ∧
      (l.reserved = false → locOk dst = true → u.locRemote l.job n dst data.length = true →
        ((u.coll n l.coll).failed = true → exec (.chunkArrive die l dst data asker) s = .next u) ∧
        ((u.coll n l.coll).failed = false → l.chunk ∈ (u.coll n l.coll).accepted → ∃ t : State,
          exec (.chunkArrive die l dst data asker) s = .next t ∧ u.sends t [.chunkAck l.src l] ∧
          t = { u.bump (0x5220 + n) 7 1 with ports := t.ports, outbox := t.outbox }) ∧
        ((u.coll n l.coll).failed = false → l.chunk ∉ (u.coll n l.coll).accepted → waits →
          exec (.chunkArrive die l dst data asker) s = .next (u.bump (0x5220 + n) 7 1)) ∧
        ((u.coll n l.coll).failed = false → l.chunk ∉ (u.coll n l.coll).accepted → ¬waits → crc32c data ≠ l.crc →
          ∃ t : State, exec (.chunkArrive die l dst data asker) s = .next t ∧
          u.sends t [.chunkRetry l.src l] ∧
          t.rd (0x5220 + n) 6 = min (u.rd (0x5220 + n) 6 + 1) (2 ^ 64 - 1) ∧
          t = { u with
            dict := t.dict, mem := t.mem, poison := t.poison, cells := t.cells, copiers := t.copiers,
            buckets := t.buckets, pools := t.pools, lastDraw := t.lastDraw, outbox := t.outbox, ports := t.ports }) ∧
        ((u.coll n l.coll).failed = false → l.chunk ∉ (u.coll n l.coll).accepted → ¬waits → crc32c data = l.crc →
          u.locStalled n dst data.length = true → ∃ t : State, exec (.chunkArrive die l dst data asker) s = .next t ∧
          t.waitingChunks = u.waitingChunks ++ [{ die := die, line := l, dst := dst, len := data.length }] ∧
          t.mem = u.mem ∧
          t = { u with
            dict := t.dict, copiers := t.copiers, buckets := t.buckets, pools := t.pools, lastDraw := t.lastDraw,
            waitingChunks := t.waitingChunks }) ∧
        ((u.coll n l.coll).failed = false → l.chunk ∉ (u.coll n l.coll).accepted → ¬waits → crc32c data = l.crc →
          u.locStalled n dst data.length = false → l.signalOn = false →
          (∀ q ∈ (u.linkDie die).slots, q.2.desc.trig ≠ l.dstTrig ∧ u.trigOf die q.2.desc.trig < q.2.desc.threshold) →
          ∃ t : State, exec (.chunkArrive die l dst data asker) s = .next t ∧
          u.sends t [.chunkAck l.src l] ∧
          t.coll n l.coll = { u.coll n l.coll with accepted := l.chunk :: (u.coll n l.coll).accepted } ∧
          ((u.takeTrig die n l.dstTrig).isSome = true →
            t.trigOf die l.dstTrig = min (u.trigOf die l.dstTrig + 1) 0xFFFF) ∧
          ((u.takeTrig die n l.dstTrig).isNone = true → t.linkDies = u.linkDies) ∧
          (locTier dst = 0 → t.mem =
            Mem.writes u.mem (u.cellHome n (locGrove dst) (locCell dst) (locOff dst)) data) ∧
          (locTier dst ≠ 0 → t.mem = Mem.writes u.mem (regionAddr (locTier dst) n (locOff dst)) data) ∧
          (∀ e, e ≠ die → t.linkDie e = u.linkDie e) ∧
          t = { u with
            dict := t.dict, mem := t.mem, poison := t.poison, cells := t.cells, buckets := t.buckets,
            pools := t.pools, lastDraw := t.lastDraw, linkDies := t.linkDies, colls := t.colls, outbox := t.outbox,
            ports := t.ports }))) ∧
    (∀ l : ChunkLine, l.clearing = n → wfColl l.coll = true → s.heldChunk die l = none →
      exec (.chunkAck die l) s = .next s ∧ ∀ u, exec (.chunkRetry die l u) s = .next s) ∧
    (∀ (l : ChunkLine) (x : Trig), l.clearing = n → wfColl l.coll = true → s.heldChunk die l = some x →
      (l.reserved = true → exec (.chunkAck die l) s = .next (s.emit (.status .reservedSet)) ∧
        exec (.chunkRetry die l false) s = .next (s.emit (.status .reservedSet))) ∧
      (l.reserved = false → (∀ q ∈ (s.linkDie die).slots, q.2.desc.trig ≠ x.desc.srcAck ∧
          s.trigOf die q.2.desc.trig < q.2.desc.threshold) → ∃ t : State, exec (.chunkAck die l) s = .next t ∧
        (t.linkDie die).holds = ((s.linkDie die).holds.filter (· != x)) ∧
        (t.linkDie die).slots = (s.linkDie die).slots ∧
        ((s.takeTrig die x.clearing x.desc.srcAck).isSome = true →
          t.trigOf die x.desc.srcAck = min (s.trigOf die x.desc.srcAck + 1) 0xFFFF) ∧
        (∀ e, e ≠ die → t.linkDie e = s.linkDie e) ∧ t = { s with linkDies := t.linkDies }) ∧
      (∀ u, l.reserved = false ∨ u = true → x.attempt < 3 →
        s.locReach x.clearing x.clearing x.desc.src x.desc.length = false → exec (.chunkRetry die l u) s =
          .next (((s.releaseHold die x).emit (.status .tierForeign)).bump (0x5220 + x.clearing) 5 1)) ∧
      (∀ u, l.reserved = false ∨ u = true → x.attempt < 3 → s.locBad x.clearing x.desc.src x.desc.length = [] →
        s.locReach x.clearing x.clearing x.desc.src x.desc.length = true →
        let y : Trig := { x with attempt := x.attempt + 1 }
        let data := (s.locRead x.clearing x.desc.src x.desc.length).1
        let peer := s.chainModule x.clearing x.desc.dstModule
        ∃ t : State, exec (.chunkRetry die l u) s = .next t ∧
        s.sends t [.chunk peer (s.setOf die peer y) (s.lineOf y data) data] ∧
        (t.linkDie die).holds = ((s.linkDie die).holds.filter (· != x)) ++ [{ y with tag := s.nextTag }] ∧
        t.rd (0x5220 + x.clearing) 5 = min (s.rd (0x5220 + x.clearing) 5 + 1) (2 ^ 64 - 1) ∧
        (∀ e, e ≠ die → t.linkDie e = s.linkDie e) ∧
        t = { s with
          dict := t.dict, linkDies := t.linkDies, buckets := t.buckets, pools := t.pools, lastDraw := t.lastDraw,
          outbox := t.outbox, nextTag := t.nextTag, ports := t.ports })) ∧
    (∀ (c peer op : Nat) (i : Instr) (why : Name) (found : Bool), wfColl c = true → (s.coll n c).failed = false →
      (found = true ∧ (∃ l x u, i = .chunkRetry die l u ∧ wfClearing l.clearing = true ∧ wfColl l.coll = true ∧
          (l.reserved = false ∨ u = true) ∧ s.heldChunk die l = some x ∧ 3 ≤ x.attempt ∧ x.clearing = n ∧
          x.desc.coll = c ∧ peer = x.desc.dstModule ∧ op = x.desc.opId ∧
          why = if u then .chunkUndelivered else .chunkCorrupt) ∨
        found = true ∧ (∃ missing, i = .collTimeout n c missing ∧ why = .collTimeout ∧ op = 0 ∧
          peer = missing.getD ((s.owing n c).headD s.ownModule) ∧ (s.collOpen n c = true ∨ missing.isSome = true)) ∧
          (∃ at_, (s.coll n c).firstFire = some at_ ∧ 1000000 * s.rd 0x5200 5 ≤ s.time - at_) ∨
        found = false ∧ s.clearState n ≠ 0 ∧ ∃ st id line, i = .collFail n c st id line ∧
          ∀ l, line = some l → l.reserved true = false ∧ l.coll = c) →
      let mods := ((s.planOf n).bind fun p => (p.collMods.find? fun q => q.1 == c).map (·.2)).getD []
      ∃ t : State, exec i s = .next t ∧ (t.coll n c).failed = true ∧
        t.rd (0x5220 + n) 3 = min (s.rd (0x5220 + n) 3 + 1) (2 ^ 64 - 1) ∧
        (∀ q ∈ t.linkDies, (∀ r ∈ q.2.slots, r.2.clearing = n → r.2.desc.coll ≠ c) ∧
          ∀ r ∈ q.2.holds, r.clearing = n → r.desc.coll ≠ c) ∧
        (∀ g < 16, ∀ k < 256, s.waitingTile n g k ≠ none → g ∈ (t.clr n).stopped) ∧
        (found = true → (∀ q ∈ s.cells, ∀ y ∈ q.2.slots, y.desc.clearing = n → y.st ≠ .loaded) →
          s.posts t .collFailed n why) ∧
        (found = true → s.sends t ((mods.filter (· != s.ownModule)).map fun m => .collFail m c why op)) ∧
        (found = false → t.outbox = s.outbox ∧ t.nextTag = s.nextTag ∧ t.ports = s.ports) ∧
        (∀ m, m ≠ n → t.clr m = { s.clr m with recov := { s.recov m with suspects := (t.recov m).suspects } }) ∧
        (found = true → why ≠ .chunkCorrupt → peer ≠ s.ownModule →
          ∀ m ∈ s.jobPresses n, peer ∈ (t.recov m).suspects) ∧
        t = { s with
          dict := t.dict, hub := t.hub, clearings := t.clearings, linkDies := t.linkDies, colls := t.colls,
          outbox := t.outbox, nextTag := t.nextTag, ports := t.ports }) ∧
    (∀ c, wfColl c = true →
      ((s.coll n c).failed = true → (∀ missing, exec (.collTimeout n c missing) s = .next s) ∧
        ∀ st op, exec (.collFail n c st op) s = .next s) ∧
      (s.collOpen n c = false → exec (.collTimeout n c) s = .next s) ∧
      ((∀ at_, (s.coll n c).firstFire = some at_ → s.time - at_ < 1000000 * s.rd 0x5200 5) →
        ∀ missing, exec (.collTimeout n c missing) s = .next s) ∧
      (∀ st op l, s.clearState n ≠ 0 → l.reserved true = true ∨ l.coll ≠ c →
        exec (.collFail n c st op (some l)) s = .next (s.emit (.status .reservedSet))))

/-- In RUN, TILE_LOAD of 64 bytes first returns DONE slots to EMPTY. A descriptor of a clearing whose plan is
stopped on the grove, or which is being destroyed, is issued no more; one that finds no free slot, its clearing
at its limit, or its clearing parked by a claim, is held; one that passes every check takes a slot, LOADED or
READY by its wait condition; one that fails a check leaves with its chain, and its clearing's plan stops on the
grove with PLAN_STOPPED and the check's status. TILE_PICK of a class none of which runs, outside a HOLD and
where the cell is hosted, sets no slot RUNNING when no clearing is eligible, and runs the candidate of the
pointer's clearing when that one is eligible and out of debt, the cell taking a compute tile's role, its
program's index and its bytes. Other cells, memory and all else are unchanged. -/
def Obligations.TilesAreLoadedAndPicked : Prop :=
  ∀ (g c : Nat) (s : State), wfCell g c = true → s.power.mode ≠ .off →
    let x := s.cell g c
    let frame (t : State) : Prop :=
      (∀ k, k ≠ g * 256 + c → look t.cells k = look s.cells k) ∧
      (∀ m, { t.clr m with stopped := (s.clr m).stopped } = s.clr m) ∧ s.sameEntriesBut t eventKeys
    (∀ desc : List Byte, s.power.mode ≠ .run ∨ desc.length ≠ 64 → exec (.tileLoad g c desc) s = .next s) ∧
    (∀ desc : List Byte, s.power.mode = .run → desc.length = 64 →
      let d := decodeTile desc
      let n := d.clearing % 64
      let kept := x.slots.filter fun q => q.st != .done
      let s1 := (s.setCell g c { x with held := x.held ++ [d] }).collect g c
      let ch := s1.openChain n g c
      let free := kept.length < 8 ∧ (kept.filter fun q => q.desc.clearing == n).length < s1.slotLimit g c ∧
        s1.isParked n g c = false
      let stopped := g ∈ (s.clr n).stopped ∨ s.clearState n = 4
      ∃ t : State, exec (.tileLoad g c desc) s = .next t ∧
      (x.held = [] → stopped → (t.cell g c).slots = kept ∧ (t.cell g c).held = [] ∧ t.hub = s.hub) ∧
      (x.held = [] → ¬stopped → ¬free → (t.cell g c).slots = kept ∧ (t.cell g c).held = [d] ∧ t.hub = s.hub) ∧
      (8 ≤ kept.length → (t.cell g c).slots = kept ∧
        (t.cell g c).held = (x.held ++ [d]).filter fun e =>
          !((s.clr (e.clearing % 64)).stopped.contains g || s.clearState (e.clearing % 64) == 4)) ∧
      (x.held = [] → ¬stopped → free → s1.tileCheck g c d = none →
        (t.cell g c).slots.map (·.desc) = kept.map (·.desc) ++ [d] ∧
        ((t.cell g c).slots.getLast?.map fun q => (q.st, q.chainHead, q.tries)) =
          some (if s.waitMet g c d then .ready else .loaded, ch.isEmpty, 0) ∧
        (t.cell g c).held = [] ∧ t.hub = s.hub ∧ t.clearings = s.clearings) ∧
      (∀ order why id, x.held = [] → ¬stopped → free → s1.tileCheck g c d = some (order, why, id) →
        (t.cell g c).slots = dropSlots n ch.length kept ∧ (t.cell g c).held = [] ∧
        s.posts t .planStopped n why ∧ (t.clr n).stopped = g :: (s.clr n).stopped) ∧
      frame t ∧ t.cell g c = { x with slots := (t.cell g c).slots, held := (t.cell g c).held } ∧
      t = { s with
        cells := t.cells, clearings := t.clearings, hub := t.hub, dict := t.dict, live := t.live }) ∧
    (∀ cls : TileClass,
      s.power.mode ≠ .run ∨ s.power.holding = true ∨ s.classRuns g c cls = true ∨ s.hosted g c = false →
      exec (.tilePick g c cls) s = .next s) ∧
    (∀ cls : TileClass,
      s.power.mode = .run → s.power.holding = false → s.classRuns g c cls = false → s.hosted g c = true →
      let s1 := s.fill g c
      let y := s1.cell g c
      let p := if cls = .move then y.movePtr else y.computePtr
      let cand := s1.candidate p g c cls
      ∃ t : State, exec (.tilePick g c cls) s = .next t ∧
      ((∀ n, s1.eligible n g c cls = false) →
        (t.cell g c).slots = y.slots ∧ (t.cell g c).role = x.role ∧ (t.cell g c).program = x.program ∧
        (t.cell g c).progMem = x.progMem) ∧
      (s1.eligible p g c cls = true → 0 ≤ deficitAt cls y.ring p →
        (t.cell g c).slots = runSlots s.time p cls cand.length y.slots ∧
        (∃ q ∈ (t.cell g c).slots, q.desc.clearing = p ∧ inClass cls q.desc = true ∧ q.st = .running) ∧
        (if cls = .move then (t.cell g c).movePtr else (t.cell g c).computePtr) = p ∧
        (cls = .compute → ∀ q, cand.head? = some q →
          (t.cell g c).role = q.desc.role ∧ (t.cell g c).program = q.desc.program ∧
          (t.cell g c).progMem = (look (s.grove g).progs q.desc.program).getD []) ∧
        (cls = .move → (t.cell g c).role = x.role ∧ (t.cell g c).program = x.program ∧
          (t.cell g c).progMem = x.progMem)) ∧
      frame t ∧ (t.cell g c).ctrs = x.ctrs ∧ (t.cell g c).scratchOwn = x.scratchOwn ∧
      (t.cell g c).sideOwn = x.sideOwn ∧
      (∀ g', { t.grove g' with multi := (s.grove g').multi } = s.grove g') ∧
      t = { s with
        cells := t.cells, clearings := t.clearings, hub := t.hub, dict := t.dict, live := t.live, groves := t.groves })

/-- For each of the 18 compute kinds that compute a result (the products, the row kinds, the conversions, the
updates, the preconditioning and the function tiles), where the cell's running compute tile is of the kind, the
module in RUN, no urgent retirement of its cell under way, its inputs readable and its parameter line in order
(outside RUN, before the spare of an urgent retirement, and without such a tile, exec changes nothing): exec,
after the arbiters its traffic passes, makes exactly the writes of the kind's result to the cell's scratchpad
and side memory, its slots become DONE, the feeder queues, accumulator registers and accumulator buffer are
empty, SIG_CTR is signalled, and, where a residue check failed once RESIDUE_RETRIES rises by one, where words
were corrected SECDED_CORRECTED by as many. A tile that draws from a table that FAILED changes nothing behind
those arbiters. Other slots, cells, memory bytes and clearings stay, but for the running counters of the
clearing and the grove. A line that is not in order writes nothing, empties the slots and stops the clearing's
plan with RESERVED_SET. A second residue failure leaves the slots RUNNING and retires the cell. -/
def Obligations.ComputeTilesRunWhole : Prop :=
  ∀ (g c : Nat) (o : RunEnv) (s : State), wfCell g c = true → s.power.mode ≠ .off →
    ∀ e ∈ ([(.matmul g c o, 0x01, State.matmulRes g c), (.splitSum g c o, 0x40, State.splitRes g c),
        (.convert g c o, 0x41, State.convertRes g c), (.rmsNorm g c o, 0x20, State.rowRes g c),
        (.rmsNormBwd g c o, 0x21, State.rowRes g c), (.softmax g c o, 0x22, State.rowRes g c),
        (.softmaxBwd g c o, 0x23, State.rowRes g c), (.rowVariance g c o, 0x24, State.rowRes g c),
        (.funcApply g c o, 0x80, State.funcRes g c), (.mask g c o, 0x81, State.maskRes g c),
        (.rawWords g c o, 0x82, State.rawRes g c), (.updateP1 g c o, 0x60, State.updateP1Res g c),
        (.updateP2 g c o, 0x61, State.updateP2Res g c), (.updateScalars g c o, 0x62, State.scalarsRes g c),
        (.precondPrep g c o, 0x64, State.prepRes g c), (.precondChol g c o, 0x65, State.cholRes g c),
        (.precondMm g c o, 0x66, State.mmRes g c), (.precondAffine g c o, 0x67, State.affineRes g c)]
        : List (Instr × Nat × (State → List TileDesc → RunRes))),
    let ds := (s.runningSlots g c .compute).map (·.desc)
    let u := s.arbitrateAll o.arb
    let r := e.2.2 u ds
    let x := s.cell g c
    let runs (q : TileSlot) : Bool := q.st == .running && inClass .compute q.desc
    let again := keyOf (0x9010 + g) 4
    let fixed := keyOf (0x9010 + g) 6
    let failed := ds.any u.draws = true ∧ (u.grove g).tableState = 3
    let waits := s.power.mode ≠ .run ∨ s.tileWaits g c = true
    (waits ∨ (∀ d, ds.head? = some d → d.kind ≠ e.2.1) → exec e.1 s = .next s) ∧
    ∀ d : TileDesc, ¬waits → ds.head? = some d → d.kind = e.2.1 → d.clearing < 64 → u.badInput g c ds = none →
    (o.arb = [] → u = s) ∧
    (failed → (∀ off, o.found ≠ .scratchLost off) → exec e.1 s = .next u) ∧
    (¬failed → r.lineOk = true → (∃ k, o.found = .wordFixed k) ∨ o.found = .ok ∨ o.found = .residueOnce → ∃ t : State,
      exec e.1 s = .next t ∧
      (t.cell g c).slots.map (fun q => (q.desc, q.st == .done)) = x.slots.map (fun q => (q.desc, runs q || q.st == .done)) ∧
      t.mem = ((u.writeScr g c (r.scr ++ r.late)).writeSide g c r.side).mem ∧
      (s.memoryWf → ∀ b,
        (∀ w ∈ r.scr ++ r.late, b < s.scrAddr g c w.1 ∨ s.scrAddr g c w.1 + w.2.length ≤ b) →
        (∀ w ∈ r.side, b < s.sideAddr g c w.1 ∨ s.sideAddr g c w.1 + w.2.length ≤ b) →
        Mem.read t.mem b = Mem.read s.mem b) ∧
      (o.found = .residueOnce → t.rd (0x9010 + g) 4 = min (u.rd (0x9010 + g) 4 + 1) (2 ^ 64 - 1)) ∧
      (∀ k, o.found = .wordFixed k → t.rd (0x9010 + g) 6 = min (u.rd (0x9010 + g) 6 + k) (2 ^ 64 - 1)) ∧
      (∀ k, k ≠ g * 256 + c → look t.cells k = look s.cells k) ∧
      t.cell g c = { x with
        slots := (t.cell g c).slots, ring := (t.cell g c).ring, ctrs := (t.cell g c).ctrs,
        badWords := (t.cell g c).badWords, parked := (t.cell g c).parked, array := {} } ∧
      (∀ m, m ≠ d.clearing → t.clr m = s.clr m) ∧
      t.clr d.clearing = { s.clr d.clearing with
        press := (t.clr d.clearing).press, recov := (t.clr d.clearing).recov } ∧
      (∀ g', { t.grove g' with multi := (s.grove g').multi, proving := (s.grove g').proving } = s.grove g') ∧
      (∀ k, k / 256 < 0x6040 ∨ k % 256 ≠ 0xB → k / 256 ∉ [0x7010 + d.clearing, 0x7050 + d.clearing, 0x6080 + d.clearing,
        0x6001 + g,
        0x70000 + d.clearing * 16 + g] → look t.live k = look s.live k) ∧
      u.sameEntriesBut t ((if o.found = .residueOnce then [again] else if o.found = .ok then [] else [fixed]) ++ eventKeys) ∧
      t = { s with
        cells := t.cells, mem := t.mem, live := t.live, groves := t.groves, clearings := t.clearings,
        hub := t.hub, dict := t.dict, arbs := u.arbs }) ∧
    (¬failed → r.lineOk = false → o.found = .ok → ∃ t : State, exec e.1 s = .next t ∧
      t.mem = s.mem ∧ (t.cell g c).slots = x.slots.filter (fun q => !runs q) ∧
      s.posts t .planStopped d.clearing .reservedSet ∧ g ∈ (t.clr d.clearing).stopped ∧
      (∀ m, { t.clr m with stopped := (s.clr m).stopped } = s.clr m) ∧
      (∀ k, k ≠ g * 256 + c → look t.cells k = look s.cells k) ∧ u.sameEntriesBut t eventKeys ∧
      t = { s with
        cells := t.cells, live := t.live, groves := t.groves, clearings := t.clearings, hub := t.hub, dict := t.dict,
        arbs := u.arbs }) ∧
    (¬failed → r.lineOk = true → o.found = .residueTwice → ∃ t : State, exec e.1 s = .next t ∧
      t.mem = (u.writeScr g c r.scr).mem ∧ (t.cell g c).slots = x.slots ∧
      s.physOf g c ∈ (t.grove g).retired ∧ t.rd (0x9010 + g) 4 = min (u.rd (0x9010 + g) 4 + 1) (2 ^ 64 - 1))

/-- In RUN, with the grove's table not FAILED, where the running compute tile is a MASK tile with its parameter
line in order and probability p, exec completes and bit n mod 8 of byte OUT_ADDR + n/8 of the cell's scratchpad
is 1 exactly when bits [15:0] of the draw at INDEX_BASE + n are less than p. Where it is a RAW_WORDS tile, the
four bytes at OUT_ADDR + 4n are bits [31:0] of the draw at INDEX_BASE + n, least significant byte first, so that
with the index of a sequence's next token in ARGS the first word is that of its token-sampling draw. -/
def Obligations.MaskAndRawWordDraws : Prop :=
  ∀ (g c : Nat) (o : RunEnv) (s : State), wfCell g c = true → s.power.mode = .run → s.tileWaits g c = false →
    o.found = .ok → o.arb = [] → (s.grove g).tableState ≠ 3 → s.memoryWf →
    let ds := (s.runningSlots g c .compute).map (·.desc)
    ∀ d : TileDesc, ds.head? = some d → s.badInput g c ds = none → s.functionLineOk g c d = true →
    let out := s.scrAddr g c d.outAddr
    let drawOf (n : Nat) : Nat := s.draw d.clearing g (argStream d) (indexBase d + n)
    (d.kind = 0x81 → ∃ t : State, exec (.mask g c o) s = .next t ∧
      ∀ n, n < d.k / 8 * 8 → (Mem.read t.mem (out + n / 8)).getLsbD (n % 8) =
        decide (drawOf n % 2 ^ 16 < s.scr32 g c d.auxAddr % 2 ^ 16)) ∧
    (d.kind = 0x82 → ∃ t : State, exec (.rawWords g c o) s = .next t ∧
      (∀ n, n < d.k → Mem.reads t.mem (out + 4 * n) 4 = leBytes 4 (drawOf n % 2 ^ 32)) ∧
      ∀ x : Seqn, 0 < d.k → indexBase d = State.sampleIndex x.req.tag x.tokens.length →
        Mem.reads t.mem out 4 = leBytes 4 (s.sampleDraw d.clearing g (argStream d) x % 2 ^ 32))

/-- Outside RUN, and before the spare of an urgent retirement of its cell, a move tile waits. Else it runs after
the arbiters its traffic passes. With no line of the module unreadable and the tile's inputs readable: MOVE
lands a region's lines, transposed where asked, in the scratchpad, or writes the scratchpad's bytes to the
region or towards another module, and a MOVE from another module asks for its lines and parks; a region its
clearing may not reach stops the plan with TIER_FOREIGN, as either end of a TIER_MOVE does; the bytes of a mask
record are those in effect (log entry 23); a write to another module stays open under its tag (log entry 28); a
write into blocks an open snapshot has not copied waits. TIER_MOVE, SIDE_SAVE, SIDE_LOAD and WEIGHT_READ carry
their bytes to the address their fields name, a WEIGHT_READ from the blocks of the unit's home, and is counted
among the unit's readers. PAGE_GATHER, from the page descriptors the warden fed, writes its pages and the count
of valid positions within its ranges; PAGE_APPEND writes one position after those held into the sequence's page,
which must be one it may append to, and otherwise nothing. TRIGGER_POST adds its amount to the trigger counter,
which holds at FFFFh. The slot is DONE and nothing else is written but regulators and beat counters. -/
def Obligations.MoveTilesCarryLines : Prop :=
  (∀ (g c : Nat) (o : RunEnv) (s : State), wfCell g c = true → s.power.mode ≠ .off →
    s.power.mode ≠ .run ∨ s.tileWaits g c = true →
    ∀ i ∈ ([.move g c o, .pageGather g c o, .pageAppend g c o, .weightRead g c o, .sideSave g c o, .sideLoad g c o,
      .tierMove g c o, .triggerPost g c o] : List Instr), exec i s = .next s) ∧
  ∀ (g c : Nat) (s : State), wfCell g c = true → s.power.mode = .run → s.tileWaits g c = false →
    let x := s.cell g c
    let slots (cls : TileClass) (st : SlotSt) (t : State) : Prop :=
      (t.cell g c).slots.map (fun q => (q.desc, q.st == st)) =
        x.slots.map fun q => (q.desc, (q.st == .running && inClass cls q.desc) || q.st == st)
    let rest (n : Nat) (t u : State) : Prop :=
      (∀ k, k ≠ g * 256 + c → look t.cells k = look s.cells k) ∧
      t.cell g c = { x with
        slots := (t.cell g c).slots, ring := (t.cell g c).ring, ctrs := (t.cell g c).ctrs,
        badWords := (t.cell g c).badWords, parked := (t.cell g c).parked, pageQ := (t.cell g c).pageQ,
        array := (t.cell g c).array } ∧
      (∀ g', { t.grove g' with multi := (s.grove g').multi, proving := (s.grove g').proving } = s.grove g') ∧
      (∀ k, k / 256 < 0x6040 ∨ k % 256 ≠ 0xB → k / 256 ∉ [0x6001 + g, 0x6024, 0x70000 + n * 16 + g] →
        look t.live k = look s.live k) ∧
      (∀ k, k ∉ eventKeys → k / 256 < 0x2460 ∨ 0x24E0 ≤ k / 256 → look t.dict k = look s.dict k) ∧
      t = { u with
        cells := t.cells, live := t.live, groves := t.groves, buckets := t.buckets, pools := t.pools,
        lastDraw := t.lastDraw, hub := t.hub, dict := t.dict }
    (∀ (q : TileSlot) (o : RunEnv), (s.runningSlots g c .move).head? = some q → q.desc.clearing < 64 →
      let k := q.desc.kind
      let p : RunEnv := { o with arb := [] }
      let u := s.arbitrateAll o.arb
      (k = 0xA0 → exec (.move g c o) s = exec (.move g c p) u) ∧
      (k = 0xA1 → exec (.pageGather g c o) s = exec (.pageGather g c p) u) ∧
      (k = 0xA2 → exec (.pageAppend g c o) s = exec (.pageAppend g c p) u) ∧
      (k = 0xA3 → exec (.weightRead g c o) s = exec (.weightRead g c p) u) ∧
      (k = 0xA4 → exec (.sideSave g c o) s = exec (.sideSave g c p) u) ∧
      (k = 0xA5 → exec (.sideLoad g c o) s = exec (.sideLoad g c p) u) ∧
      (k = 0xA6 → exec (.tierMove g c o) s = exec (.tierMove g c p) u)) ∧
    (∀ (q : TileSlot) (o : RunEnv), (s.runningSlots g c .move).head? = some q → o.found = .ok → o.arb = [] →
      s.anyBad = false → s.badInput g c [q.desc] = none → q.desc.clearing < 64 →
      let d := q.desc
      let n := d.clearing
      let ends (t u : State) : Prop := slots .move .done t ∧ rest n t u ∧ (t.cell g c).array = x.array ∧
        (d.kind = 0xA1 ∨ d.kind = 0xA2 ∨ (t.cell g c).pageQ = x.pageQ)
      let wrote (a : Nat) (b : List Byte) : State := { s with mem := Mem.writes s.mem a b }
      let m := d.fmtB % 64
      let home := regionAddr (mvTier d) m (64 * mvLine d)
      let near := mvModule d = s.ownModule
      let reach := s.mayReach n m (mvTier d) (64 * mvLine d) (64 * d.k) = true
      let foreign (i : Instr) : Prop := ∃ t : State, exec i s = .next t ∧
        (t.cell g c).slots = x.slots.filter (fun y => !(y.st == .running && inClass .move y.desc)) ∧
        (∀ k, k ≠ g * 256 + c → look t.cells k = look s.cells k) ∧
        (∀ e, { t.clr e with stopped := (s.clr e).stopped } = s.clr e) ∧
        (∀ g', { t.grove g' with multi := (s.grove g').multi } = s.grove g') ∧
        s.posts t .planStopped n .tierForeign ∧ g ∈ (t.clr n).stopped ∧ s.sameEntriesBut t eventKeys ∧
        t = { s with
          cells := t.cells, clearings := t.clearings, hub := t.hub, dict := t.dict, live := t.live, groves := t.groves }
      let open_ := mvTier d = 1 ∧ s.uncopied m (64 * mvLine d) (64 * d.k) ≠ []
      (d.kind = 0xA0 → near → reach → mvOut d = false → ∃ t : State, exec (.move g c o) s = .next t ∧
        let b := if mvTier d = 1 then s.peekMasked m (64 * mvLine d) (64 * d.k) else s.peek home (64 * d.k)
        let b1 := if mvTrans d then transposed (if d.fmtA = 0 then 4 else 2) b else b
        ends t (wrote (s.scrAddr g c d.outAddr) b1)) ∧
      (d.kind = 0xA0 → near → reach → mvOut d = true → ¬open_ → ∃ t : State, exec (.move g c o) s = .next t ∧
        ends t (wrote home (s.scr g c d.aAddr (64 * d.k)))) ∧
      (d.kind = 0xA0 → near → reach → mvOut d = true → open_ → ∃ t : State, exec (.move g c o) s = .next t ∧
        t.mem = s.mem ∧ t.poison = s.poison ∧ (∀ k, k ≠ g * 256 + c → look t.cells k = look s.cells k) ∧
        (t.cell g c).slots.map (fun y => (y.desc, y.st)) = x.slots.map fun y => (y.desc, y.st)) ∧
      (d.kind = 0xA0 → near → ¬reach → foreign (.move g c o)) ∧
      (d.kind = 0xA6 → s.tierMay d = false → foreign (.tierMove g c o)) ∧
      (d.kind = 0xA0 → ¬near → mvOut d = true → ∃ t : State, exec (.move g c o) s = .next t ∧
        let sent : Remote := {
          tag := s.nextTag, grove := g, cell := c, clearing := n, tileId := d.tileId, issued := s.time, lines := 0,
          got := [], landing := 0, write := true }
        s.sends t [.lines (mvModule d) m (mvTier d) (64 * mvLine d) (s.scr g c d.aAddr (64 * d.k)) s.nextTag] ∧
        ends t { s with
          remotes := s.remotes ++ [sent], nextTag := (s.nextTag + 1) % 65536, outbox := t.outbox, ports := t.ports }) ∧
      (d.kind = 0xA0 → ¬near → mvOut d = false → ∃ t : State, exec (.move g c o) s = .next t ∧
        let ask : Remote := {
          tag := s.nextTag, grove := g, cell := c, clearing := n, tileId := d.tileId, issued := s.time,
          lines := d.k, got := [], landing := d.outAddr }
        s.sends t [.readReq s.nextTag (mvModule d) m (mvTier d) (64 * mvLine d) d.k] ∧ slots .move .parked t ∧
        rest n t { s with
          remotes := s.remotes ++ [ask], nextTag := (s.nextTag + 1) % 65536, outbox := t.outbox, ports := t.ports }) ∧
      (d.kind = 0xA3 → ∃ t : State, exec (.weightRead g c o) s = .next t ∧
        let w := wrote (s.scrAddr g c d.outAddr) (s.readImage n (s.unit n (wrUnit d)).home (64 * wrLine d) (64 * d.k))
        ends t { w with clearings := t.clearings } ∧
        (∀ m, t.clr m = { s.clr m with turn := { s.turn m with reads := (t.turn m).reads } }) ∧
        ((s.clr n).inStep = true →
          look (t.turn n).reads (wrUnit d) = some ((look (s.turn n).reads (wrUnit d)).getD 0 + 1))) ∧
      (d.kind = 0xA4 → s.uncopied n (64 * mvLine d) 4096 = [] → ∃ t : State, exec (.sideSave g c o) s = .next t ∧
        let a := regionAddr 1 n (64 * mvLine d)
        ends t (wrote a (s.peek (s.sideAddr g c (4096 * sdGranule d)) 4096))) ∧
      (d.kind = 0xA5 → ∃ t : State, exec (.sideLoad g c o) s = .next t ∧
        ends t (wrote (s.sideAddr g c (4096 * sdGranule d))
          (s.peek (regionAddr 1 n (64 * mvLine d)) 4096))) ∧
      (d.kind = 0xA6 → s.tierMay d = true →
        ¬((tmDst d).2.1 = 1 ∧ s.uncopied (tmDst d).1 (64 * (tmDst d).2.2) (64 * d.k) ≠ []) →
        ∃ t : State, exec (.tierMove g c o) s = .next t ∧
        let a := regionAddr (tmDst d).2.1 (tmDst d).1 (64 * (tmDst d).2.2)
        ends t (wrote a
          (s.peek (regionAddr (tmSrc d).2.1 (tmSrc d).1 (64 * (tmSrc d).2.2)) (64 * d.k)))) ∧
      (let fed := (s.walk d (gatherRange d)).map fun q => readPage q.bytes
       d.kind = 0xA1 → (∀ p ∈ fed, s.descHere n p = true) → s.memoryWf →
        ∃ t : State, exec (.pageGather g c o) s = .next t ∧ ends t { s with mem := t.mem } ∧
        (t.cell g c).pageQ = [] ∧
        Mem.reads t.mem (s.scrAddr g c d.auxAddr) 4 = leBytes 4 ((fed.map (·.fill)).foldl (· + ·) 0) ∧
        t.mem = ((s.feedPages g c (s.walk d (gatherRange d))).landGather g c d []).mem ∧
        ∀ b, (∀ w ∈ (s.ranges g c d).2.1, b < s.scrAddr g c w.1 ∨ s.scrAddr g c w.1 + w.2 ≤ b) →
          Mem.read t.mem b = Mem.read s.mem b) ∧
      (d.kind = 0xA2 → s.stepSeq n (pgSeq d) = none → ∃ t : State, exec (.pageAppend g c o) s = .next t ∧ ends t s) ∧
      (∀ (y : Seqn) (part : Nat) (p : PageDesc), d.kind = 0xA2 → pgParts d = [part] → pgCount d = 1 →
        s.stepSeq n (pgSeq d) = some y →
        let fed := (s.walk d [y.pos / 256, 1 + y.pos / 256]).map fun q => readPage q.bytes
        let key := 2 * s.sliceNo d + part
        let pos := y.pos + (look y.appended key).getD 0
        let w := s.kvBytes n
        let off := s.sliceOff n p.page (s.sliceNo d) (s.partOff n part + pos % 256 * w)
        let u := s.setSeq n { y with appended := ins y.appended key ((look y.appended key).getD 0 + 1) }
        (fed.find? fun q => q.posPage == pos / 256) = some p → s.descHere n p = true →
        (s.mayAppend n y (s.descPage n p) pos = true → s.uncopied n off w = [] →
          ∃ t : State, exec (.pageAppend g c o) s = .next t ∧ ends t { u with mem := t.mem } ∧
          (s.sliceNo d ≠ 0 → t.mem = Mem.writes s.mem (regionAddr 1 n off)
            (s.scr g c (if part = 0 then d.aAddr else d.bAddr) w))) ∧
        (s.mayAppend n y (s.descPage n p) pos = false →
          ∃ t : State, exec (.pageAppend g c o) s = .next t ∧ ends t u))) ∧
    (∀ (d : TileDesc) (o : RunEnv), ((s.runningSlots g c .compute).map (·.desc)).head? = some d → d.kind = 0x50 →
      d.clearing < 64 → o.found = .ok → o.arb = [] →
      s.badInput g c ((s.runningSlots g c .compute).map (·.desc)) = none →
      let die := bitsOf d.args 11 10
      let k := bitsOf d.args 9 0
      (∀ q ∈ (s.linkDie die).slots, q.2.desc.trig ≠ k ∧ s.trigOf die q.2.desc.trig < q.2.desc.threshold) →
      ∃ t : State, exec (.triggerPost g c o) s = .next t ∧ slots .compute .done t ∧
      rest d.clearing t { s with linkDies := t.linkDies, clearings := t.clearings } ∧
      (∀ m, t.clr m = s.clr m) ∧ (∀ e, e ≠ die → t.linkDie e = s.linkDie e) ∧
      (∀ j, j ≠ k → t.trigOf die j = s.trigOf die j) ∧ (t.linkDie die).slots = (s.linkDie die).slots ∧
      ((s.takeTrig die d.clearing k).isSome = true →
        t.trigOf die k = min (s.trigOf die k + bitsOf d.args 27 12) 0xFFFF) ∧
      ((s.takeTrig die d.clearing k).isNone = true → t.linkDies = s.linkDies))

/-- COUNTER_SIGNAL of one of the 16 counters that the clearing holds on the cell, as its plan numbers them,
raises it by one and makes READY the LOADED tiles whose wait it meets, or raises it in the context of a clearing
parked there; on reaching FFFFh it posts COUNTER_SATURATED, and holds there; a counter that the clearing does
not hold there posts SIGNAL_FOREIGN (log entry 29). REMOTE_REPLY lands a line in the scratchpad, or in the spill
slot of a clearing parked off the cell, and its last line makes the parked slot DONE; a refusal stops the plan
with REMOTE_FOREIGN; a reply after the time limit is discarded; cellar lines that the target lost make the slot
READY once more, or stop the plan with LOST. A write that is still open takes no reply but a refusal, and its
timeout only closes it. REMOTE_TIMEOUT counts, and makes the slot READY once more, or stops the plan the second
time, or ends only the sequence of a gather or a MOVE that names one. A flit with a reserved field set is
refused whole. A READ the target may serve is answered with its bytes, positions of a page at or beyond FILL as
zeros, or, when a line is lost, with the lost lines of a cellar, or not at all; a WRITE stores its bytes at the
address named, of a page only where it may be appended to; a request that may not reach its target posts
REMOTE_FOREIGN, writes nothing, and is answered with a refusal. -/
def Obligations.SignalsAndRemoteRequests : Prop :=
  ∀ s : State, s.power.mode ≠ .off →
    let regs (t : State) : Prop :=
      ∀ k, k ∉ eventKeys → k / 256 < 0x2460 ∨ 0x24E0 ≤ k / 256 → look t.dict k = look s.dict k
    (∀ g c ctr src, wfCell g c = true → src < 64 →
      let x := s.cell g c
      (16 ≤ ctr → exec (.counterSignal g c ctr src) s = .next s) ∧
      (ctr < 16 → s.hasCtr src g c ctr = false → ∃ t : State, exec (.counterSignal g c ctr src) s = .next t ∧
        s.posts t .signalForeign src .ok ∧ s.sameEntriesBut t eventKeys ∧ t = { s with hub := t.hub, dict := t.dict }) ∧
      (∀ k, ctr < 16 → ctrIndex x.ctrs src ctr = some k → (x.ctrs[k]?.map (·.1)) = some src) ∧
      (∀ k, ctr < 16 → ctrIndex x.ctrs src ctr = some k → x.ctrs[k]? = some (src, 0xFFFF) →
        exec (.counterSignal g c ctr src) s = .next s) ∧
      (ctr < 16 → ctrIndex x.ctrs src ctr = none → s.hasCtr src g c ctr = true → ∃ t : State,
        exec (.counterSignal g c ctr src) s = .next t ∧
        (t.cell g c).parked.map (fun p => ctrIn p.ctrs src ctr) = x.parked.map (fun p =>
          if (ctrIndex p.ctrs src ctr).isSome then min (ctrIn p.ctrs src ctr + 1) 0xFFFF else 0) ∧
        t.cell g c = { x with parked := (t.cell g c).parked } ∧
        (∀ k, k ≠ g * 256 + c → look t.cells k = look s.cells k) ∧
        ((∃ p ∈ x.parked, ctrIn p.ctrs src ctr = 0xFFFE) → s.posts t .counterSaturated src .ok) ∧
        ((∀ p ∈ x.parked, ctrIn p.ctrs src ctr ≠ 0xFFFE) → t.hub = s.hub ∧ t.dict = s.dict) ∧
        s.sameEntriesBut t eventKeys ∧
        t = { s with cells := t.cells, live := t.live, hub := t.hub, dict := t.dict }) ∧
      (∀ k v, ctr < 16 → ctrIndex x.ctrs src ctr = some k → x.ctrs[k]? = some (src, v) → v ≠ 0xFFFF → ∃ t : State,
        exec (.counterSignal g c ctr src) s = .next t ∧
        let y : Cell := { x with ctrs := x.ctrs.set k (src, v + 1) }
        let u := s.setCell g c y
        (t.cell g c).slots.map (fun q => (q.desc, q.st)) = x.slots.map (fun q =>
          (q.desc, if q.st == .loaded && u.waitMet g c q.desc then .ready else q.st)) ∧
        t.cell g c = { y with slots := (t.cell g c).slots } ∧
        (∀ k, k ≠ g * 256 + c → look t.cells k = look s.cells k) ∧
        (v + 1 = 0xFFFF → s.posts t .counterSaturated src .ok) ∧ (v + 1 ≠ 0xFFFF → t.hub = s.hub ∧ t.dict = s.dict) ∧
        s.sameEntriesBut t eventKeys ∧
        t = { s with cells := t.cells, live := t.live, hub := t.hub, dict := t.dict })) ∧
    (∀ tag lines foreign, s.remoteOf tag = none →
      exec (.remoteReply tag lines foreign) s = .next s ∧ exec (.remoteTimeout tag) s = .next s) ∧
    (∀ (tag : Nat) (r : Remote) (q : TileSlot), s.remoteOf tag = some r → r.write = false → r.grove < 16 → r.cell < 256 →
      r.clearing < 64 →
      (s.cell r.grove r.cell).slots.find? (isAsker r) = some q →
      let x := s.cell r.grove r.cell
      let at_ := r.grove * 256 + r.cell
      let gone := s.remotes.filter fun w =>
        !(w.grove == r.grove && w.cell == r.cell && w.clearing == r.clearing && w.tileId == r.tileId)
      let others (t : State) : Prop := ∀ k, k ≠ at_ → look t.cells k = look s.cells k
      let doneNow (t : State) : Prop := (t.cell r.grove r.cell).slots.map (fun y => (y.desc, y.st == .done)) =
        x.slots.map fun y => (y.desc, isAsker r y || y.st == .done)
      let lands (off : Nat) : Nat := if s.spilled r.clearing r.grove r.cell then s.spillAddr r.clearing r.grove r.cell off
        else s.scrAddr r.grove r.cell off
      let late := r.issued + s.rd 0x6000 4 * 1000 ≤ s.time
      let stops (t : State) (why : Name) : Prop :=
        (t.cell r.grove r.cell).slots = x.slots.filter (fun y => !isAsker r y) ∧ t.remotes = gone ∧
        s.posts t .planStopped r.clearing why ∧ r.grove ∈ (t.clr r.clearing).stopped ∧
        others t ∧ s.sameEntriesBut t eventKeys ∧
        t = { s with
          cells := t.cells, clearings := t.clearings, remotes := t.remotes, live := t.live, hub := t.hub, dict := t.dict }
      (late → ∀ lines foreign, exec (.remoteReply tag lines foreign) s = .next s) ∧
      (¬late → ∀ lines, ∃ t : State, exec (.remoteReply tag lines true) s = .next t ∧ stops t .remoteForeign ∧
        t.live = s.live) ∧
      (∀ (i : Nat) (data : List Byte), ¬late → i < r.lines → i ∉ r.got → data.length = 64 → q.desc.kind ≠ 0xA1 →
        ∃ t : State, exec (.remoteReply tag [(i, data)] false) s = .next t ∧
        t.mem = Mem.writes s.mem (lands (r.landing + 64 * i)) data ∧
        (r.got.length + 1 < r.lines → (t.cell r.grove r.cell).slots = x.slots ∧ t.remotes = s.remotes.map fun w =>
          if w.tag == tag then { w with got := r.got ++ [i] } else w) ∧
        (r.lines ≤ r.got.length + 1 → t.remotes = s.remotes.filter (fun w => w.tag != tag) ∧
          (s.remotes.filter (fun w => !w.write && w.grove == r.grove && w.cell == r.cell && w.clearing == r.clearing &&
            w.tileId == r.tileId && w.tag != tag) = [] → doneNow t)) ∧
        others t ∧ regs t ∧
        t = { s with
          mem := t.mem, cells := t.cells, remotes := t.remotes, buckets := t.buckets, pools := t.pools,
          lastDraw := t.lastDraw, live := t.live, hub := t.hub, dict := t.dict }) ∧
      (∀ lines lost, ¬late → lost ≠ [] → mvSeq q.desc = none → ∃ t : State,
        exec (.remoteReply tag lines false lost) s = .next t ∧
        (q.tries = 0 → (t.cell r.grove r.cell).slots = x.slots.map (fun y =>
            if isAsker r y then { y with st := .ready, tries := 1 } else y) ∧ others t ∧ t.remotes = gone ∧
          t = { s with cells := t.cells, remotes := t.remotes }) ∧
        (q.tries ≠ 0 → stops t .lost ∧ t.live = s.live)) ∧
      (¬late → exec (.remoteTimeout tag) s = .next s) ∧
      (late → ∃ t : State, exec (.remoteTimeout tag) s = .next t ∧ t.remotes = gone ∧
        t.liveOf 0x6025 r.clearing = min (s.liveOf 0x6025 r.clearing + 1) (2 ^ 64 - 1) ∧
        (∀ k, k ≠ keyOf 0x6025 r.clearing → k / 256 < 0x6040 ∨ k % 256 ≠ 0xB → look t.live k = look s.live k) ∧
        (q.desc.kind ≠ 0xA1 → mvSeq q.desc = none → q.tries = 0 →
          (t.cell r.grove r.cell).slots = x.slots.map (fun y =>
            if isAsker r y then { y with st := .ready, tries := 1 } else y) ∧ others t ∧
          t = { s with cells := t.cells, remotes := t.remotes, live := t.live }) ∧
        (q.desc.kind ≠ 0xA1 → mvSeq q.desc = none → q.tries ≠ 0 → stops t .remoteTimeout) ∧
        (∀ slot code, q.desc.kind = 0xA1 ∧ slot = pgSeq q.desc ∧ code = 0x11 ∨
            q.desc.kind ≠ 0xA1 ∧ mvSeq q.desc = some slot ∧ code = 0x15 →
          doneNow t ∧ t.clearings = (s.faultSeq r.clearing slot code).clearings ∧ others t ∧
          s.sameEntriesBut t eventKeys ∧
          t = { s with
            cells := t.cells, clearings := t.clearings, remotes := t.remotes, live := t.live, hub := t.hub,
            dict := t.dict }))) ∧
    (∀ (tag : Nat) (r : Remote) (lines : List (Nat × List Byte)), s.remoteOf tag = some r → r.write = true →
      let late := r.issued + s.rd 0x6000 4 * 1000 ≤ s.time
      (∀ lost, exec (.remoteReply tag lines false lost) s = .next s) ∧
      (¬late → exec (.remoteTimeout tag) s = .next s) ∧
      (late → exec (.remoteTimeout tag) s = .next { s with remotes := s.remotes.filter fun w => w.tag != tag })) ∧
    (∀ (tag : Nat) (r : Remote) (lines : List (Nat × List Byte)), s.remoteOf tag = some r → r.write = false → r.grove = 16 →
      let dropped : State := { s with remotes := s.remotes.filter fun w => w.tag != tag }
      let late := r.issued + s.rd 0x6000 4 * 1000 ≤ s.time
      (¬late → exec (.remoteReply tag lines true) s = .next dropped ∧ exec (.remoteTimeout tag) s = .next s) ∧
      (late → exec (.remoteReply tag lines true) s = .next s ∧ exec (.remoteTimeout tag) s =
        .next { dropped with live := (s.bumpLive 0x6025 r.clearing 1).live })) ∧
    (∀ (f : Flit) (asker : Nat), wfModule f.src = true → wfClearing f.clearing = true → wfClearing asker = true →
      let n := f.clearing
      let len := 64 * f.lines
      let tier := locTier f.target
      let a := if tier = 3 then regionAddr 1 n (s.nameOff n f.target)
        else if tier = 0 then s.cellHome n (locGrove f.target) (locCell f.target) (locOff f.target)
        else regionAddr tier n (locOff f.target)
      let data := slice f.payload 0 len
      (f.reserved = true → exec (.remoteReadServe f asker) s = .next (s.emit (.status .reservedSet)) ∧
        exec (.remoteWriteServe f asker) s = .next (s.emit (.status .reservedSet))) ∧
      (f.reserved = false → s.mayServe f len = false →
        (∃ t : State, exec (.remoteReadServe f asker) s = .next t ∧ s.posts t .remoteForeign 0xFF .ok ∧
          (∃ e, t.hub.evLog.head? = some e ∧ e.detail = words [f.src, asker]) ∧
          s.sends t [.reply f.src f.tag f.lineIdx true []] ∧ s.sameEntriesBut t eventKeys ∧
          exec (.remoteWriteServe f asker) s = .next t ∧
          t = { s with hub := t.hub, dict := t.dict, outbox := t.outbox, ports := t.ports })) ∧
      (f.reserved = false → s.mayServe f len = true → s.serveBad f = [] → ∃ t : State,
        exec (.remoteReadServe f asker) s = .next t ∧
        (let held := if tier = 3 then min len (s.servedLen n f.target) else len
         s.sends t [.reply f.src f.tag f.lineIdx false (slice (s.peek a held) 0 len)]) ∧ regs t ∧
        t = { s with
          buckets := t.buckets, pools := t.pools, lastDraw := t.lastDraw, dict := t.dict, outbox := t.outbox,
          ports := t.ports }) ∧
      (f.reserved = false → s.mayServe f len = true → s.serveBad f ≠ [] → ∃ t : State,
        exec (.remoteReadServe f asker) s = .next t ∧
        (tier = 1 → t.outbox = s.outbox ∧ t.mem = s.mem ∧
          t.rd (0x4040 + n) 0xC = min (s.rd (0x4040 + n) 0xC + (s.serveBad f).length) (2 ^ 64 - 1) ∧
          ∃ e, t.hub.evLog.head? = some e ∧ e.name = .memoryLost ∧ e.clearing = n) ∧
        (tier = 2 → .lostLines f.src f.tag ((s.serveBad f).map (f.lineIdx + ·)) ∈ t.outbox) ∧
        (tier = 3 → t.outbox = s.outbox ∧ t.mem = s.mem ∧
          ∀ y ∈ (t.vat n).seqs, (∃ p ∈ y.pages, p.2 = s.namePage n f.target) → 0x11 ∈ y.fault)) ∧
      (f.reserved = false → s.mayServe f len = true → tier ≠ 3 →
        tier ≠ 1 ∨ s.uncopied n (locOff f.target) len = [] →
        ∃ t : State, exec (.remoteWriteServe f asker) s = .next t ∧
        t.mem = Mem.writes s.mem a data ∧ (tier ≠ 0 → t.poison = (s.healLines a len).poison) ∧
        (∀ k, k ≠ locGrove f.target * 256 + locCell f.target → look t.cells k = look s.cells k) ∧ regs t ∧
        (tier ≠ 1 → t.clearings = s.clearings) ∧
        t = { s with
          mem := t.mem, poison := t.poison, cells := t.cells, buckets := t.buckets, pools := t.pools,
          lastDraw := t.lastDraw, clearings := t.clearings, dict := t.dict }) ∧
      (f.reserved = false → s.mayServe f len = true → tier = 3 → s.uncopied n (s.nameOff n f.target) len = [] →
        ∃ t : State, exec (.remoteWriteServe f asker) s = .next t ∧
        let r := s.page n (s.namePage n f.target)
        let at_ := bitsOf f.target 17 0 % (256 * s.kvBytes n)
        t.mem = (if r.st = 1 ∧ r.fill < 256 ∧ r.fill * s.kvBytes n ≤ at_ ∧ at_ + len ≤ 256 * s.kvBytes n then
          Mem.writes s.mem a data else s.mem) ∧ t.cells = s.cells ∧ t.clearings = s.clearings ∧ regs t) ∧
      (f.reserved = false → s.mayServe f len = true → tier = 1 → s.uncopied n (locOff f.target) len ≠ [] →
        ∃ t : State, exec (.remoteWriteServe f asker) s = .next t ∧ t.mem = s.mem ∧ t.poison = s.poison ∧
        t.cells = s.cells))

/-- LOCK_OVERRUN of an input that overran no lock changes nothing; else it ends the lock at its 16th beat and
counts it, unless the arbiter did so already, and retires a bank port's cell or makes its waiting replacement
urgent, elsewhere posts HW_FAULT, and DIE_FAULT at the third of an arbiter in 24 h. CELLAR_LATE counts the line
of a read that is late and faults only the sequence it serves; the MOVE completes with the line as +0.
CELLAR_GROUP_FAILED marks the group, posts once, and no paused image stays in it. SPARE_IN carries out the
replacement in progress, once the cell no longer runs a tile unless it is urgent: the nearest healthy unused
spare takes the content and the map entries, and falls under the ageing policy if its margin is below the
threshold, or a failing spare is retired, or without spares a host serves the logical cells. UNDERSTORY_SEGMENT,
where no tile is READY or RUNNING on the cell, counts a pass and its corrected words, loses a word that failed
its code, repeats a failed pass once and then retires the cell, and takes a margin by the ageing policy;
TEST_OVERDUE is posted once; REMARGIN raises the supply's floor, then lowers the floor rate, then retires.
MULTIPLEX_SWITCH spills one logical cell and loads the next. -/
def Obligations.CellsAreReplacedTestedAndShared : Prop :=
  ∀ s : State, s.power.mode ≠ .off →
    let top := 2 ^ 64 - 1
    let stops (t : State) : Prop := ∀ m, { t.clr m with stopped := (s.clr m).stopped } = s.clr m
    let others (g : Nat) (t : State) : Prop := ∀ k, k ≠ g → look t.groves k = look s.groves k
    let stands (g : Nat) : Prop := 129 ≤ s.rd (0x9010 + g) 1 ∨ (s.grove g).failed = true
    let retires (g p : Nat) (t : State) : Prop :=
      (t.grove g).retired = p :: (s.grove g).retired ∧ t.rd (0x9010 + g) 1 = s.rd (0x9010 + g) 1 - 1 ∧
      t.rd (0x9010 + g) 5 = s.rd (0x9010 + g) 5 + 1 ∧
      (s.servedBy g p = [] → (t.grove g).busy = (s.grove g).busy ∧
        (isSpare p = true → t.rd (0x9010 + g) 2 = s.rd (0x9010 + g) 2 - 1)) ∧
      (∀ c l, s.servedBy g p = c :: l → (s.grove g).busy = none → ∃ u, (t.grove g).busy = some ⟨p, c, u⟩) ∧
      others g t ∧ stops t ∧ t.mem = s.mem ∧ t.cells = s.cells ∧ t.power = s.power ∧
      t.otp = { s.otp with retired := t.otp.retired }
    (∀ group unit input, wfArb group unit input = true →
      let x := s.arb group unit
      let told := x.overran.contains input = true
      let count := if told then s.rd group 0x41 else min (s.rd group 0x41 + 1) top
      (¬told → x.lock ≠ some input → exec (.lockOverrun group unit input) s = .next s) ∧
      (told ∨ x.lock = some input → ∃ t : State, exec (.lockOverrun group unit input) s = .next t ∧
      t.rd group 0x41 = count ∧
      (group ≤ 0x611F → s.healthy (group - 0x6110) (unit / 16) = true → retires (group - 0x6110) (unit / 16) t) ∧
      (told → t.arb group unit = { x with overran := x.overran.erase input }) ∧
      (¬told → let y := t.arb group unit
        y.lock = none ∧ x.lockAt + 16 ≤ y.beat ∧ y.asks.map (·.input) = x.asks.map (·.input) ∧
        (∀ q ∈ y.asks, q.input = input → q.since = y.beat) ∧
        y = { x with lock := none, beat := max x.beat (x.lockAt + 16), asks := y.asks }) ∧
      (∀ k, k ≠ group * 65536 + unit → look t.arbs k = look s.arbs k) ∧
      (group ≤ 0x611F → s.healthy (group - 0x6110) (unit / 16) = false → t = { s with
          dict := t.dict, arbs := t.arbs, groves := (s.hasten (group - 0x6110) (unit / 16)).groves } ∧
        s.sameEntriesBut t [keyOf group 0x41]) ∧
      (0x611F < group →
        let l := ((look s.overruns (group * 65536 + unit)).getD []).filter fun at_ => s.time - at_ < day
        t.overruns = ins s.overruns (group * 65536 + unit) (l ++ [s.time]) ∧
        (l.length < 2 → s.posts t .hwFault 0xFF .ok) ∧
        (2 ≤ l.length → t.hub.evLog.head?.map (·.name) = some .dieFault ∧ t.hub.seq = (s.hub.seq + 2) % 2 ^ 32) ∧
        s.sameEntriesBut t (keyOf group 0x41 :: eventKeys) ∧
        t = { s with dict := t.dict, arbs := t.arbs, overruns := t.overruns, hub := t.hub }))) ∧
    (∀ n slot line, n < 64 →
      let resumed := (s.clr n).inStep = true ∧ (s.clr n).stepAt + 1000 * s.rd 0x4C00 1 ≤ s.time ∧
        ∃ x ∈ (s.vat n).seqs, x.slot = slot ∧ x.active = true ∧ x.req.resumeTag ≠ 0
      let faulted (t : State) : Prop := (t.vat n).seqs = (s.vat n).seqs.map (fun x =>
          if x.slot == slot && x.active then { x with fault := x.fault ++ [0x13] } else x) ∧
        (∀ m, { t.clr m with vat := { (t.clr m).vat with seqs := (s.clr m).vat.seqs } } = s.clr m) ∧
        ∀ m, m ≠ n → t.clr m = s.clr m
      (s.exists? n = false ∨ (s.lateRead n slot = none ∧ ¬resumed) → exec (.cellarLate n slot line) s = .next s) ∧
      (s.exists? n = true → s.lateRead n slot = none → resumed → ∃ t : State, exec (.cellarLate n slot line) s = .next t ∧
        t.rd (0x4040 + n) 0xA = min (s.rd (0x4040 + n) 0xA + 1) top ∧ faulted t ∧
        s.sameEntriesBut t [keyOf (0x4040 + n) 0xA] ∧ t = { s with dict := t.dict, clearings := t.clearings }) ∧
      (∀ g c d, s.exists? n = true → s.lateRead n slot = some (g, c, d) →
        let m := d.desc.fmtB % 64
        (d.desc.k ≤ line → exec (.cellarLate n slot line) s = .next s) ∧
        (line < d.desc.k → ∃ t : State, exec (.cellarLate n slot line) s = .next t ∧
          t.rd (0x4040 + m) 0xA = min (s.rd (0x4040 + m) 0xA + 1) top ∧ t.rd (0x4040 + m) 0xB = s.rd (0x4040 + m) 0xB ∧
          faulted t ∧ t.mem = (s.landMove g c d.desc [line]).mem ∧
          (∀ q ∈ (t.cell g c).slots, q.st = .running → inClass .move q.desc = false) ∧
          t = { s with
            cells := t.cells, clearings := t.clearings, dict := t.dict, live := t.live, groves := t.groves, hub := t.hub,
            mem := t.mem, buckets := t.buckets, pools := t.pools, lastDraw := t.lastDraw }))) ∧
    (∀ k, k < 4 → (s.groupFailed k = true → exec (.cellarGroupFailed k) s = .next s) ∧
      (s.groupFailed k = false → ∃ t : State, exec (.cellarGroupFailed k) s = .next t ∧ t.groupFailed k = true ∧
        (∀ n ∈ s.present, ∀ p ∈ (t.vat n).paused, (imageGroups p).contains k = false ∧ p ∈ (s.vat n).paused) ∧
        ((∀ n ∈ s.present, ∀ p ∈ (s.vat n).paused, (imageGroups p).contains k = false) →
          s.posts t .cellarGroupFailed 0xFF .ok ∧ s.sameEntriesBut t (keyOf 0x4C01 (k + 1) :: eventKeys) ∧
          t = { s with dict := t.dict, hub := t.hub }))) ∧
    (∀ g ok, g < 16 → ((s.grove g).busy = none → exec (.spareIn g ok) s = .next s) ∧
      (∀ r, (s.grove g).busy = some r →
        let free := s.cellRuns g r.logical = false ∨ r.urgent = true
        (¬free → exec (.spareIn g ok) s = .next s) ∧
        (∀ q, free → s.chooseSpare g (s.hopOrigin g r.phys) = some q → ∃ t : State, exec (.spareIn g ok) s = .next t ∧
          (ok = true → s.frc 0x1130 1 = 0 ∨ (∀ m, look (s.grove g).margins q = some m → s.marginBound ≤ m) →
            (∀ c, c < 256 → t.physOf g c = if s.physOf g c = r.phys then q else s.physOf g c) ∧
            t.mem = (s.moveMem (cellAddr g r.phys 0) 0x110000 (cellAddr g q 0)).mem ∧
            t.rd (0x9010 + g) 2 = s.rd (0x9010 + g) 2 - 1 ∧ (t.grove g).busy = (s.grove g).queue.head? ∧
            (t.grove g).queue = (s.grove g).queue.tail ∧ t.hub.evLog.head?.map (·.name) = some .spareInDone ∧
            t.hub.seq = (s.hub.seq + 2) % 2 ^ 32 ∧ others g t ∧
            s.sameEntriesBut t ([keyOf (0x9010 + g) 2, keyOf 0x1131 (g + 1)] ++ eventKeys) ∧
            t = { s with mem := t.mem, poison := t.poison, groves := t.groves, dict := t.dict, hub := t.hub }) ∧
          (∀ m, ok = true → look (s.grove g).margins q = some m → m < s.marginBound → s.servedBy g r.phys ≠ [] →
            (s.frc 0x1130 1 = 1 → q ∈ (t.grove g).retired) ∧ (s.frc 0x1130 1 = 2 → (t.grove g).remargining = true)) ∧
          (ok = false → retires g q t)) ∧
        (free → s.chooseSpare g (s.hopOrigin g r.phys) = none → s.chooseHost g r.phys = none →
          exec (.spareIn g ok) s = .next s) ∧
        (∀ h, free → s.chooseSpare g (s.hopOrigin g r.phys) = none → s.chooseHost g r.phys = some h →
          ∃ t : State, exec (.spareIn g ok) s = .next t ∧
          (∀ c, c < 256 → t.physOf g c = if s.physOf g c = r.phys then h else s.physOf g c) ∧
          (∀ c ∈ s.servedBy g r.phys, (look (t.grove g).multi c).isSome = true) ∧
          (s.servedBy g r.phys ≠ [] → t.rd (0x9010 + g) 3 = (t.grove g).multi.length) ∧
          (t.grove g).busy = (s.grove g).queue.head? ∧ t.hub.evLog.head?.map (·.name) = some .cellRetired ∧
          others g t ∧ (s.memoryWf → ∀ b, b < 3 * 2 ^ 60 → Mem.read t.mem b = Mem.read s.mem b) ∧
          s.sameEntriesBut t (keyOf (0x9010 + g) 3 :: eventKeys) ∧
          t = { s with mem := t.mem, groves := t.groves, dict := t.dict, hub := t.hub }))) ∧
    (∀ g p, wfPhys g p = true →
      let x := s.grove g
      let due := s.healthy g p = true ∧ p ∉ x.overdue ∧
        s.rd 0x9000 2 ≤ (s.time - (look x.lastTest p).getD 0) / 1000000000
      let idle := ∀ c ∈ s.servedBy g p, ∀ q ∈ (s.cell g c).slots, q.st ≠ .running ∧ q.st ≠ .ready
      let first := x.fails = [] ∨ (look x.fails p).isSome = true
      (¬due → exec (.testOverdue g p) s = .next s) ∧
      (due → ∃ t : State, exec (.testOverdue g p) s = .next t ∧ s.posts t .testOverdue 0xFF .ok ∧
        t.grove g = { x with overdue := p :: x.overdue } ∧ others g t ∧ s.sameEntriesBut t eventKeys ∧
        t = { s with groves := t.groves, hub := t.hub, dict := t.dict }) ∧
      (∀ o, s.rd 0x9000 1 ≠ 1 ∨ s.serving = false ∨ s.healthy g p = false ∨ ¬first ∨ ¬idle →
        exec (.understorySegment g p o) s = .next s) ∧
      (s.rd 0x9000 1 = 1 → s.serving = true → s.healthy g p = true →
        idle → first →
        ((look x.segments p).isSome = true ∨ ∃ q, q < 272 ∧ s.healthy g q = true ∧
          s.rd 0x9000 2 / 4 < (s.time - (look x.lastTest q).getD 0) / 1000000000) →
        let seg := (look x.segments p).getD 0 + 1
        let failed := (look x.fails p).getD 0 + 1
        exec (.understorySegment g p .abandoned) s = .next s ∧
        (∀ fixed, seg < 2048 → exec (.understorySegment g p (.done fixed [])) s =
          .next ((s.bump (0x9010 + g) 6 fixed).setGrove g { x with segments := ins x.segments p seg })) ∧
        (∀ fixed, 2048 ≤ seg → ∃ t : State, exec (.understorySegment g p (.done fixed [])) s = .next t ∧
          t.dict = (s.bump (0x9010 + g) 6 fixed).dict ∧ look (t.grove g).lastTest p = some s.time ∧ p ∉ (t.grove g).overdue ∧
          (t.grove g).segments = del x.segments p ∧ (t.grove g).fails = del x.fails p ∧ others g t ∧
          t = { s with groves := t.groves, dict := t.dict }) ∧
        (∀ fixed c off n, c < 256 → off < 0x110000 → s.physOf g c = p → s.spilledOut g c = false →
          s.granuleOwner g c (off / 8 * 8) = some n → ∃ t : State,
          exec (.understorySegment g p (.done fixed [(c, off)])) s = .next t ∧
          t.rd (0x9010 + g) 7 = min (s.rd (0x9010 + g) 7 + 1) top ∧ off / 8 * 8 ∈ (t.cell g c).badWords ∧
          g ∈ (t.clr n).stopped ∧ stops t ∧ others g t ∧ t.mem = s.mem ∧
          (∀ k, k ≠ g * 256 + c → look t.cells k = look s.cells k)) ∧
        (∀ block, failed < 2 → exec (.understorySegment g p (.fault block)) s = .next (s.setGrove g { x with
          fails := ins x.fails p failed, segments := del x.segments p })) ∧
        (∀ block, 2 ≤ failed → ∃ t : State, exec (.understorySegment g p (.fault block)) s = .next t ∧
          retires g p t ∧ (risingFrom 0 x.fails = true → (t.grove g).fails = del x.fails p) ∧
          (risingFrom 0 x.segments = true → (t.grove g).segments = del x.segments p) ∧
          (stands g → s.posts t .understoryFail 0xFF .ok)) ∧
        (∀ m, ∃ t : State, exec (.understorySegment g p (.margin m)) s = .next t ∧
          (t.grove g).margins = ins x.margins p m ∧ others g t ∧ t.mem = s.mem ∧ t.cells = s.cells ∧
          (m < 200 → retires g p t) ∧
          (200 ≤ m → s.marginBound ≤ m → t.grove g = { x with margins := ins x.margins p m } ∧
            t.hub = s.hub ∧ s.sameEntriesBut t [keyOf 0x1131 (g + 1)] ∧
            (let l := (ins x.margins p m).filter fun q => s.healthy g q.1 && s.inUse g q.1
             (∀ q ∈ l, t.rd 0x1131 (g + 1) ≤ q.2) ∧ (l ≠ [] → ∃ q ∈ l, t.rd 0x1131 (g + 1) = q.2))) ∧
          (200 ≤ m → m < s.marginBound → s.inUse g p = true →
            (s.frc 0x1130 1 = 1 → p ∈ (t.grove g).retired) ∧
            (s.frc 0x1130 1 = 2 → t.grove g = { x with margins := ins x.margins p m, remargining := true }) ∧
            (s.frc 0x1130 1 = 3 → s.spareFree g = true → p ∈ (t.grove g).retired) ∧
            (s.frc 0x1130 1 = 3 → s.spareFree g = false →
              t.grove g = { x with margins := ins x.margins p m, remargining := true }) ∧
            (s.frc 0x1130 1 = 0 → t.grove g = { x with margins := ins x.margins p m } ∧
              (look x.margins p = none → s.posts t .marginLow 0xFF .ok)))))) ∧
    (∀ g (margins : List (Nat × Nat)), g < 16 →
      let x := s.grove g
      let steps := (look s.otp.supplySteps g).getD 0
      let enough := s.marginBound + 200 ≤ s.rd 0x1131 (g + 1)
      let measured := margins.foldl (fun m q => if q.1 < 272 then ins m q.1 q.2 else m) x.margins
      let measures (t : State) : Prop :=
        let l := measured.filter fun q => s.healthy g q.1 && s.inUse g q.1
        t.grove g = { x with margins := measured } ∧ others g t ∧
        (∀ q ∈ l, t.rd 0x1131 (g + 1) ≤ q.2) ∧ (l ≠ [] → ∃ q ∈ l, t.rd 0x1131 (g + 1) = q.2)
      (x.remargining = false → exec (.remargin g margins) s = .next s) ∧
      (x.remargining = true → enough → exec (.remargin g margins) s =
        .next (s.setGrove g { x with remargining := false })) ∧
      (x.remargining = true → ¬enough → s.lowestSupply g < 750 → ∃ t : State, exec (.remargin g margins) s = .next t ∧
        t.otp = { s.otp with supplySteps := ins s.otp.supplySteps g (steps + 1) } ∧
        t.rd 0x1101 (g + 1) = max (s.rd 0x1101 (g + 1)) (710 + 10 * steps) ∧ measures t ∧
        s.posts t .remargin 0xFF .ok ∧
        s.sameEntriesBut t ([keyOf 0x1101 (g + 1), keyOf 0x1131 (g + 1)] ++ eventKeys) ∧
        t = { s with groves := t.groves, otp := t.otp, dict := t.dict, hub := t.hub }) ∧
      (x.remargining = true → ¬enough → 750 ≤ s.lowestSupply g → 1000 < s.rd 0x1110 (g + 1) →
        ∃ t : State, exec (.remargin g margins) s = .next t ∧
        t.rd 0x1110 (g + 1) = s.rd 0x1110 (g + 1) - 10 ∧ measures t ∧
        s.posts t .floorLowered 0xFF .ok ∧
        (look t.otp.floorDrops (g + 1)).getD 0 = (look s.otp.floorDrops (g + 1)).getD 0 + 1 ∧
        s.sameEntriesBut t ([keyOf 0x1110 (g + 1), keyOf 0x1111 (g + 1), keyOf 0x1131 (g + 1)] ++ eventKeys) ∧
        t = { s with groves := t.groves, otp := t.otp, dict := t.dict, hub := t.hub }) ∧
      (x.remargining = true → ¬enough → 750 ≤ s.lowestSupply g → s.rd 0x1110 (g + 1) ≤ 1000 →
        ∃ t : State, exec (.remargin g margins) s = .next t ∧ (t.grove g).remargining = false ∧
        (∀ q ∈ x.margins, s.healthy g q.1 = true → s.inUse g q.1 = true → q.2 < s.marginBound →
          q.1 ∈ (t.grove g).retired) ∧ others g t ∧ stops t)) ∧
    (∀ g p, wfPhys g p = true →
      let served := s.servedBy g p
      let now := (look (s.grove g).hosting p).getD (served.headD 0)
      let next := (served.find? fun c => now < c).getD (served.headD 0)
      let turn := s.cellRuns g now = false ∧ (65536 ≤ (look (s.grove g).multi now).getD 0 ∨
        ((s.cell g now).slots.all fun q => q.st != .ready) = true)
      (served.length < 2 ∨ ¬turn → exec (.multiplexSwitch g p) s = .next s) ∧
      (2 ≤ served.length → turn → ∃ t : State, exec (.multiplexSwitch g p) s = .next t ∧
        t.mem = ((s.spillCell g now).unspillCell g next).mem ∧
        t.grove g = { s.grove g with
          hosting := ins (s.grove g).hosting p next, multi := ins (ins (s.grove g).multi now 0) next 0 } ∧
        others g t ∧ (∀ k, k / 256 < 0x2460 ∨ 0x24E0 ≤ k / 256 → look t.dict k = look s.dict k) ∧
        t = { s with
          mem := t.mem, poison := t.poison, groves := t.groves, buckets := t.buckets, pools := t.pools,
          lastDraw := t.lastDraw, dict := t.dict }))

/-- VAT_STEP_START of an accepted plan that may start a step (a vat's or taster's, its turning not blocked)
begins a step on the version in place: no request stays that was cancelled, paused or invalid, none waits whose
deadline has passed, requests are admitted from the head of the acceptance order only, none while the version is
too stale or drains, nothing waits to be paused, and pages without references are RETIRING. VAT_STEP_END counts
the step and leaves no pinned, unreferenced or RETIRING page and no sequence in a step; a decoding sequence
takes the token sampled, and ends when that stops it or, without a token, at MAX_POS; cells change only in a
turning's front, where weight reads of units not yet replaced wait again. PAUSE_EXPIRED frees an unclaimed image
whose time has run out and for which no resume is in process, on a spread group's other members whatever their
own time says, and posts PAUSE_EXPIRED. Everything else stays. -/
def Obligations.VatStepsStartAndEnd : Prop :=
  ∀ (n : Nat) (s : State), n < 64 → s.power.mode ≠ .off →
    let x := s.clr n
    let v := s.vat n
    let top := 2 ^ 64 - 1
    let others (t : State) : Prop := ∀ m, m ≠ n → { t.clr m with press := (s.clr m).press } = s.clr m
    let sound := (∀ p, s.planOf n = some p → p.curdClearing < 64) ∧
      ∀ m id c, look (s.press m).curds id = some c → c.home < 64 ∧ c.writer ≤ 64
    let dictBut (t : State) (l : List Nat) : Prop := (∀ k, k / 256 < 0x2460 → look t.dict k = look s.dict k) ∧
      (sound → ∀ k, k ∉ eventKeys → k / 256 ∉ l → k / 256 < 0x2460 ∨ 0x2500 ≤ k / 256 →
        k / 256 < 0x4040 ∨ 0x4080 ≤ k / 256 → look t.dict k = look s.dict k)
    (s.mayStep n = false ∨ s.planOf n = none ∨ (s.planOf n).any (·.role == 1) = true ∨ x.turn.blocked = true →
      ∀ io, exec (.vatStepStart n io) s = .next s) ∧
    (∀ p io, s.planOf n = some p → s.mayStep n = true → p.role ≠ 1 → x.turn.blocked = false →
      let closed := p.maxStale < s.staleness n ∨ x.turn.draining = true
      let queue := v.waiting.filter fun q => !s.lateAt q && (State.release? q).isNone
      ∃ t : State, exec (.vatStepStart n io) s = .next t ∧
      (t.clr n).inStep = true ∧ (t.clr n).stepNo = x.stepNo + 1 ∧ (t.clr n).stepAt = s.time ∧
      (t.vat n).ver = s.stepVer n ∧ (t.vat n).toPause = [] ∧
      (∀ y ∈ (t.vat n).seqs, State.release? y.req = none) ∧ (t.clr n).turn = { x.turn with reads := [] } ∧
      (∀ q ∈ (t.vat n).pages, q.2.refs = 0 → q.2.st = 3) ∧
      (sound → closed → (t.vat n).waiting = queue) ∧ (∃ l, queue = l ++ (t.vat n).waiting) ∧
      (sound → p.maxStale < s.staleness n → t.liveOf (0x60C0 + n) 5 = min (s.liveOf (0x60C0 + n) 5 + 1) top) ∧
      { t.clr n with
        inStep := x.inStep, stepNo := x.stepNo, stepAt := x.stepAt, vat := x.vat, press := x.press, turn := x.turn } = x ∧
      others t ∧ dictBut t [0x4140 + n, 0x4C10] ∧
      t = { s with
        clearings := t.clearings, hub := t.hub, dict := t.dict, live := t.live, mem := t.mem, poison := t.poison,
        buckets := t.buckets, pools := t.pools, lastDraw := t.lastDraw, outbox := t.outbox, copiers := t.copiers,
        ports := t.ports }) ∧
    (∀ toks faults, x.inStep = false ∨ s.running = false ∨ s.planOf n = none ∨
      (s.planOf n).any (·.role == 1) = true → exec (.vatStepEnd n toks faults) s = .next s) ∧
    (∀ p toks faults, s.planOf n = some p → p.role ≠ 1 → x.inStep = true → s.running = true →
      ∃ t : State, exec (.vatStepEnd n toks faults) s = .next t ∧
      (t.clr n).inStep = false ∧ (t.clr n).due = true ∧ (t.clr n).idleSince = s.time ∧
      (t.clr n).turn = { x.turn with oldStep := false } ∧
      (sound → t.rd (0x60C0 + n) 1 = min (s.liveOf (0x60C0 + n) 1 + 1) top) ∧
      (∀ q ∈ (t.vat n).pages, q.2.pins = 0 ∧ q.2.refs ≠ 0 ∧ q.2.st ≠ 3) ∧
      (∀ y ∈ (t.vat n).seqs, y.active = false ∧ y.chunk = 0) ∧
      (∀ (y : Seqn) (tok lp : Nat), v.seqs = [y] → y.active = true → y.fault = [] → y.req.deadline = 0 →
        y.req.slot ≠ 0xFFFF → y.req.ring = none → y.curd = none → y.kept = [] → y.start ≤ y.pos + y.chunk →
        faults = [] → toks = [⟨y.slot, tok, lp⟩] → risingFrom 0 s.live = true →
        let y0 := { y with pos := y.pos + y.chunk, active := false, chunk := 0, req := { y.req with resumeTag := 0 } }
        let y1 := { y0 with tokens := y.tokens ++ [tok] }
        let ends (w : Seqn) : Prop := (t.vat n).seqs = [] ∧
          (t.vat n).toPause = v.toPause ++ (if y.req.pauseAtEnd then [w] else [])
        (p.maxPos ≤ y.pos + y.chunk → t.rd (0x60C0 + n) 2 = s.liveOf (0x60C0 + n) 2 ∧ ends y0) ∧
        (y.pos + y.chunk < p.maxPos → t.rd (0x60C0 + n) 2 = min (s.liveOf (0x60C0 + n) 2 + 1) top ∧
          ((stopOf p y1).1 = 0 → (t.vat n).seqs = [y1]) ∧ ((stopOf p y1).1 ≠ 0 → ends y1))) ∧
      (x.turn.frontStarted = false → t.cells = s.cells) ∧
      { t.clr n with
        inStep := x.inStep, due := x.due, idleSince := x.idleSince, vat := x.vat, press := x.press, turn := x.turn } = x ∧
      others t ∧ dictBut t [0x4140 + n, 0x6040 + n, 0x60C0 + n] ∧
      t = { s with
        clearings := t.clearings, hub := t.hub, dict := t.dict, live := t.live, free := t.free, mem := t.mem,
        poison := t.poison, buckets := t.buckets, pools := t.pools, lastDraw := t.lastDraw, outbox := t.outbox,
        copiers := t.copiers, ports := t.ports, cells := t.cells }) ∧
    (∀ tag, (v.paused.find? fun q => q.tag == tag) = none → exec (.pauseExpired n tag) s = .next s) ∧
    (∀ tag q, (v.paused.find? fun q => q.tag == tag) = some q →
      let due := q.claimed = false ∧ s.resumeTaken n q = false ∧
        (s.judgesExpiry n = true → s.rd 0x4C10 1 = 1 ∧ q.expires ≤ s.time)
      (¬due → exec (.pauseExpired n tag) s = .next s) ∧
      (due → ∃ t : State, exec (.pauseExpired n tag) s = .next t ∧
        t.vat n = { v with paused := v.paused.filter fun w => w.tag != tag } ∧
        t.rd 0x4C10 3 = s.rd 0x4C10 3 - 1 ∧ t.rd 0x4C10 4 = min (s.rd 0x4C10 4 + 1) top ∧
        s.posts t .pauseExpired n .ok ∧ { t.clr n with vat := v } = x ∧ (∀ m, m ≠ n → t.clr m = s.clr m) ∧
        s.sameEntriesBut t ([keyOf 0x4C10 3, keyOf 0x4C10 4] ++ eventKeys) ∧
        t = { s with clearings := t.clearings, dict := t.dict, hub := t.hub }))

/-- STEP_BOUNDARY of an ACTIVE clearing, at the end of a press step or between steps, puts every pending value
in force, but the memory quotas and a turning's discipline; a press step that ends counts in STEP and
PRESS_STEPS and reports its time to the leader; a withdrawn plan leaves the clearing IDLE and without requests;
without one no other clearing changes, but for the checkpoint state of the job's presses. PRESS_BATCH_TAKE takes
the first SCORED records, exactly a batch. CULTURE_FILL_DONE makes the table READY with its checksum published,
fills again once, then posts CULTURE_FILL_FAILED. CLAIM_TAKEN claims every cell wanted on the grove with an
event for each, and no victim keeps a slot there; CLAIM_HOLD_EXPIRE gives an idle claimant's cells up;
CLAIM_RELEASED brings the victims' slots back. -/
def Obligations.BoundariesFillsAndClaims : Prop :=
  ∀ (n : Nat) (s : State), n < 64 → s.power.mode ≠ .off →
    let x := s.clr n
    let top := 2 ^ 64 - 1
    let press := s.jobRole n = 1
    let tidy := risingFrom 0 s.dict = true ∧ risingFrom 0 s.live = true ∧ x.withdraw = false
    (∀ ended lineOk, s.power.mode ≠ .run ∨ s.clearState n ≠ 3 ∨ ¬(x.inStep = true ↔ ended = true ∧ press) →
      exec (.stepBoundary n ended lineOk) s = .next s) ∧
    (∀ ended lineOk, s.power.mode = .run → s.clearState n = 3 → (x.inStep = true ↔ ended = true ∧ press) →
      ∃ t : State, exec (.stepBoundary n ended lineOk) s = .next t ∧
      (∀ p ∈ forcePositions n, p ≠ (0x4040 + n, 3) → p ≠ (0x4040 + n, 4) →
        p ≠ (0x6040 + n, 1) ∨ s.turnState n = 0 → t.frc p.1 p.2 = s.rd p.1 p.2) ∧
      (t.clr n).due = false ∧
      (ended = true → press → (t.clr n).stepNo = x.stepNo + 1 ∧ (tidy →
        t.rd (0x6080 + n) 1 = min (s.liveOf (0x6080 + n) 1 + 1) top ∧
        .job n "STEP_TIME" (s.rd (0x9080 + n) 2) [s.ownModule, x.stepNo, s.rd (0x9080 + n) 0xD] ∈ t.outbox)) ∧
      (¬(ended = true ∧ press) → (t.clr n).stepNo = x.stepNo) ∧
      (ended = false → ¬press → x.withdraw = false → t.outbox = s.outbox ∧ t.vat n = s.vat n) ∧
      (x.withdraw = true → t.clearState n = 2 ∧ (t.clr n).plan = none ∧ (t.clr n).inStep = false ∧
        (t.vat n).waiting = [] ∧ (t.vat n).seqs = []) ∧
      (x.withdraw = false → (risingFrom 0 s.dict = true → t.clearState n = 3) ∧ (t.clr n).plan = x.plan ∧ ∀ m, m ≠ n →
        { t.clr m with ckpt := (s.clr m).ckpt, recov := (s.clr m).recov } = s.clr m ∧
        (s.sameJob n m = false ∨ s.jobRole m ≠ 1 → t.clr m = s.clr m)) ∧
      t = { s with
        force := t.force, dict := t.dict, live := t.live, blobs := t.blobs, mem := t.mem, poison := t.poison,
        cells := t.cells, groves := t.groves, clearings := t.clearings, buckets := t.buckets, hub := t.hub,
        outbox := t.outbox, colls := t.colls, copiers := t.copiers, pools := t.pools, lastDraw := t.lastDraw, ports := t.ports,
        degraded := t.degraded, pieces := t.pieces }) ∧
    (s.planOf n = none → exec (.pressBatchTake n) s = .next s) ∧
    (∀ p, s.planOf n = some p →
      let pr := s.press n
      let scored := (pr.ready.filter fun id => s.rewardOf pr id == 1).take p.batch
      (p.batch = 0 ∨ scored.length ≠ p.batch ∨ pr.batch ≠ [] → exec (.pressBatchTake n) s = .next s) ∧
      (p.batch ≠ 0 → scored.length = p.batch → pr.batch = [] →
        let begins := s.mayStep n = true ∧ p.role = 1 ∧ x.recov.hold = false ∧
          (s.rd (0x9080 + n) 0xA = 0 ∨ s.rd (0x9080 + n) 0xA = 3 ∧ x.ckpt.forward = true)
        ∃ t : State, exec (.pressBatchTake n) s = .next t ∧ (t.press n).batch = scored ∧
        (∀ id ∈ (t.press n).ready, id ∈ pr.ready ∧ id ∉ scored) ∧
        (begins → (t.clr n).inStep = true ∧ (t.clr n).stepAt = s.time ∧
          (∀ y ∈ (t.vat n).seqs, y.req.slot = 0xFFFE ∧ y.active = true ∧ y.pos = 0) ∧
          (t.vat n).seqs.length = (scored.filterMap fun id => look (t.press n).curds id).length ∧
          ∀ k, k / 256 < 0x2460 ∨ 0x24E0 ≤ k / 256 → look t.dict k = look s.dict k) ∧
        (¬begins → t = { s with clearings := t.clearings } ∧ { t.clr n with press := x.press } = x) ∧
        { t.clr n with press := x.press, inStep := x.inStep, stepAt := x.stepAt, vat := x.vat } = x ∧
        (∀ m, m ≠ n → t.clr m = s.clr m) ∧
        t = { s with
          clearings := t.clearings, mem := t.mem, poison := t.poison, buckets := t.buckets, pools := t.pools,
          lastDraw := t.lastDraw, dict := t.dict, outbox := t.outbox })) ∧
    (∀ g ok, g < 16 →
      let v := s.grove g
      (v.tableState ≠ 1 → exec (.cultureFillDone g ok) s = .next s) ∧
      (v.tableState = 1 → ∃ t : State, exec (.cultureFillDone g ok) s = .next t ∧
        t.rd 0x3123 (g + 1) = min (s.rd 0x3123 (g + 1) + 1) (2 ^ 32 - 1) ∧
        (ok = true → t.grove g = { v with tableState := 2 } ∧ t.rd 0x3121 (g + 1) = crc32c (tableBytes v.seed)) ∧
        (ok = false → t.rd 0x3121 (g + 1) = s.rd 0x3121 (g + 1) ∧
          (v.fillTries = 0 → t.grove g = { v with fillTries := 1 } ∧ t.hub = s.hub) ∧
          (v.fillTries ≠ 0 → t.grove g = { v with tableState := 3 } ∧ s.posts t .cultureFillFailed 0xFF .ok)) ∧
        (∀ k, k ≠ g → look t.groves k = look s.groves k) ∧
        s.sameEntriesBut t ([keyOf 0x3121 (g + 1), keyOf 0x3123 (g + 1)] ++ eventKeys) ∧
        t = { s with groves := t.groves, dict := t.dict, hub := t.hub })) ∧
    (∀ g ns, g < 16 →
      let may := s.clearState n = 3 ∧ x.inStep = true ∧ s.wanted n g ≠ [] ∧ ∀ c ∈ s.wanted n g, s.claimReady n g c = true
      (¬may → exec (.claimTaken n g ns) s = .next s) ∧
      (may → ∃ t : State, exec (.claimTaken n g ns) s = .next t ∧
        t.hub.evLog.head?.map (fun e => (e.name, e.clearing)) = some (.claimTaken, n) ∧
        t.hub.seq = (s.hub.seq + (s.wanted n g).length) % 2 ^ 32 ∧
        (∀ c ∈ s.wanted n g, (t.cell g c).claimed = some n ∧
          ∀ q ∈ (t.cell g c).slots, q.desc.clearing ∉ s.victims n g c) ∧
        t.liveOf 0x6021 n = min (s.liveOf 0x6021 n + (s.wanted n g).length) top ∧
        t.liveOf 0x6023 n = max (s.liveOf 0x6023 n) (min ns (2 ^ 32 - 1)) ∧
        (∀ k, k / 256 ≠ g → look t.cells k = look s.cells k) ∧
        (∀ k, k ≠ g → look t.groves k = look s.groves k) ∧
        (∀ k, k / 256 ∉ [0x6001 + g, 0x6021, 0x6022, 0x6023, 0x70000 + 16 * n + g] → look t.live k = look s.live k) ∧
        (∀ k, k ∉ eventKeys → k / 256 < 0x2460 ∨ 0x24E0 ≤ k / 256 → look t.dict k = look s.dict k) ∧
        t = { s with
          cells := t.cells, groves := t.groves, mem := t.mem, poison := t.poison, buckets := t.buckets, pools := t.pools,
          lastDraw := t.lastDraw, dict := t.dict, live := t.live, hub := t.hub })) ∧
    (let due := x.inStep = false ∧ x.idleSince + s.rd (0x2000 + 16 * n) 8 * 1000 ≤ s.time ∧ s.claimedBy n ≠ []
     (¬due → exec (.claimHoldExpire n) s = .next s) ∧
     (due → ∃ t : State, exec (.claimHoldExpire n) s = .next t ∧
       (∀ p ∈ s.claimedBy n, (t.cell p.1 p.2).claimed ≠ some n ∧
         ∀ q ∈ (t.cell p.1 p.2).slots, q.desc.clearing = n → q.st = .running) ∧
       (s.parkedOf n = [] → s.posts t .claimReleased n .ok) ∧
       (∀ k, (k / 256, k % 256) ∉ s.claimedBy n → look t.cells k = look s.cells k) ∧ s.sameEntriesBut t eventKeys ∧
       t = { s with cells := t.cells, mem := t.mem, poison := t.poison, dict := t.dict, hub := t.hub })) ∧
    (let free (p : Nat × Nat × Parked) : Prop := (s.cell p.1 p.2.1).claimed ≠ some n
     ((∀ p ∈ s.parkedOf n, ¬free p) → exec (.claimReleased n) s = .next s) ∧
     ((∃ p ∈ s.parkedOf n, free p) → ∃ t : State, exec (.claimReleased n) s = .next t ∧
       s.posts t .claimReleased n .ok ∧
       (∀ p ∈ s.parkedOf n, free p → p.2.2 ∉ (t.cell p.1 p.2.1).parked ∧
         ∀ q ∈ p.2.2.slots, q ∈ (t.cell p.1 p.2.1).slots) ∧
       (∀ k, (∀ p ∈ s.parkedOf n, k ≠ p.1 * 256 + p.2.1) → look t.cells k = look s.cells k) ∧
       ((∀ p ∈ s.parkedOf n, p.1 < 16 ∧ p.2.2.victim < 64) → ∀ k, k ∉ eventKeys →
         k / 256 < 0x2460 ∨ 0x24E0 ≤ k / 256 → look t.dict k = look s.dict k) ∧
       t = { s with
         cells := t.cells, mem := t.mem, poison := t.poison, buckets := t.buckets, pools := t.pools, lastDraw := t.lastDraw,
         dict := t.dict, hub := t.hub }))

/-- VERSION_PRODUCED numbers the version, keeps it as SENDING or as WAITING in place of an older one, which it
posts VERSION_SUPERSEDED for, and idle vats start to stage a SENDING one. LANDING_RESERVE reserves the blocks of
the next unit that fits, and the keeper reports what it has staged once. SHARD_SEND sends the shard's bytes of
the source, here by writing them, and SHARD_LANDED writes them at the unit's place or confirms them, a unit
being staged with its last shard; a LOCAL shard that this module did not send itself lands only in a load; what
is written and read back is charged; a bad shard is fetched again once, and then the turning fails before or
behind its front. FRONT_START, which the leader makes only with a report of every other member, UNIT_REPLACE and
TURN_SOURCE_CURRENT move the front, the units and the source; the last unit on every member ends the turning
with TURN_DONE. VAT_LOAD starts a load, whose front starts with it, and LOAD_DONE ends it. As a front starts
with no step of the previous version in flight, READY tiles that read a unit return to LOADED. -/
def Obligations.VersionsAreTurnedUnitByUnit : Prop :=
  ∀ (n : Nat) (s : State), n < 64 → s.power.mode ≠ .off →
    let x := s.turn n
    let p := s.press n
    let st := s.turnState n
    let i := 0x6040 + n
    let only (m : Nat) (t : State) : Prop :=
      { t.clr m with turn := s.turn m } = s.clr m ∧ ∀ k, k ≠ m → t.clr k = s.clr k
    let turnings (t : State) : Prop := ∀ m, { t.clr m with turn := (s.clr m).turn, press := (s.clr m).press } = s.clr m
    let starts (t : State) (v m : Nat) : Prop :=
      (s.turnState m = 0 → t.turnState m = 1 ∧ (t.turn m).version = v ∧ (t.turn m).frontStarted = false ∧
        t.rd (0x6040 + m) 6 = 0 ∧ t.rd (0x6040 + m) 7 = 0) ∧
      (s.turnState m ≠ 0 → t.turnState m = s.turnState m ∧ t.turn m = s.turn m)
    let turnKeys (t : State) (l : List Nat) : Prop := ∀ k, k ∉ l → k ∉ eventKeys →
      k / 256 < 0x6040 ∨ 0x6080 ≤ k / 256 → look t.dict k = look s.dict k
    let regs (t : State) (m : Nat) : Prop := ∀ k, k ≠ keyOf (0x6040 + m) 7 → k ≠ keyOf (0x4040 + m) 8 →
      k / 256 < 0x2460 ∨ 0x24E0 ≤ k / 256 → look t.dict k = look s.dict k
    let holds (t : State) : Prop := ∀ g c, (t.cell g c).slots = ((s.cell g c).slots.map fun q =>
        if (t.turn n).oldStep = false ∧ q.st = .ready ∧ q.desc.clearing = n ∧ q.desc.kind = 0xA3 ∧
          (t.unit n (wrUnit q.desc)).replaced = false then { q with st := .loaded, barred := some s.time } else q) ∧
      t.cell g c = { s.cell g c with slots := (t.cell g c).slots, parked := (t.cell g c).parked }
    let reported (t : State) : Prop := t.outbox = s.outbox ∨ (∃ leader, t.outbox = s.outbox ++
      [.job n "STAGED" x.version [s.ownModule, leader]]) ∧ st = 1 ∧ x.reported = false ∧ (t.turn n).reported = true
    (∀ k : State, let leader := ((k.planOf n).elim [] (·.spreadMods)).foldl min k.ownModule
      let tells := k.turnState n = 1 ∧ k.pooled n = true ∧ (k.turn n).reported = false ∧ leader ≠ k.ownModule
      (¬tells → k.reportStaged n = k) ∧
      (tells → (k.reportStaged n).outbox = k.outbox ++ [.job n "STAGED" (k.turn n).version [k.ownModule, leader]])) ∧
    (s.exists? n = false ∨ s.sourceKeeper n ≠ some n ∨
      (s.jobRole n = 1 ∧ ((s.clr n).inStep = false ∨ p.made = true)) → exec (.versionProduced n) s = .next s) ∧
    (s.exists? n = true → s.sourceKeeper n = some n → (s.jobRole n = 1 → (s.clr n).inStep = true ∧ p.made = false) →
      let v := (s.rd i 5 + 1) % 256
      ∃ t : State, exec (.versionProduced n) s = .next t ∧ t.rd i 5 = v ∧
      (∀ m ∈ s.vatsOf n, t.rd (0x6040 + m) 5 = v) ∧
      (s.jobRole n = 1 → t.rd (0x9080 + n) 0xD = s.time - (s.clr n).stepAt) ∧ (t.press n).made = true ∧
      look (t.press n).producedAt v = some s.time ∧ (look (t.press n).sources v).isSome = true ∧
      (t.press n).current = p.current ∧
      (p.sending = none → (t.press n).sending = some v ∧ (t.press n).waiting = p.waiting ∧ t.hub = s.hub ∧
        ∀ m ∈ s.vatsOf n, starts t v m) ∧
      (p.sending ≠ none → (t.press n).sending = p.sending ∧ (t.press n).waiting = some v ∧
        (p.waiting = none → t.hub = s.hub) ∧ (p.waiting ≠ none → s.posts t .versionSuperseded n .ok) ∧
        ∀ m, t.turn m = s.turn m) ∧
      turnings t ∧ turnKeys t [keyOf (0x9080 + n) 0xD] ∧
      t = { s with dict := t.dict, clearings := t.clearings, live := t.live, hub := t.hub }) ∧
    (st ≠ 1 ∧ st ≠ 2 ∧ st ≠ 4 → exec (.landingReserve n) s = .next s) ∧
    (st = 1 ∨ st = 2 ∨ st = 4 → (∀ u, s.nextReserve n = some u → s.canReserve n u = false) →
      exec (.landingReserve n) s = .next (s.reportStaged n)) ∧
    (∀ u, st = 1 ∨ st = 2 ∨ st = 4 → s.nextReserve n = some u → s.canReserve n u = true →
      ∃ t : State, exec (.landingReserve n) s = .next t ∧
      (t.unit n u).reserved = true ∧ s.unitSpace n u = some (t.unit n u).stage ∧
      { t.unit n u with
        reserved := (s.unit n u).reserved, stage := (s.unit n u).stage, staged := (s.unit n u).staged } = s.unit n u ∧
      (t.unit n u).staged = ((s.unit n u).staged || (s.shardsOf n u).all fun e => (s.unit n u).landed.contains e.shard) ∧
      (∀ w, w ≠ u → t.unit n w = s.unit n w) ∧ t.rd i 7 = ((t.turn n).units.filter fun w => w.2.staged).length ∧
      reported t ∧ only n t ∧ s.sameEntriesBut t [keyOf i 7] ∧
      t = { s with clearings := t.clearings, dict := t.dict, outbox := t.outbox }) ∧
    (∀ (u k dst : Nat) (granted again : Bool), u < 1024 → dst < 16384 →
      let l := (s.shardList n).filter fun d =>
        d.unit == u && d.shard == k && d.dstModule == dst && s.senderOf n d == some s.ownModule
      (s.jobRole n ≠ 1 ∨ l = [] → exec (.shardSend n u k dst granted again) s = .next s) ∧
      (∀ d, s.jobRole n = 1 → l = [d] →
        let m := d.dstClearing
        let near := dst = s.ownModule
        let may := (near → s.sameJob n m = true ∧ s.jobRole m ≠ 1 ∧
          ((s.unit m u).reserved = true ∨ k ∈ (s.unit m u).refetch)) ∧ (¬near → granted = true)
        let src := (s.sendVersion n d again).bind fun v => s.sourceOff n v
        (src = none ∨ ¬may → exec (.shardSend n u k dst granted again) s = .next s) ∧
        (∀ base, src = some base → may →
          let off := base + d.srcOffset
          let data := s.peek (regionAddr 1 n off) d.length
          (s.badRange n 1 off d.length ≠ [] → ∃ t : State, exec (.shardSend n u k dst granted again) s = .next t ∧
            s.posts t .memoryLost n .ok ∧
            t = { s with
              dict := t.dict, hub := t.hub, clearings := t.clearings, buckets := t.buckets, pools := t.pools,
              lastDraw := t.lastDraw }) ∧
          (s.badRange n 1 off d.length = [] → ¬near → ∃ t : State,
            exec (.shardSend n u k dst granted again) s = .next t ∧ s.sends t [.shard u k dst m data] ∧
            regs t n ∧ t = { s with
              outbox := t.outbox, ports := t.ports, buckets := t.buckets, pools := t.pools, lastDraw := t.lastDraw,
                dict := t.dict }) ∧
          (s.badRange n 1 off d.length = [] → near → ∃ t : State,
            exec (.shardSend n u k dst granted again) s = .next t ∧
            t.mem = (s.writeImage m (s.shardBlocks m d) d.dstOffset (slice data 0 d.length)).mem ∧
            t.unit m u = { s.unit m u with
              written := if (s.unit m u).written.contains k then (s.unit m u).written else k :: (s.unit m u).written } ∧
            (∀ w, w ≠ u → t.unit m w = s.unit m w) ∧ only m t ∧ regs t m ∧ t = { s with
              mem := t.mem, poison := t.poison, copiers := t.copiers, clearings := t.clearings, buckets := t.buckets,
              pools := t.pools, lastDraw := t.lastDraw, dict := t.dict })))) ∧
    (∀ (u k : Nat) (data : List Byte), u < 1024 →
      let y := s.unit n u
      let again := k ∈ y.refetch
      let wanted := (st = 1 ∨ st = 2 ∨ st = 4) ∧ y.reserved = true ∧ y.replaced = false ∧ k ∉ y.landed
      let found := (s.shardsOf n u).find? fun e => e.shard == k
      (∀ bad, ¬again → ¬wanted → exec (.shardLanded n u k data bad) s = .next s) ∧
      (∀ bad, again ∨ wanted → found = none → exec (.shardLanded n u k data bad) s = .next (s.reportStaged n)) ∧
      (∀ d : ShardDesc, again ∨ wanted → found = some d →
        let near := k ∈ y.written
        let mem (l : List Nat) : Mem :=
          if y.written.contains k then s.mem else (s.writeImage n l d.dstOffset (slice data 0 d.length)).mem
        let writes (t : State) : Prop := only n t ∧ regs t n ∧ (∀ w, w ≠ u → t.unit n w = s.unit n w) ∧
          t = { s with
            mem := t.mem, poison := t.poison, copiers := t.copiers, clearings := t.clearings, buckets := t.buckets,
            pools := t.pools, lastDraw := t.lastDraw, dict := t.dict, outbox := t.outbox }
        let lands := near ∨ s.senderOf n d ≠ some s.ownModule ∨ x.loading = true
        let mem1 (l : List Nat) : Mem := if near ∨ data = [] then s.mem else mem l
        let spent (t : State) : Prop := only n t ∧ (∀ k, k ∉ eventKeys → k / 256 < 0x2460 ∨ 0x24E0 ≤ k / 256 →
            k / 256 < 0x6040 ∨ 0x6080 ≤ k / 256 → k ≠ keyOf (0x4040 + n) 8 → look t.dict k = look s.dict k) ∧
          t = { s with
            mem := t.mem, poison := t.poison, copiers := t.copiers, clearings := t.clearings, buckets := t.buckets,
            pools := t.pools, lastDraw := t.lastDraw, live := t.live, hub := t.hub, dict := t.dict,
            outbox := t.outbox }
        (∀ bad, ¬lands → bad = false ∨ data ≠ [] →
          exec (.shardLanded n u k data bad) s = .next (s.reportStaged n)) ∧
        (lands →
          (again → ∃ t : State, exec (.shardLanded n u k data false) s = .next t ∧ t.mem = mem y.home ∧
            t.unit n u = { y with
              refetch := y.refetch.filter (· != k), written := y.written.filter (· != k) } ∧ reported t ∧ writes t) ∧
          (¬again → ∃ t : State, exec (.shardLanded n u k data false) s = .next t ∧ t.mem = mem y.stage ∧
            t.unit n u = { y with
              written := y.written.filter (· != k), landed := k :: y.landed,
              staged := y.staged || (s.shardsOf n u).all fun e => (k :: y.landed).contains e.shard } ∧
            t.rd i 7 = ((t.turn n).units.filter fun w => w.2.staged).length ∧ reported t ∧ writes t)) ∧
        (lands ∨ data = [] → ¬again → k ∉ y.failedShards → ∃ t : State, exec (.shardLanded n u k data true) s = .next t ∧
          t.unit n u = { y with
            failedShards := k :: y.failedShards, landed := y.landed.filter (· != k),
            written := y.written.filter (· != k) } ∧
          t.liveOf i 0xA = min (s.liveOf i 0xA + 1) (2 ^ 64 - 1) ∧ t.hub = s.hub ∧ t.mem = mem1 y.stage ∧
          reported t ∧ spent t) ∧
        (lands ∨ data = [] → ¬again → k ∈ y.failedShards → ∃ t : State, exec (.shardLanded n u k data true) s = .next t ∧
          t.turnState n = 3 ∧
          (x.loading = true → s.posts t .loadFailed n .loadFailed ∧ (t.turn n).blocked = true) ∧
          (x.loading = false → s.posts t .turnFailed n .ok ∧
            (x.frontStarted = true → (t.turn n).blocked = true ∧ (t.unit n u).home = y.home ∧
              (near ∨ data = [] → (t.turn n).units = x.units)) ∧
            (x.frontStarted = false → (t.unit n u).staged = false ∧ (t.unit n u).held = y.held ∧ t.rd i 7 = 0 ∧
              t.rd i 6 = (s.unitList n).length)) ∧
          t.outbox = s.outbox ∧ t.live = s.live ∧ t.mem = mem1 y.stage ∧ spent t) ∧
        (lands ∨ data = [] → again → k ∉ y.refetched → ∃ t : State, exec (.shardLanded n u k data true) s = .next t ∧
          t.unit n u = { y with
            refetch := k :: y.refetch.filter (· != k), written := y.written.filter (· != k),
            refetched := k :: y.refetched } ∧
          t.liveOf i 0xA = min (s.liveOf i 0xA + 1) (2 ^ 64 - 1) ∧ t.hub = s.hub ∧ t.mem = mem1 y.home ∧
          reported t ∧ spent t) ∧
        (lands ∨ data = [] → again → k ∈ y.refetched → ∃ t : State, exec (.shardLanded n u k data true) s = .next t ∧
          t.turnState n = 3 ∧ (t.turn n).blocked = true ∧ (t.unit n u).home = y.home ∧
          (x.loading = true → s.posts t .loadFailed n .loadFailed) ∧ (x.loading = false → s.posts t .turnFailed n .ok) ∧
          t.outbox = s.outbox ∧ t.live = s.live ∧ t.mem = mem1 y.home ∧ spent t))) ∧
    (∀ reports : List Bool,
      let mods := ((s.planOf n).elim [] (·.spreadMods))
      let all := if mods.foldl min s.ownModule = s.ownModule then
          reports.all id = true ∧ reports.length = (mods.filter (· != s.ownModule)).length
        else x.reported = true
      let may := st = 1 ∧ s.pooled n = true ∧ all ∧ s.drained n = true
      (¬may → exec (.frontStart n reports) s = .next s) ∧
      (may → ∃ t : State, exec (.frontStart n reports) s = .next t ∧ t.turnState n = 2 ∧ t.rd i 6 = 0 ∧
        t.turn n = { x with frontStarted := true, draining := false, oldStep := (s.clr n).inStep } ∧ only n t ∧ holds t ∧
        s.sameEntriesBut t [keyOf i 3, keyOf i 6] ∧
        t = { s with cells := t.cells, clearings := t.clearings, dict := t.dict })) ∧
    (∀ others : Bool, let u := s.rd i 6
     let y := s.unit n u
     let count := (s.unitList n).length
     let may := u < count ∧ y.staged = true ∧ ¬(x.oldStep = true ∧ s.unitWanted n u = true)
     let ends (t : State) : Prop := t.turnState n = 0 ∧ t.rd i 4 = x.version ∧ (t.turn n).loaded = true ∧
       (t.turn n).frontStarted = false ∧ s.posts t .turnDone n .ok
     (st ≠ 2 ∧ st ≠ 4 ∨ ¬may ∧ ¬(st = 2 ∧ others = true ∧ u = count) → exec (.unitReplace n others) s = .next s) ∧
     (st = 2 → others = true → u = count → ∃ t : State, exec (.unitReplace n others) s = .next t ∧ ends t ∧
       (∀ w, (t.unit n w).held = (s.unit n w).held ∧ (t.unit n w).home = (s.unit n w).home) ∧ only n t ∧ turnKeys t [] ∧
       t = { s with clearings := t.clearings, live := t.live, hub := t.hub, dict := t.dict }) ∧
     (st = 2 ∨ st = 4 → may → ∃ t : State, exec (.unitReplace n others) s = .next t ∧ t.rd i 6 = u + 1 ∧
       (t.unit n u).held = x.version ∧ (t.unit n u).home = y.stage ∧ (t.unit n u).stage = [] ∧
       (¬(st = 2 ∧ others = true ∧ u + 1 = count) →
         (t.unit n u).replaced = true ∧ t.turnState n = st ∧ t.hub = s.hub) ∧
       (st = 2 → others = true → u + 1 = count → ends t) ∧
       (∀ w, w ≠ u → (t.unit n w).held = (s.unit n w).held ∧ (t.unit n w).home = (s.unit n w).home) ∧
       only n t ∧ turnKeys t [] ∧
       t = { s with
         cells := t.cells, clearings := t.clearings, live := t.live, hub := t.hub, dict := t.dict })) ∧
    (∀ others, p.sending = none → exec (.turnSourceCurrent n others) s = .next s) ∧
    (∀ v others, p.sending = some v →
      let ready := others = true ∧ ∀ m ∈ s.vatsOf n, s.turnState m = 0 ∧ s.rd (0x6040 + m) 4 = v
      (¬ready → exec (.turnSourceCurrent n others) s = .next s) ∧
      (ready → ∃ t : State, exec (.turnSourceCurrent n others) s = .next t ∧ (t.press n).current = some v ∧
        (t.press n).sending = p.waiting ∧ (t.press n).waiting = none ∧
        (p.waiting = none → ∀ m, t.turn m = s.turn m) ∧ (∀ w, p.waiting = some w → ∀ m ∈ s.vatsOf n, starts t w m) ∧
        turnings t ∧ turnKeys t [] ∧ t = { s with clearings := t.clearings, dict := t.dict })) ∧
    (∀ version, version < 256 →
      let may := s.clearState n = 3 ∧ s.jobRole n ≠ 1 ∧ (st = 3 ∨ x.loaded = false) ∧ st ≠ 4
      (¬may → exec (.vatLoad n version) s = .next s) ∧
      (may → ∃ t : State, exec (.vatLoad n version) s = .next t ∧ t.turnState n = 4 ∧ t.rd i 6 = 0 ∧ t.rd i 7 = 0 ∧
        (t.turn n).version = version ∧ (t.turn n).loading = true ∧ (t.turn n).frontStarted = true ∧
        (t.turn n).blocked = false ∧ (∀ u, (t.unit n u).held = (s.unit n u).held ∧ (t.unit n u).reserved = false) ∧
        only n t ∧ holds t ∧ turnKeys t [] ∧
        t = { s with cells := t.cells, clearings := t.clearings, dict := t.dict })) ∧
    (let may := st = 4 ∧ s.rd i 6 = (s.unitList n).length
     (¬may → exec (.loadDone n) s = .next s) ∧
     (may → ∃ t : State, exec (.loadDone n) s = .next t ∧ t.rd i 4 = x.version ∧
       (s.sourceKeeper n = none → t.rd i 5 = x.version) ∧
       (let sent := (s.sourceKeeper n).bind fun k => (s.press k).sending
        (sent = none ∨ sent = some x.version ∨ s.jobRole n ≠ 2 → t.turnState n = 0) ∧
        (∀ v, sent = some v → v ≠ x.version → s.jobRole n = 2 → t.turnState n = 1 ∧ (t.turn n).version = v)) ∧
       (t.turn n).loading = false ∧ (t.turn n).loaded = true ∧ s.posts t .loadDone n .ok ∧
       (∀ u, (t.unit n u).held = (s.unit n u).held) ∧ only n t ∧ turnKeys t [] ∧
       t = { s with clearings := t.clearings, dict := t.dict, hub := t.hub }))

/-- Of every sound state, a step that answers a next state leaves one-time-programmable storage grown: the
rollback level and the counts of starts and stores never fall, manager keys and retired cells are only added,
the recorded steps of a floor rate, a supply and a delay never fall, and what is fused at manufacture stays. -/
def Obligations.FusesAreNeverTakenBack : Prop :=
  ∀ s t : State, s.Inv → step s = .next t → s.otp.grows t.otp
end

