-- ==== Sys2Proof/Laws/Digests.lean ====
section
/-! SUPPORT. Lengths of byte strings and of the digests of 17 R360 and 19: a field of a string is as long as it is asked
to be, a SHA-256 digest and an HMAC are 32 bytes, a TAG 16. -/

namespace Sys2Proof.Laws

open Sys2Proof Sys2Proof.Machine Sys2Proof.Machine.State

@[simp] theorem length_zeros (n : Nat) : (zeros n).length = n := by simp [zeros]

@[simp] theorem length_leBytes (w v : Nat) : (leBytes w v).length = w := by
  induction w generalizing v with
  | zero => rfl
  | succ w ih => simp [leBytes, ih]

@[simp] theorem length_slice (b : List Byte) (off n : Nat) : (slice b off n).length = n := by
  simp only [slice, List.length_append, length_zeros, List.length_take, List.length_drop]
  omega

/-- The bytes behind a prefix of a known length. -/
theorem slice_append (a b : List Byte) (off n : Nat) (ha : a.length = off) (hb : b.length = n) :
    slice (a ++ b) off n = b := by
  subst ha hb
  simp [slice, zeros]

/-- The front of a string. -/
theorem slice_front (a b : List Byte) (n : Nat) (ha : a.length = n) : slice (a ++ b) 0 n = a := by
  subst ha
  simp [slice, zeros]

@[simp] theorem length_beBytes (w v : Nat) : (beBytes w v).length = w := by simp [beBytes]

theorem length_shaRound (v : List Nat) (kw : Nat × Nat) (h : v.length = 8) : (shaRound v kw).length = 8 := by
  unfold shaRound
  split
  · rfl
  · exact h

theorem length_shaRounds (l : List (Nat × Nat)) (v : List Nat) (h : v.length = 8) : (l.foldl shaRound v).length = 8 := by
  induction l generalizing v with
  | nil => exact h
  | cons k l ih => exact ih _ (length_shaRound v k h)

theorem length_shaBlock (h : List Nat) (b : List Byte) (hl : h.length = 8) : (shaBlock h b).length = 8 := by
  simp [shaBlock, hl, length_shaRounds _ h hl]

theorem length_shaBlocks (n : Nat) (h : List Nat) (b : List Byte) (hl : h.length = 8) : (shaBlocks n h b).length = 8 := by
  induction n generalizing h b with
  | zero => exact hl
  | succ n ih => exact ih _ _ (length_shaBlock h _ hl)

theorem length_words_flatten (l : List Nat) : ((l.map (beBytes 4)).flatten).length = 4 * l.length := by
  induction l with
  | nil => rfl
  | cons a l ih => simp only [List.map_cons, List.flatten_cons, List.length_append, length_beBytes, ih, List.length_cons]; omega

@[simp] theorem length_sha256 (m : List Byte) : (sha256 m).length = 32 := by
  simp only [sha256]
  rw [length_words_flatten, length_shaBlocks _ shaInit _ rfl]

@[simp] theorem length_hmac (key m : List Byte) : (hmac key m).length = 32 := length_sha256 _

@[simp] theorem length_tagOf (sk : List Byte) (d : Byte) (b : List Byte) : (tagOf sk d b).length = 16 := by
  simp [tagOf]

/-- A request whose last 32 bytes are the HMAC of what stands before them proves the key (19 R406). -/
theorem proves_of_hmac (a b : List Byte) (h : b.length = 1664) :
    proves a (b ++ hmac a (ascii "CRIRON-SO" ++ b)) = true := by
  simp [proves, slice_append b _ 1664 32 h (length_hmac _ _), slice_front b _ 1664 h]

/-- Of two requests that differ in their last 32 bytes only, at most one proves a key. -/
theorem not_proves_both (a b m k : List Byte) (h : b.length = 1664) (hm : m.length = 32) (hk : k.length = 32)
    (hne : m ≠ k) (hp : proves a (b ++ m) = true) : proves a (b ++ k) = false := by
  simp only [proves, slice_append b _ 1664 32 h hm, slice_front b _ 1664 h, slice_append b _ 1664 32 h hk,
    beq_iff_eq, beq_eq_false_iff_ne] at *
  exact fun e => hne (hp.trans e.symm)

end Sys2Proof.Laws
end

