-- ==== Sys2Proof/Laws/Maps.lean ====
section
/-! SUPPORT. Maps and memory: a read after a write, every other place left alone, and the canonical form kept. -/

namespace Sys2Proof.Machine

variable {α : Type}

/-! ### Maps -/

@[simp] theorem look_nil (a : Nat) : look ([] : Map α) a = none := rfl

@[simp] theorem look_ins_same (m : Map α) (a : Nat) (x : α) : look (ins m a x) a = some x := by
  induction m with
  | nil => simp [ins, look]
  | cons p m ih =>
    obtain ⟨k, v⟩ := p
    by_cases h1 : a < k
    · simp [ins, h1, look]
    · by_cases h2 : k = a
      · simp [ins, h2, look]
      · simp [ins, h1, h2, look, ih]

theorem look_ins_other (m : Map α) {a b : Nat} (x : α) (h : a ≠ b) : look (ins m a x) b = look m b := by
  induction m with
  | nil =>
    by_cases h1 : b < a <;> simp [ins, look, h, h1]
  | cons p m ih =>
    obtain ⟨k, v⟩ := p
    by_cases h1 : a < k
    · by_cases h2 : b < a
      · have h3 : k ≠ b := by omega
        have h4 : b < k := by omega
        simp [ins, h1, look, h, h2, h3, h4]
      · simp [ins, h1, look, h, h2]
    · by_cases h2 : k = a
      · subst h2
        simp [ins, look, h]
      · simp [ins, h1, h2, look, ih]

theorem look_ins (m : Map α) (a b : Nat) (x : α) : look (ins m a x) b = if a = b then some x else look m b := by
  by_cases h : a = b
  · subst h; simp
  · simp [h, look_ins_other m x h]

theorem mem_ins {m : Map α} {a : Nat} {x : α} {p : Nat × α} (h : p ∈ ins m a x) : p = (a, x) ∨ p ∈ m := by
  induction m with
  | nil => simpa [ins] using h
  | cons q m ih =>
    obtain ⟨k, v⟩ := q
    by_cases h1 : a < k
    · simpa [ins, h1] using h
    · by_cases h2 : k = a
      · subst h2
        have h3 : p = (k, x) ∨ p ∈ m := by simpa [ins] using h
        exact h3.imp id fun h => List.mem_cons_of_mem _ h
      · have h3 : p = (k, v) ∨ p ∈ ins m a x := by simpa [ins, h1, h2] using h
        rcases h3 with rfl | h
        · exact .inr (List.mem_cons_self ..)
        · exact (ih h).imp id fun h => List.mem_cons_of_mem _ h

theorem risingFrom_weaken {lo lo' : Nat} {m : Map α} (h : risingFrom lo m = true) (hl : lo' ≤ lo) :
    risingFrom lo' m = true := by
  cases m with
  | nil => rfl
  | cons p m =>
    simp only [risingFrom, Bool.and_eq_true, decide_eq_true_eq] at h ⊢
    exact ⟨by omega, h.2⟩

/-- Keys below the start of a rising map are absent. -/
theorem look_below {lo a : Nat} {m : Map α} (h : risingFrom lo m = true) (ha : a < lo) : look m a = none := by
  cases m with
  | nil => rfl
  | cons p m =>
    obtain ⟨k, v⟩ := p
    simp only [risingFrom, Bool.and_eq_true, decide_eq_true_eq] at h
    have h1 : k ≠ a := by omega
    have h2 : a < k := by omega
    simp [look, h1, h2]

theorem risingFrom_ins {lo : Nat} {m : Map α} {a : Nat} (x : α) (h : risingFrom lo m = true) (ha : lo ≤ a) :
    risingFrom lo (ins m a x) = true := by
  induction m generalizing lo with
  | nil => simp [ins, risingFrom, ha]
  | cons p m ih =>
    obtain ⟨k, v⟩ := p
    simp only [risingFrom, Bool.and_eq_true, decide_eq_true_eq] at h
    by_cases h1 : a < k
    · simp only [ins, h1, if_true, risingFrom, Bool.and_eq_true, decide_eq_true_eq]
      exact ⟨ha, by omega, h.2⟩
    · by_cases h2 : k = a
      · subst h2; simp [ins, risingFrom, ha, h.2]
      · have h3 : risingFrom (k + 1) (ins m a x) = true := ih h.2 (by omega)
        simp [ins, h1, h2, risingFrom, h.1, h3]

theorem risingFrom_del {lo : Nat} {m : Map α} (a : Nat) (h : risingFrom lo m = true) :
    risingFrom lo (del m a) = true := by
  induction m generalizing lo with
  | nil => rfl
  | cons p m ih =>
    obtain ⟨k, v⟩ := p
    have h0 := h
    simp only [risingFrom, Bool.and_eq_true, decide_eq_true_eq] at h
    by_cases h2 : k = a
    · simp only [del, h2, beq_self_eq_true, if_true]
      exact risingFrom_weaken h.2 (by omega)
    · by_cases h1 : a < k
      · simpa [del, h2, h1] using h0
      · have h3 : risingFrom (k + 1) (del m a) = true := ih h.2
        simp [del, h1, h2, risingFrom, h.1, h3]

theorem look_del {lo : Nat} {m : Map α} (a b : Nat) (h : risingFrom lo m = true) :
    look (del m a) b = if a = b then none else look m b := by
  induction m generalizing lo with
  | nil => simp [del, look]
  | cons p m ih =>
    obtain ⟨k, v⟩ := p
    simp only [risingFrom, Bool.and_eq_true, decide_eq_true_eq] at h
    by_cases h2 : k = a
    · subst h2
      simp only [del, beq_self_eq_true, if_true]
      by_cases h3 : k = b
      · subst h3; simp [look_below h.2 (Nat.lt_succ_self k)]
      · by_cases h4 : b < k
        · have h5 := look_below (a := b) h.2 (by omega)
          simp [h3, look, h4, h5]
        · simp [h3, look, h4]
    · by_cases h1 : a < k
      · by_cases h3 : a = b
        · subst h3; simp [del, h2, h1, look]
        · simp [del, h2, h1, h3]
      · simp only [del, beq_iff_eq, h2, if_false, h1, look, ih h.2]
        by_cases h3 : a = b
        · subst h3; simp [h2, h1]
        · simp [h3]

theorem look_filter {lo : Nat} {m : Map α} (p : Nat → Bool) (a : Nat) (h : risingFrom lo m = true) :
    look (m.filter fun q => p q.1) a = if p a then look m a else none := by
  induction m generalizing lo with
  | nil => simp [look]
  | cons q m ih =>
    obtain ⟨k, v⟩ := q
    simp only [risingFrom, Bool.and_eq_true, decide_eq_true_eq] at h
    by_cases hk : k = a
    · subst hk
      by_cases hp : p k
      · simp [hp, look]
      · simp [hp, ih h.2]
    · by_cases hl : a < k
      · have h0 : look m a = none := look_below h.2 (by omega)
        by_cases hp : p k
        · simp [hp, look, hk, hl]
        · simp [hp, ih h.2, look, hk, hl, h0]
      · by_cases hp : p k
        · simp [hp, look, hk, hl, ih h.2]
        · simp [hp, ih h.2, look, hk, hl]

theorem risingFrom_filter {lo : Nat} {m : Map α} (p : Nat × α → Bool) (h : risingFrom lo m = true) :
    risingFrom lo (m.filter p) = true := by
  induction m generalizing lo with
  | nil => rfl
  | cons q m ih =>
    simp only [risingFrom, Bool.and_eq_true, decide_eq_true_eq] at h
    by_cases hp : p q
    · simp [hp, risingFrom, h.1, ih h.2]
    · simp only [List.filter_cons, hp]
      exact risingFrom_weaken (ih h.2) (by omega)

/-! ### Memory -/

theorem all_ins {p : Nat × α → Bool} {m : Map α} {a : Nat} {x : α} (h : m.all p = true) (hx : p (a, x) = true) :
    (ins m a x).all p = true := by
  induction m with
  | nil => simp [ins, hx]
  | cons q m ih =>
    obtain ⟨k, v⟩ := q
    simp only [List.all_cons, Bool.and_eq_true] at h
    by_cases h1 : a < k
    · simp [ins, h1, hx, h.1, h.2]
    · by_cases h2 : k = a
      · simp [ins, h2, hx, h.2]
      · simp [ins, h1, h2, h.1, ih h.2]

theorem all_del {p : Nat × α → Bool} {m : Map α} (a : Nat) (h : m.all p = true) : (del m a).all p = true := by
  induction m with
  | nil => rfl
  | cons q m ih =>
    obtain ⟨k, v⟩ := q
    have h0 := h
    simp only [List.all_cons, Bool.and_eq_true] at h
    by_cases h2 : k = a
    · simp [del, h2, h.2]
    · by_cases h1 : a < k
      · simp [del, h2, h1, h.1, h.2]
      · simp [del, h2, h1, h.1, ih h.2]

theorem Mem.wf_rising {m : Mem} (h : Mem.wf m = true) : risingFrom 0 m = true := by
  simp only [Mem.wf, Bool.and_eq_true] at h; exact h.1

theorem Mem.wf_nil : Mem.wf [] = true := rfl

/-- A write keeps the canonical form. -/
theorem Mem.wf_write {m : Mem} (a : Nat) (b : Byte) (h : Mem.wf m = true) : Mem.wf (Mem.write m a b) = true := by
  simp only [Mem.wf, Bool.and_eq_true] at h ⊢
  by_cases hb : b = 0
  · simp only [Mem.write, hb, beq_self_eq_true, if_true]
    exact ⟨risingFrom_del a h.1, all_del a h.2⟩
  · simp only [Mem.write, beq_iff_eq, hb, if_false]
    exact ⟨risingFrom_ins b h.1 (Nat.zero_le a), all_ins h.2 (bne_iff_ne.mpr hb)⟩

theorem Mem.wf_writes {m : Mem} (a : Nat) (bs : List Byte) (h : Mem.wf m = true) :
    Mem.wf (Mem.writes m a bs) = true := by
  induction bs generalizing m a with
  | nil => exact h
  | cons b bs ih => exact ih (a + 1) (Mem.wf_write a b h)

theorem Mem.wf_filter {m : Mem} (p : Nat × Byte → Bool) (h : Mem.wf m = true) : Mem.wf (m.filter p) = true := by
  simp only [Mem.wf, Bool.and_eq_true] at h ⊢
  refine ⟨risingFrom_filter p h.1, ?_⟩
  rw [List.all_eq_true] at h ⊢
  exact fun x hx => h.2 x (List.mem_filter.mp hx).1

theorem Mem.wf_zero {m : Mem} (a n : Nat) (h : Mem.wf m = true) : Mem.wf (Mem.zero m a n) = true :=
  Mem.wf_filter _ h

theorem Mem.wf_foldl_write (l : List (Nat × Byte)) (f : Nat × Byte → Nat) {m : Mem} (h : Mem.wf m = true) :
    Mem.wf (l.foldl (fun acc p => Mem.write acc (f p) p.2) m) = true := by
  induction l generalizing m with
  | nil => exact h
  | cons p l ih => exact ih (Mem.wf_write (f p) p.2 h)

theorem Mem.wf_copy {m : Mem} (src n dst : Nat) (h : Mem.wf m = true) : Mem.wf (Mem.copy m src n dst) = true :=
  Mem.wf_foldl_write _ (fun p => p.1 - src + dst) (Mem.wf_zero dst n h)

/-- The byte written is read, and every other byte is what it was. -/
theorem Mem.read_write {m : Mem} (a c : Nat) (b : Byte) (h : Mem.wf m = true) :
    Mem.read (Mem.write m a b) c = if a = c then b else Mem.read m c := by
  have hr := Mem.wf_rising h
  by_cases hb : b = 0
  · simp only [Mem.write, hb, beq_self_eq_true, if_true, Mem.read, look_del a c hr]
    by_cases hc : a = c <;> simp [hc]
  · simp only [Mem.write, beq_iff_eq, hb, if_false, Mem.read, look_ins]
    by_cases hc : a = c <;> simp [hc]

/-- The bytes written are read in their order, and every byte outside the range is what it was. -/
theorem Mem.read_writes {m : Mem} (a c : Nat) (bs : List Byte) (h : Mem.wf m = true) :
    Mem.read (Mem.writes m a bs) c =
      if a ≤ c ∧ c < a + bs.length then bs.getD (c - a) 0 else Mem.read m c := by
  induction bs generalizing m a with
  | nil =>
    have h1 : ¬ (a ≤ c ∧ c < a + ([] : List Byte).length) := by simp only [List.length_nil]; omega
    rw [if_neg h1]; rfl
  | cons b bs ih =>
    simp only [Mem.writes, List.length_cons]
    rw [ih (a + 1) (Mem.wf_write a b h), Mem.read_write a c b h]
    by_cases h1 : a = c
    · subst h1
      have h2 : ¬ (a + 1 ≤ a ∧ a < a + 1 + bs.length) := by omega
      have h3 : a ≤ a ∧ a < a + (bs.length + 1) := by omega
      rw [if_neg h2, if_pos h3, if_pos rfl]; simp
    · by_cases h2 : a + 1 ≤ c ∧ c < a + 1 + bs.length
      · have h3 : a ≤ c ∧ c < a + (bs.length + 1) := by omega
        obtain ⟨d, rfl⟩ : ∃ d, c = a + 1 + d := ⟨c - (a + 1), by omega⟩
        rw [if_pos h2, if_pos h3]
        have h4 : a + 1 + d - a = d + 1 := by omega
        simp [h4]
      · have h3 : ¬ (a ≤ c ∧ c < a + (bs.length + 1)) := by omega
        rw [if_neg h2, if_neg h3, if_neg h1]

/-- A zeroed range reads zero, and every byte outside it is what it was. -/
theorem Mem.read_zero {m : Mem} (a n c : Nat) (h : Mem.wf m = true) :
    Mem.read (Mem.zero m a n) c = if a ≤ c ∧ c < a + n then 0 else Mem.read m c := by
  unfold Mem.read Mem.zero
  rw [look_filter (fun k => k < a || a + n ≤ k) c (Mem.wf_rising h)]
  by_cases h1 : a ≤ c ∧ c < a + n
  · have h2 : ¬ c < a := by omega
    have h3 : ¬ a + n ≤ c := by omega
    simp [h1, h2, h3]
  · by_cases h2 : c < a
    · simp [h1, h2]
    · have h3 : a + n ≤ c := by omega
      simp [h1, h3]

end Sys2Proof.Machine
end

