-- ==== Sys2Proof/Laws/State.lean ====
section
/-! SUPPORT. One lemma per field per named update of the state: what the update leaves in the field. -/

namespace Sys2Proof.Machine.State

variable (s : State)

@[simp] theorem wr_power (i j v : Nat) : (s.wr i j v).power = s.power := rfl
@[simp] theorem wr_time (i j v : Nat) : (s.wr i j v).time = s.time := rfl
@[simp] theorem wr_dict (i j v : Nat) : (s.wr i j v).dict = ins s.dict (keyOf i j) v := rfl
@[simp] theorem wr_force (i j v : Nat) : (s.wr i j v).force = s.force := rfl
@[simp] theorem wr_live (i j v : Nat) : (s.wr i j v).live = s.live := rfl
@[simp] theorem wr_blobs (i j v : Nat) : (s.wr i j v).blobs = s.blobs := rfl
@[simp] theorem wr_blobForce (i j v : Nat) : (s.wr i j v).blobForce = s.blobForce := rfl
@[simp] theorem wr_mem (i j v : Nat) : (s.wr i j v).mem = s.mem := rfl
@[simp] theorem wr_hub (i j v : Nat) : (s.wr i j v).hub = s.hub := rfl
@[simp] theorem wr_sec (i j v : Nat) : (s.wr i j v).sec = s.sec := rfl
@[simp] theorem wr_flash (i j v : Nat) : (s.wr i j v).flash = s.flash := rfl
@[simp] theorem wr_otp (i j v : Nat) : (s.wr i j v).otp = s.otp := rfl
@[simp] theorem wr_sfn (i j v : Nat) : (s.wr i j v).sfn = s.sfn := rfl
@[simp] theorem wr_cells (i j v : Nat) : (s.wr i j v).cells = s.cells := rfl
@[simp] theorem wr_groves (i j v : Nat) : (s.wr i j v).groves = s.groves := rfl
@[simp] theorem wr_clearings (i j v : Nat) : (s.wr i j v).clearings = s.clearings := rfl
@[simp] theorem wr_buckets (i j v : Nat) : (s.wr i j v).buckets = s.buckets := rfl
@[simp] theorem wr_pools (i j v : Nat) : (s.wr i j v).pools = s.pools := rfl
@[simp] theorem wr_lastDraw (i j v : Nat) : (s.wr i j v).lastDraw = s.lastDraw := rfl
@[simp] theorem wr_poison (i j v : Nat) : (s.wr i j v).poison = s.poison := rfl
@[simp] theorem wr_onceAt (i j v : Nat) : (s.wr i j v).onceAt = s.onceAt := rfl
@[simp] theorem wr_pieces (i j v : Nat) : (s.wr i j v).pieces = s.pieces := rfl
@[simp] theorem wr_degraded (i j v : Nat) : (s.wr i j v).degraded = s.degraded := rfl
@[simp] theorem wr_copiers (i j v : Nat) : (s.wr i j v).copiers = s.copiers := rfl
@[simp] theorem wr_ports (i j v : Nat) : (s.wr i j v).ports = s.ports := rfl
@[simp] theorem wr_linkDies (i j v : Nat) : (s.wr i j v).linkDies = s.linkDies := rfl
@[simp] theorem wr_colls (i j v : Nat) : (s.wr i j v).colls = s.colls := rfl
@[simp] theorem wr_waitingChunks (i j v : Nat) : (s.wr i j v).waitingChunks = s.waitingChunks := rfl
@[simp] theorem wr_remotes (i j v : Nat) : (s.wr i j v).remotes = s.remotes := rfl
@[simp] theorem wr_nextTag (i j v : Nat) : (s.wr i j v).nextTag = s.nextTag := rfl
@[simp] theorem wr_arbs (i j v : Nat) : (s.wr i j v).arbs = s.arbs := rfl
@[simp] theorem wr_overruns (i j v : Nat) : (s.wr i j v).overruns = s.overruns := rfl
@[simp] theorem wr_outbox (i j v : Nat) : (s.wr i j v).outbox = s.outbox := rfl
@[simp] theorem wr_free (i j v : Nat) : (s.wr i j v).free = s.free := rfl
@[simp] theorem wr_pending (i j v : Nat) : (s.wr i j v).pending = s.pending := rfl

@[simp] theorem setFrc_power (i j v : Nat) : (s.setFrc i j v).power = s.power := rfl
@[simp] theorem setFrc_time (i j v : Nat) : (s.setFrc i j v).time = s.time := rfl
@[simp] theorem setFrc_dict (i j v : Nat) : (s.setFrc i j v).dict = s.dict := rfl
@[simp] theorem setFrc_force (i j v : Nat) : (s.setFrc i j v).force = ins s.force (keyOf i j) v := rfl
@[simp] theorem setFrc_live (i j v : Nat) : (s.setFrc i j v).live = s.live := rfl
@[simp] theorem setFrc_blobs (i j v : Nat) : (s.setFrc i j v).blobs = s.blobs := rfl
@[simp] theorem setFrc_blobForce (i j v : Nat) : (s.setFrc i j v).blobForce = s.blobForce := rfl
@[simp] theorem setFrc_mem (i j v : Nat) : (s.setFrc i j v).mem = s.mem := rfl
@[simp] theorem setFrc_hub (i j v : Nat) : (s.setFrc i j v).hub = s.hub := rfl
@[simp] theorem setFrc_sec (i j v : Nat) : (s.setFrc i j v).sec = s.sec := rfl
@[simp] theorem setFrc_flash (i j v : Nat) : (s.setFrc i j v).flash = s.flash := rfl
@[simp] theorem setFrc_otp (i j v : Nat) : (s.setFrc i j v).otp = s.otp := rfl
@[simp] theorem setFrc_sfn (i j v : Nat) : (s.setFrc i j v).sfn = s.sfn := rfl
@[simp] theorem setFrc_cells (i j v : Nat) : (s.setFrc i j v).cells = s.cells := rfl
@[simp] theorem setFrc_groves (i j v : Nat) : (s.setFrc i j v).groves = s.groves := rfl
@[simp] theorem setFrc_clearings (i j v : Nat) : (s.setFrc i j v).clearings = s.clearings := rfl
@[simp] theorem setFrc_buckets (i j v : Nat) : (s.setFrc i j v).buckets = s.buckets := rfl
@[simp] theorem setFrc_pools (i j v : Nat) : (s.setFrc i j v).pools = s.pools := rfl
@[simp] theorem setFrc_lastDraw (i j v : Nat) : (s.setFrc i j v).lastDraw = s.lastDraw := rfl
@[simp] theorem setFrc_poison (i j v : Nat) : (s.setFrc i j v).poison = s.poison := rfl
@[simp] theorem setFrc_onceAt (i j v : Nat) : (s.setFrc i j v).onceAt = s.onceAt := rfl
@[simp] theorem setFrc_pieces (i j v : Nat) : (s.setFrc i j v).pieces = s.pieces := rfl
@[simp] theorem setFrc_degraded (i j v : Nat) : (s.setFrc i j v).degraded = s.degraded := rfl
@[simp] theorem setFrc_copiers (i j v : Nat) : (s.setFrc i j v).copiers = s.copiers := rfl
@[simp] theorem setFrc_ports (i j v : Nat) : (s.setFrc i j v).ports = s.ports := rfl
@[simp] theorem setFrc_linkDies (i j v : Nat) : (s.setFrc i j v).linkDies = s.linkDies := rfl
@[simp] theorem setFrc_colls (i j v : Nat) : (s.setFrc i j v).colls = s.colls := rfl
@[simp] theorem setFrc_waitingChunks (i j v : Nat) : (s.setFrc i j v).waitingChunks = s.waitingChunks := rfl
@[simp] theorem setFrc_remotes (i j v : Nat) : (s.setFrc i j v).remotes = s.remotes := rfl
@[simp] theorem setFrc_nextTag (i j v : Nat) : (s.setFrc i j v).nextTag = s.nextTag := rfl
@[simp] theorem setFrc_arbs (i j v : Nat) : (s.setFrc i j v).arbs = s.arbs := rfl
@[simp] theorem setFrc_overruns (i j v : Nat) : (s.setFrc i j v).overruns = s.overruns := rfl
@[simp] theorem setFrc_outbox (i j v : Nat) : (s.setFrc i j v).outbox = s.outbox := rfl
@[simp] theorem setFrc_free (i j v : Nat) : (s.setFrc i j v).free = s.free := rfl
@[simp] theorem setFrc_pending (i j v : Nat) : (s.setFrc i j v).pending = s.pending := rfl

@[simp] theorem wrBlob_power (i j : Nat) (v : List Byte) : (s.wrBlob i j v).power = s.power := rfl
@[simp] theorem wrBlob_time (i j : Nat) (v : List Byte) : (s.wrBlob i j v).time = s.time := rfl
@[simp] theorem wrBlob_dict (i j : Nat) (v : List Byte) : (s.wrBlob i j v).dict = s.dict := rfl
@[simp] theorem wrBlob_force (i j : Nat) (v : List Byte) : (s.wrBlob i j v).force = s.force := rfl
@[simp] theorem wrBlob_live (i j : Nat) (v : List Byte) : (s.wrBlob i j v).live = s.live := rfl
@[simp] theorem wrBlob_blobs (i j : Nat) (v : List Byte) : (s.wrBlob i j v).blobs = ins s.blobs (keyOf i j) v := rfl
@[simp] theorem wrBlob_blobForce (i j : Nat) (v : List Byte) : (s.wrBlob i j v).blobForce = s.blobForce := rfl
@[simp] theorem wrBlob_mem (i j : Nat) (v : List Byte) : (s.wrBlob i j v).mem = s.mem := rfl
@[simp] theorem wrBlob_hub (i j : Nat) (v : List Byte) : (s.wrBlob i j v).hub = s.hub := rfl
@[simp] theorem wrBlob_sec (i j : Nat) (v : List Byte) : (s.wrBlob i j v).sec = s.sec := rfl
@[simp] theorem wrBlob_flash (i j : Nat) (v : List Byte) : (s.wrBlob i j v).flash = s.flash := rfl
@[simp] theorem wrBlob_otp (i j : Nat) (v : List Byte) : (s.wrBlob i j v).otp = s.otp := rfl
@[simp] theorem wrBlob_sfn (i j : Nat) (v : List Byte) : (s.wrBlob i j v).sfn = s.sfn := rfl
@[simp] theorem wrBlob_cells (i j : Nat) (v : List Byte) : (s.wrBlob i j v).cells = s.cells := rfl
@[simp] theorem wrBlob_groves (i j : Nat) (v : List Byte) : (s.wrBlob i j v).groves = s.groves := rfl
@[simp] theorem wrBlob_clearings (i j : Nat) (v : List Byte) : (s.wrBlob i j v).clearings = s.clearings := rfl
@[simp] theorem wrBlob_buckets (i j : Nat) (v : List Byte) : (s.wrBlob i j v).buckets = s.buckets := rfl
@[simp] theorem wrBlob_pools (i j : Nat) (v : List Byte) : (s.wrBlob i j v).pools = s.pools := rfl
@[simp] theorem wrBlob_lastDraw (i j : Nat) (v : List Byte) : (s.wrBlob i j v).lastDraw = s.lastDraw := rfl
@[simp] theorem wrBlob_poison (i j : Nat) (v : List Byte) : (s.wrBlob i j v).poison = s.poison := rfl
@[simp] theorem wrBlob_onceAt (i j : Nat) (v : List Byte) : (s.wrBlob i j v).onceAt = s.onceAt := rfl
@[simp] theorem wrBlob_pieces (i j : Nat) (v : List Byte) : (s.wrBlob i j v).pieces = s.pieces := rfl
@[simp] theorem wrBlob_degraded (i j : Nat) (v : List Byte) : (s.wrBlob i j v).degraded = s.degraded := rfl
@[simp] theorem wrBlob_copiers (i j : Nat) (v : List Byte) : (s.wrBlob i j v).copiers = s.copiers := rfl
@[simp] theorem wrBlob_ports (i j : Nat) (v : List Byte) : (s.wrBlob i j v).ports = s.ports := rfl
@[simp] theorem wrBlob_linkDies (i j : Nat) (v : List Byte) : (s.wrBlob i j v).linkDies = s.linkDies := rfl
@[simp] theorem wrBlob_colls (i j : Nat) (v : List Byte) : (s.wrBlob i j v).colls = s.colls := rfl
@[simp] theorem wrBlob_waitingChunks (i j : Nat) (v : List Byte) : (s.wrBlob i j v).waitingChunks = s.waitingChunks := rfl
@[simp] theorem wrBlob_remotes (i j : Nat) (v : List Byte) : (s.wrBlob i j v).remotes = s.remotes := rfl
@[simp] theorem wrBlob_nextTag (i j : Nat) (v : List Byte) : (s.wrBlob i j v).nextTag = s.nextTag := rfl
@[simp] theorem wrBlob_arbs (i j : Nat) (v : List Byte) : (s.wrBlob i j v).arbs = s.arbs := rfl
@[simp] theorem wrBlob_overruns (i j : Nat) (v : List Byte) : (s.wrBlob i j v).overruns = s.overruns := rfl
@[simp] theorem wrBlob_outbox (i j : Nat) (v : List Byte) : (s.wrBlob i j v).outbox = s.outbox := rfl
@[simp] theorem wrBlob_free (i j : Nat) (v : List Byte) : (s.wrBlob i j v).free = s.free := rfl
@[simp] theorem wrBlob_pending (i j : Nat) (v : List Byte) : (s.wrBlob i j v).pending = s.pending := rfl

@[simp] theorem setFrcBlob_power (i j : Nat) (v : List Byte) : (s.setFrcBlob i j v).power = s.power := rfl
@[simp] theorem setFrcBlob_time (i j : Nat) (v : List Byte) : (s.setFrcBlob i j v).time = s.time := rfl
@[simp] theorem setFrcBlob_dict (i j : Nat) (v : List Byte) : (s.setFrcBlob i j v).dict = s.dict := rfl
@[simp] theorem setFrcBlob_force (i j : Nat) (v : List Byte) : (s.setFrcBlob i j v).force = s.force := rfl
@[simp] theorem setFrcBlob_live (i j : Nat) (v : List Byte) : (s.setFrcBlob i j v).live = s.live := rfl
@[simp] theorem setFrcBlob_blobs (i j : Nat) (v : List Byte) : (s.setFrcBlob i j v).blobs = s.blobs := rfl
@[simp] theorem setFrcBlob_blobForce (i j : Nat) (v : List Byte) : (s.setFrcBlob i j v).blobForce = ins s.blobForce
    (keyOf i j) v := rfl
@[simp] theorem setFrcBlob_mem (i j : Nat) (v : List Byte) : (s.setFrcBlob i j v).mem = s.mem := rfl
@[simp] theorem setFrcBlob_hub (i j : Nat) (v : List Byte) : (s.setFrcBlob i j v).hub = s.hub := rfl
@[simp] theorem setFrcBlob_sec (i j : Nat) (v : List Byte) : (s.setFrcBlob i j v).sec = s.sec := rfl
@[simp] theorem setFrcBlob_flash (i j : Nat) (v : List Byte) : (s.setFrcBlob i j v).flash = s.flash := rfl
@[simp] theorem setFrcBlob_otp (i j : Nat) (v : List Byte) : (s.setFrcBlob i j v).otp = s.otp := rfl
@[simp] theorem setFrcBlob_sfn (i j : Nat) (v : List Byte) : (s.setFrcBlob i j v).sfn = s.sfn := rfl
@[simp] theorem setFrcBlob_cells (i j : Nat) (v : List Byte) : (s.setFrcBlob i j v).cells = s.cells := rfl
@[simp] theorem setFrcBlob_groves (i j : Nat) (v : List Byte) : (s.setFrcBlob i j v).groves = s.groves := rfl
@[simp] theorem setFrcBlob_clearings (i j : Nat) (v : List Byte) : (s.setFrcBlob i j v).clearings = s.clearings := rfl
@[simp] theorem setFrcBlob_buckets (i j : Nat) (v : List Byte) : (s.setFrcBlob i j v).buckets = s.buckets := rfl
@[simp] theorem setFrcBlob_pools (i j : Nat) (v : List Byte) : (s.setFrcBlob i j v).pools = s.pools := rfl
@[simp] theorem setFrcBlob_lastDraw (i j : Nat) (v : List Byte) : (s.setFrcBlob i j v).lastDraw = s.lastDraw := rfl
@[simp] theorem setFrcBlob_poison (i j : Nat) (v : List Byte) : (s.setFrcBlob i j v).poison = s.poison := rfl
@[simp] theorem setFrcBlob_onceAt (i j : Nat) (v : List Byte) : (s.setFrcBlob i j v).onceAt = s.onceAt := rfl
@[simp] theorem setFrcBlob_pieces (i j : Nat) (v : List Byte) : (s.setFrcBlob i j v).pieces = s.pieces := rfl
@[simp] theorem setFrcBlob_degraded (i j : Nat) (v : List Byte) : (s.setFrcBlob i j v).degraded = s.degraded := rfl
@[simp] theorem setFrcBlob_copiers (i j : Nat) (v : List Byte) : (s.setFrcBlob i j v).copiers = s.copiers := rfl
@[simp] theorem setFrcBlob_ports (i j : Nat) (v : List Byte) : (s.setFrcBlob i j v).ports = s.ports := rfl
@[simp] theorem setFrcBlob_linkDies (i j : Nat) (v : List Byte) : (s.setFrcBlob i j v).linkDies = s.linkDies := rfl
@[simp] theorem setFrcBlob_colls (i j : Nat) (v : List Byte) : (s.setFrcBlob i j v).colls = s.colls := rfl
@[simp] theorem setFrcBlob_waitingChunks (i j : Nat) (v : List Byte) :
    (s.setFrcBlob i j v).waitingChunks = s.waitingChunks := rfl
@[simp] theorem setFrcBlob_remotes (i j : Nat) (v : List Byte) : (s.setFrcBlob i j v).remotes = s.remotes := rfl
@[simp] theorem setFrcBlob_nextTag (i j : Nat) (v : List Byte) : (s.setFrcBlob i j v).nextTag = s.nextTag := rfl
@[simp] theorem setFrcBlob_arbs (i j : Nat) (v : List Byte) : (s.setFrcBlob i j v).arbs = s.arbs := rfl
@[simp] theorem setFrcBlob_overruns (i j : Nat) (v : List Byte) : (s.setFrcBlob i j v).overruns = s.overruns := rfl
@[simp] theorem setFrcBlob_outbox (i j : Nat) (v : List Byte) : (s.setFrcBlob i j v).outbox = s.outbox := rfl
@[simp] theorem setFrcBlob_free (i j : Nat) (v : List Byte) : (s.setFrcBlob i j v).free = s.free := rfl
@[simp] theorem setFrcBlob_pending (i j : Nat) (v : List Byte) : (s.setFrcBlob i j v).pending = s.pending := rfl

@[simp] theorem poke_power (a : Nat) (b : List Byte) : (s.poke a b).power = s.power := rfl
@[simp] theorem poke_time (a : Nat) (b : List Byte) : (s.poke a b).time = s.time := rfl
@[simp] theorem poke_dict (a : Nat) (b : List Byte) : (s.poke a b).dict = s.dict := rfl
@[simp] theorem poke_force (a : Nat) (b : List Byte) : (s.poke a b).force = s.force := rfl
@[simp] theorem poke_live (a : Nat) (b : List Byte) : (s.poke a b).live = s.live := rfl
@[simp] theorem poke_blobs (a : Nat) (b : List Byte) : (s.poke a b).blobs = s.blobs := rfl
@[simp] theorem poke_blobForce (a : Nat) (b : List Byte) : (s.poke a b).blobForce = s.blobForce := rfl
@[simp] theorem poke_mem (a : Nat) (b : List Byte) : (s.poke a b).mem = Mem.writes s.mem a b := rfl
@[simp] theorem poke_hub (a : Nat) (b : List Byte) : (s.poke a b).hub = s.hub := rfl
@[simp] theorem poke_sec (a : Nat) (b : List Byte) : (s.poke a b).sec = s.sec := rfl
@[simp] theorem poke_flash (a : Nat) (b : List Byte) : (s.poke a b).flash = s.flash := rfl
@[simp] theorem poke_otp (a : Nat) (b : List Byte) : (s.poke a b).otp = s.otp := rfl
@[simp] theorem poke_sfn (a : Nat) (b : List Byte) : (s.poke a b).sfn = s.sfn := rfl
@[simp] theorem poke_cells (a : Nat) (b : List Byte) : (s.poke a b).cells = s.cells := rfl
@[simp] theorem poke_groves (a : Nat) (b : List Byte) : (s.poke a b).groves = s.groves := rfl
@[simp] theorem poke_clearings (a : Nat) (b : List Byte) : (s.poke a b).clearings = s.clearings := rfl
@[simp] theorem poke_buckets (a : Nat) (b : List Byte) : (s.poke a b).buckets = s.buckets := rfl
@[simp] theorem poke_pools (a : Nat) (b : List Byte) : (s.poke a b).pools = s.pools := rfl
@[simp] theorem poke_lastDraw (a : Nat) (b : List Byte) : (s.poke a b).lastDraw = s.lastDraw := rfl
@[simp] theorem poke_poison (a : Nat) (b : List Byte) : (s.poke a b).poison = s.poison := rfl
@[simp] theorem poke_onceAt (a : Nat) (b : List Byte) : (s.poke a b).onceAt = s.onceAt := rfl
@[simp] theorem poke_pieces (a : Nat) (b : List Byte) : (s.poke a b).pieces = s.pieces := rfl
@[simp] theorem poke_degraded (a : Nat) (b : List Byte) : (s.poke a b).degraded = s.degraded := rfl
@[simp] theorem poke_copiers (a : Nat) (b : List Byte) : (s.poke a b).copiers = s.copiers := rfl
@[simp] theorem poke_ports (a : Nat) (b : List Byte) : (s.poke a b).ports = s.ports := rfl
@[simp] theorem poke_linkDies (a : Nat) (b : List Byte) : (s.poke a b).linkDies = s.linkDies := rfl
@[simp] theorem poke_colls (a : Nat) (b : List Byte) : (s.poke a b).colls = s.colls := rfl
@[simp] theorem poke_waitingChunks (a : Nat) (b : List Byte) : (s.poke a b).waitingChunks = s.waitingChunks := rfl
@[simp] theorem poke_remotes (a : Nat) (b : List Byte) : (s.poke a b).remotes = s.remotes := rfl
@[simp] theorem poke_nextTag (a : Nat) (b : List Byte) : (s.poke a b).nextTag = s.nextTag := rfl
@[simp] theorem poke_arbs (a : Nat) (b : List Byte) : (s.poke a b).arbs = s.arbs := rfl
@[simp] theorem poke_overruns (a : Nat) (b : List Byte) : (s.poke a b).overruns = s.overruns := rfl
@[simp] theorem poke_outbox (a : Nat) (b : List Byte) : (s.poke a b).outbox = s.outbox := rfl
@[simp] theorem poke_free (a : Nat) (b : List Byte) : (s.poke a b).free = s.free := rfl
@[simp] theorem poke_pending (a : Nat) (b : List Byte) : (s.poke a b).pending = s.pending := rfl

@[simp] theorem bump_power (i j k : Nat) : (s.bump i j k).power = s.power := rfl
@[simp] theorem bump_time (i j k : Nat) : (s.bump i j k).time = s.time := rfl
@[simp] theorem bump_force (i j k : Nat) : (s.bump i j k).force = s.force := rfl
@[simp] theorem bump_live (i j k : Nat) : (s.bump i j k).live = s.live := rfl
@[simp] theorem bump_blobs (i j k : Nat) : (s.bump i j k).blobs = s.blobs := rfl
@[simp] theorem bump_blobForce (i j k : Nat) : (s.bump i j k).blobForce = s.blobForce := rfl
@[simp] theorem bump_mem (i j k : Nat) : (s.bump i j k).mem = s.mem := rfl
@[simp] theorem bump_hub (i j k : Nat) : (s.bump i j k).hub = s.hub := rfl
@[simp] theorem bump_sec (i j k : Nat) : (s.bump i j k).sec = s.sec := rfl
@[simp] theorem bump_flash (i j k : Nat) : (s.bump i j k).flash = s.flash := rfl
@[simp] theorem bump_otp (i j k : Nat) : (s.bump i j k).otp = s.otp := rfl
@[simp] theorem bump_sfn (i j k : Nat) : (s.bump i j k).sfn = s.sfn := rfl
@[simp] theorem bump_cells (i j k : Nat) : (s.bump i j k).cells = s.cells := rfl
@[simp] theorem bump_groves (i j k : Nat) : (s.bump i j k).groves = s.groves := rfl
@[simp] theorem bump_clearings (i j k : Nat) : (s.bump i j k).clearings = s.clearings := rfl
@[simp] theorem bump_buckets (i j k : Nat) : (s.bump i j k).buckets = s.buckets := rfl
@[simp] theorem bump_pools (i j k : Nat) : (s.bump i j k).pools = s.pools := rfl
@[simp] theorem bump_lastDraw (i j k : Nat) : (s.bump i j k).lastDraw = s.lastDraw := rfl
@[simp] theorem bump_poison (i j k : Nat) : (s.bump i j k).poison = s.poison := rfl
@[simp] theorem bump_onceAt (i j k : Nat) : (s.bump i j k).onceAt = s.onceAt := rfl
@[simp] theorem bump_pieces (i j k : Nat) : (s.bump i j k).pieces = s.pieces := rfl
@[simp] theorem bump_degraded (i j k : Nat) : (s.bump i j k).degraded = s.degraded := rfl
@[simp] theorem bump_copiers (i j k : Nat) : (s.bump i j k).copiers = s.copiers := rfl
@[simp] theorem bump_ports (i j k : Nat) : (s.bump i j k).ports = s.ports := rfl
@[simp] theorem bump_linkDies (i j k : Nat) : (s.bump i j k).linkDies = s.linkDies := rfl
@[simp] theorem bump_colls (i j k : Nat) : (s.bump i j k).colls = s.colls := rfl
@[simp] theorem bump_waitingChunks (i j k : Nat) : (s.bump i j k).waitingChunks = s.waitingChunks := rfl
@[simp] theorem bump_remotes (i j k : Nat) : (s.bump i j k).remotes = s.remotes := rfl
@[simp] theorem bump_nextTag (i j k : Nat) : (s.bump i j k).nextTag = s.nextTag := rfl
@[simp] theorem bump_arbs (i j k : Nat) : (s.bump i j k).arbs = s.arbs := rfl
@[simp] theorem bump_overruns (i j k : Nat) : (s.bump i j k).overruns = s.overruns := rfl
@[simp] theorem bump_outbox (i j k : Nat) : (s.bump i j k).outbox = s.outbox := rfl
@[simp] theorem bump_free (i j k : Nat) : (s.bump i j k).free = s.free := rfl
@[simp] theorem bump_pending (i j k : Nat) : (s.bump i j k).pending = s.pending := rfl

@[simp] theorem bumpLive_power (i j k : Nat) : (s.bumpLive i j k).power = s.power := rfl
@[simp] theorem bumpLive_time (i j k : Nat) : (s.bumpLive i j k).time = s.time := rfl
@[simp] theorem bumpLive_dict (i j k : Nat) : (s.bumpLive i j k).dict = s.dict := rfl
@[simp] theorem bumpLive_force (i j k : Nat) : (s.bumpLive i j k).force = s.force := rfl
@[simp] theorem bumpLive_blobs (i j k : Nat) : (s.bumpLive i j k).blobs = s.blobs := rfl
@[simp] theorem bumpLive_blobForce (i j k : Nat) : (s.bumpLive i j k).blobForce = s.blobForce := rfl
@[simp] theorem bumpLive_mem (i j k : Nat) : (s.bumpLive i j k).mem = s.mem := rfl
@[simp] theorem bumpLive_hub (i j k : Nat) : (s.bumpLive i j k).hub = s.hub := rfl
@[simp] theorem bumpLive_sec (i j k : Nat) : (s.bumpLive i j k).sec = s.sec := rfl
@[simp] theorem bumpLive_flash (i j k : Nat) : (s.bumpLive i j k).flash = s.flash := rfl
@[simp] theorem bumpLive_otp (i j k : Nat) : (s.bumpLive i j k).otp = s.otp := rfl
@[simp] theorem bumpLive_sfn (i j k : Nat) : (s.bumpLive i j k).sfn = s.sfn := rfl
@[simp] theorem bumpLive_cells (i j k : Nat) : (s.bumpLive i j k).cells = s.cells := rfl
@[simp] theorem bumpLive_groves (i j k : Nat) : (s.bumpLive i j k).groves = s.groves := rfl
@[simp] theorem bumpLive_clearings (i j k : Nat) : (s.bumpLive i j k).clearings = s.clearings := rfl
@[simp] theorem bumpLive_buckets (i j k : Nat) : (s.bumpLive i j k).buckets = s.buckets := rfl
@[simp] theorem bumpLive_pools (i j k : Nat) : (s.bumpLive i j k).pools = s.pools := rfl
@[simp] theorem bumpLive_lastDraw (i j k : Nat) : (s.bumpLive i j k).lastDraw = s.lastDraw := rfl
@[simp] theorem bumpLive_poison (i j k : Nat) : (s.bumpLive i j k).poison = s.poison := rfl
@[simp] theorem bumpLive_onceAt (i j k : Nat) : (s.bumpLive i j k).onceAt = s.onceAt := rfl
@[simp] theorem bumpLive_pieces (i j k : Nat) : (s.bumpLive i j k).pieces = s.pieces := rfl
@[simp] theorem bumpLive_degraded (i j k : Nat) : (s.bumpLive i j k).degraded = s.degraded := rfl
@[simp] theorem bumpLive_copiers (i j k : Nat) : (s.bumpLive i j k).copiers = s.copiers := rfl
@[simp] theorem bumpLive_ports (i j k : Nat) : (s.bumpLive i j k).ports = s.ports := rfl
@[simp] theorem bumpLive_linkDies (i j k : Nat) : (s.bumpLive i j k).linkDies = s.linkDies := rfl
@[simp] theorem bumpLive_colls (i j k : Nat) : (s.bumpLive i j k).colls = s.colls := rfl
@[simp] theorem bumpLive_waitingChunks (i j k : Nat) : (s.bumpLive i j k).waitingChunks = s.waitingChunks := rfl
@[simp] theorem bumpLive_remotes (i j k : Nat) : (s.bumpLive i j k).remotes = s.remotes := rfl
@[simp] theorem bumpLive_nextTag (i j k : Nat) : (s.bumpLive i j k).nextTag = s.nextTag := rfl
@[simp] theorem bumpLive_arbs (i j k : Nat) : (s.bumpLive i j k).arbs = s.arbs := rfl
@[simp] theorem bumpLive_overruns (i j k : Nat) : (s.bumpLive i j k).overruns = s.overruns := rfl
@[simp] theorem bumpLive_outbox (i j k : Nat) : (s.bumpLive i j k).outbox = s.outbox := rfl
@[simp] theorem bumpLive_free (i j k : Nat) : (s.bumpLive i j k).free = s.free := rfl
@[simp] theorem bumpLive_pending (i j k : Nat) : (s.bumpLive i j k).pending = s.pending := rfl

@[simp] theorem setCell_power (g c : Nat) (x : Cell) : (s.setCell g c x).power = s.power := rfl
@[simp] theorem setCell_time (g c : Nat) (x : Cell) : (s.setCell g c x).time = s.time := rfl
@[simp] theorem setCell_dict (g c : Nat) (x : Cell) : (s.setCell g c x).dict = s.dict := rfl
@[simp] theorem setCell_force (g c : Nat) (x : Cell) : (s.setCell g c x).force = s.force := rfl
@[simp] theorem setCell_live (g c : Nat) (x : Cell) : (s.setCell g c x).live = s.live := rfl
@[simp] theorem setCell_blobs (g c : Nat) (x : Cell) : (s.setCell g c x).blobs = s.blobs := rfl
@[simp] theorem setCell_blobForce (g c : Nat) (x : Cell) : (s.setCell g c x).blobForce = s.blobForce := rfl
@[simp] theorem setCell_mem (g c : Nat) (x : Cell) : (s.setCell g c x).mem = s.mem := rfl
@[simp] theorem setCell_hub (g c : Nat) (x : Cell) : (s.setCell g c x).hub = s.hub := rfl
@[simp] theorem setCell_sec (g c : Nat) (x : Cell) : (s.setCell g c x).sec = s.sec := rfl
@[simp] theorem setCell_flash (g c : Nat) (x : Cell) : (s.setCell g c x).flash = s.flash := rfl
@[simp] theorem setCell_otp (g c : Nat) (x : Cell) : (s.setCell g c x).otp = s.otp := rfl
@[simp] theorem setCell_sfn (g c : Nat) (x : Cell) : (s.setCell g c x).sfn = s.sfn := rfl
@[simp] theorem setCell_cells (g c : Nat) (x : Cell) : (s.setCell g c x).cells = ins s.cells (g * 256 + c) x := rfl
@[simp] theorem setCell_groves (g c : Nat) (x : Cell) : (s.setCell g c x).groves = s.groves := rfl
@[simp] theorem setCell_clearings (g c : Nat) (x : Cell) : (s.setCell g c x).clearings = s.clearings := rfl
@[simp] theorem setCell_buckets (g c : Nat) (x : Cell) : (s.setCell g c x).buckets = s.buckets := rfl
@[simp] theorem setCell_pools (g c : Nat) (x : Cell) : (s.setCell g c x).pools = s.pools := rfl
@[simp] theorem setCell_lastDraw (g c : Nat) (x : Cell) : (s.setCell g c x).lastDraw = s.lastDraw := rfl
@[simp] theorem setCell_poison (g c : Nat) (x : Cell) : (s.setCell g c x).poison = s.poison := rfl
@[simp] theorem setCell_onceAt (g c : Nat) (x : Cell) : (s.setCell g c x).onceAt = s.onceAt := rfl
@[simp] theorem setCell_pieces (g c : Nat) (x : Cell) : (s.setCell g c x).pieces = s.pieces := rfl
@[simp] theorem setCell_degraded (g c : Nat) (x : Cell) : (s.setCell g c x).degraded = s.degraded := rfl
@[simp] theorem setCell_copiers (g c : Nat) (x : Cell) : (s.setCell g c x).copiers = s.copiers := rfl
@[simp] theorem setCell_ports (g c : Nat) (x : Cell) : (s.setCell g c x).ports = s.ports := rfl
@[simp] theorem setCell_linkDies (g c : Nat) (x : Cell) : (s.setCell g c x).linkDies = s.linkDies := rfl
@[simp] theorem setCell_colls (g c : Nat) (x : Cell) : (s.setCell g c x).colls = s.colls := rfl
@[simp] theorem setCell_waitingChunks (g c : Nat) (x : Cell) : (s.setCell g c x).waitingChunks = s.waitingChunks := rfl
@[simp] theorem setCell_remotes (g c : Nat) (x : Cell) : (s.setCell g c x).remotes = s.remotes := rfl
@[simp] theorem setCell_nextTag (g c : Nat) (x : Cell) : (s.setCell g c x).nextTag = s.nextTag := rfl
@[simp] theorem setCell_arbs (g c : Nat) (x : Cell) : (s.setCell g c x).arbs = s.arbs := rfl
@[simp] theorem setCell_overruns (g c : Nat) (x : Cell) : (s.setCell g c x).overruns = s.overruns := rfl
@[simp] theorem setCell_outbox (g c : Nat) (x : Cell) : (s.setCell g c x).outbox = s.outbox := rfl
@[simp] theorem setCell_free (g c : Nat) (x : Cell) : (s.setCell g c x).free = s.free := rfl
@[simp] theorem setCell_pending (g c : Nat) (x : Cell) : (s.setCell g c x).pending = s.pending := rfl

@[simp] theorem setGrove_power (g : Nat) (x : Grove) : (s.setGrove g x).power = s.power := rfl
@[simp] theorem setGrove_time (g : Nat) (x : Grove) : (s.setGrove g x).time = s.time := rfl
@[simp] theorem setGrove_dict (g : Nat) (x : Grove) : (s.setGrove g x).dict = s.dict := rfl
@[simp] theorem setGrove_force (g : Nat) (x : Grove) : (s.setGrove g x).force = s.force := rfl
@[simp] theorem setGrove_live (g : Nat) (x : Grove) : (s.setGrove g x).live = s.live := rfl
@[simp] theorem setGrove_blobs (g : Nat) (x : Grove) : (s.setGrove g x).blobs = s.blobs := rfl
@[simp] theorem setGrove_blobForce (g : Nat) (x : Grove) : (s.setGrove g x).blobForce = s.blobForce := rfl
@[simp] theorem setGrove_mem (g : Nat) (x : Grove) : (s.setGrove g x).mem = s.mem := rfl
@[simp] theorem setGrove_hub (g : Nat) (x : Grove) : (s.setGrove g x).hub = s.hub := rfl
@[simp] theorem setGrove_sec (g : Nat) (x : Grove) : (s.setGrove g x).sec = s.sec := rfl
@[simp] theorem setGrove_flash (g : Nat) (x : Grove) : (s.setGrove g x).flash = s.flash := rfl
@[simp] theorem setGrove_otp (g : Nat) (x : Grove) : (s.setGrove g x).otp = s.otp := rfl
@[simp] theorem setGrove_sfn (g : Nat) (x : Grove) : (s.setGrove g x).sfn = s.sfn := rfl
@[simp] theorem setGrove_cells (g : Nat) (x : Grove) : (s.setGrove g x).cells = s.cells := rfl
@[simp] theorem setGrove_groves (g : Nat) (x : Grove) : (s.setGrove g x).groves = ins s.groves g x := rfl
@[simp] theorem setGrove_clearings (g : Nat) (x : Grove) : (s.setGrove g x).clearings = s.clearings := rfl
@[simp] theorem setGrove_buckets (g : Nat) (x : Grove) : (s.setGrove g x).buckets = s.buckets := rfl
@[simp] theorem setGrove_pools (g : Nat) (x : Grove) : (s.setGrove g x).pools = s.pools := rfl
@[simp] theorem setGrove_lastDraw (g : Nat) (x : Grove) : (s.setGrove g x).lastDraw = s.lastDraw := rfl
@[simp] theorem setGrove_poison (g : Nat) (x : Grove) : (s.setGrove g x).poison = s.poison := rfl
@[simp] theorem setGrove_onceAt (g : Nat) (x : Grove) : (s.setGrove g x).onceAt = s.onceAt := rfl
@[simp] theorem setGrove_pieces (g : Nat) (x : Grove) : (s.setGrove g x).pieces = s.pieces := rfl
@[simp] theorem setGrove_degraded (g : Nat) (x : Grove) : (s.setGrove g x).degraded = s.degraded := rfl
@[simp] theorem setGrove_copiers (g : Nat) (x : Grove) : (s.setGrove g x).copiers = s.copiers := rfl
@[simp] theorem setGrove_ports (g : Nat) (x : Grove) : (s.setGrove g x).ports = s.ports := rfl
@[simp] theorem setGrove_linkDies (g : Nat) (x : Grove) : (s.setGrove g x).linkDies = s.linkDies := rfl
@[simp] theorem setGrove_colls (g : Nat) (x : Grove) : (s.setGrove g x).colls = s.colls := rfl
@[simp] theorem setGrove_waitingChunks (g : Nat) (x : Grove) : (s.setGrove g x).waitingChunks = s.waitingChunks := rfl
@[simp] theorem setGrove_remotes (g : Nat) (x : Grove) : (s.setGrove g x).remotes = s.remotes := rfl
@[simp] theorem setGrove_nextTag (g : Nat) (x : Grove) : (s.setGrove g x).nextTag = s.nextTag := rfl
@[simp] theorem setGrove_arbs (g : Nat) (x : Grove) : (s.setGrove g x).arbs = s.arbs := rfl
@[simp] theorem setGrove_overruns (g : Nat) (x : Grove) : (s.setGrove g x).overruns = s.overruns := rfl
@[simp] theorem setGrove_outbox (g : Nat) (x : Grove) : (s.setGrove g x).outbox = s.outbox := rfl
@[simp] theorem setGrove_free (g : Nat) (x : Grove) : (s.setGrove g x).free = s.free := rfl
@[simp] theorem setGrove_pending (g : Nat) (x : Grove) : (s.setGrove g x).pending = s.pending := rfl

@[simp] theorem setClr_power (n : Nat) (x : Clearing) : (s.setClr n x).power = s.power := rfl
@[simp] theorem setClr_time (n : Nat) (x : Clearing) : (s.setClr n x).time = s.time := rfl
@[simp] theorem setClr_dict (n : Nat) (x : Clearing) : (s.setClr n x).dict = s.dict := rfl
@[simp] theorem setClr_force (n : Nat) (x : Clearing) : (s.setClr n x).force = s.force := rfl
@[simp] theorem setClr_live (n : Nat) (x : Clearing) : (s.setClr n x).live = s.live := rfl
@[simp] theorem setClr_blobs (n : Nat) (x : Clearing) : (s.setClr n x).blobs = s.blobs := rfl
@[simp] theorem setClr_blobForce (n : Nat) (x : Clearing) : (s.setClr n x).blobForce = s.blobForce := rfl
@[simp] theorem setClr_mem (n : Nat) (x : Clearing) : (s.setClr n x).mem = s.mem := rfl
@[simp] theorem setClr_hub (n : Nat) (x : Clearing) : (s.setClr n x).hub = s.hub := rfl
@[simp] theorem setClr_sec (n : Nat) (x : Clearing) : (s.setClr n x).sec = s.sec := rfl
@[simp] theorem setClr_flash (n : Nat) (x : Clearing) : (s.setClr n x).flash = s.flash := rfl
@[simp] theorem setClr_otp (n : Nat) (x : Clearing) : (s.setClr n x).otp = s.otp := rfl
@[simp] theorem setClr_sfn (n : Nat) (x : Clearing) : (s.setClr n x).sfn = s.sfn := rfl
@[simp] theorem setClr_cells (n : Nat) (x : Clearing) : (s.setClr n x).cells = s.cells := rfl
@[simp] theorem setClr_groves (n : Nat) (x : Clearing) : (s.setClr n x).groves = s.groves := rfl
@[simp] theorem setClr_clearings (n : Nat) (x : Clearing) : (s.setClr n x).clearings = ins s.clearings n x := rfl
@[simp] theorem setClr_buckets (n : Nat) (x : Clearing) : (s.setClr n x).buckets = s.buckets := rfl
@[simp] theorem setClr_pools (n : Nat) (x : Clearing) : (s.setClr n x).pools = s.pools := rfl
@[simp] theorem setClr_lastDraw (n : Nat) (x : Clearing) : (s.setClr n x).lastDraw = s.lastDraw := rfl
@[simp] theorem setClr_poison (n : Nat) (x : Clearing) : (s.setClr n x).poison = s.poison := rfl
@[simp] theorem setClr_onceAt (n : Nat) (x : Clearing) : (s.setClr n x).onceAt = s.onceAt := rfl
@[simp] theorem setClr_pieces (n : Nat) (x : Clearing) : (s.setClr n x).pieces = s.pieces := rfl
@[simp] theorem setClr_degraded (n : Nat) (x : Clearing) : (s.setClr n x).degraded = s.degraded := rfl
@[simp] theorem setClr_copiers (n : Nat) (x : Clearing) : (s.setClr n x).copiers = s.copiers := rfl
@[simp] theorem setClr_ports (n : Nat) (x : Clearing) : (s.setClr n x).ports = s.ports := rfl
@[simp] theorem setClr_linkDies (n : Nat) (x : Clearing) : (s.setClr n x).linkDies = s.linkDies := rfl
@[simp] theorem setClr_colls (n : Nat) (x : Clearing) : (s.setClr n x).colls = s.colls := rfl
@[simp] theorem setClr_waitingChunks (n : Nat) (x : Clearing) : (s.setClr n x).waitingChunks = s.waitingChunks := rfl
@[simp] theorem setClr_remotes (n : Nat) (x : Clearing) : (s.setClr n x).remotes = s.remotes := rfl
@[simp] theorem setClr_nextTag (n : Nat) (x : Clearing) : (s.setClr n x).nextTag = s.nextTag := rfl
@[simp] theorem setClr_arbs (n : Nat) (x : Clearing) : (s.setClr n x).arbs = s.arbs := rfl
@[simp] theorem setClr_overruns (n : Nat) (x : Clearing) : (s.setClr n x).overruns = s.overruns := rfl
@[simp] theorem setClr_outbox (n : Nat) (x : Clearing) : (s.setClr n x).outbox = s.outbox := rfl
@[simp] theorem setClr_free (n : Nat) (x : Clearing) : (s.setClr n x).free = s.free := rfl
@[simp] theorem setClr_pending (n : Nat) (x : Clearing) : (s.setClr n x).pending = s.pending := rfl

@[simp] theorem setPort_power (p : Nat) (x : Port) : (s.setPort p x).power = s.power := rfl
@[simp] theorem setPort_time (p : Nat) (x : Port) : (s.setPort p x).time = s.time := rfl
@[simp] theorem setPort_dict (p : Nat) (x : Port) : (s.setPort p x).dict = s.dict := rfl
@[simp] theorem setPort_force (p : Nat) (x : Port) : (s.setPort p x).force = s.force := rfl
@[simp] theorem setPort_live (p : Nat) (x : Port) : (s.setPort p x).live = s.live := rfl
@[simp] theorem setPort_blobs (p : Nat) (x : Port) : (s.setPort p x).blobs = s.blobs := rfl
@[simp] theorem setPort_blobForce (p : Nat) (x : Port) : (s.setPort p x).blobForce = s.blobForce := rfl
@[simp] theorem setPort_mem (p : Nat) (x : Port) : (s.setPort p x).mem = s.mem := rfl
@[simp] theorem setPort_hub (p : Nat) (x : Port) : (s.setPort p x).hub = s.hub := rfl
@[simp] theorem setPort_sec (p : Nat) (x : Port) : (s.setPort p x).sec = s.sec := rfl
@[simp] theorem setPort_flash (p : Nat) (x : Port) : (s.setPort p x).flash = s.flash := rfl
@[simp] theorem setPort_otp (p : Nat) (x : Port) : (s.setPort p x).otp = s.otp := rfl
@[simp] theorem setPort_sfn (p : Nat) (x : Port) : (s.setPort p x).sfn = s.sfn := rfl
@[simp] theorem setPort_cells (p : Nat) (x : Port) : (s.setPort p x).cells = s.cells := rfl
@[simp] theorem setPort_groves (p : Nat) (x : Port) : (s.setPort p x).groves = s.groves := rfl
@[simp] theorem setPort_clearings (p : Nat) (x : Port) : (s.setPort p x).clearings = s.clearings := rfl
@[simp] theorem setPort_buckets (p : Nat) (x : Port) : (s.setPort p x).buckets = s.buckets := rfl
@[simp] theorem setPort_pools (p : Nat) (x : Port) : (s.setPort p x).pools = s.pools := rfl
@[simp] theorem setPort_lastDraw (p : Nat) (x : Port) : (s.setPort p x).lastDraw = s.lastDraw := rfl
@[simp] theorem setPort_poison (p : Nat) (x : Port) : (s.setPort p x).poison = s.poison := rfl
@[simp] theorem setPort_onceAt (p : Nat) (x : Port) : (s.setPort p x).onceAt = s.onceAt := rfl
@[simp] theorem setPort_pieces (p : Nat) (x : Port) : (s.setPort p x).pieces = s.pieces := rfl
@[simp] theorem setPort_degraded (p : Nat) (x : Port) : (s.setPort p x).degraded = s.degraded := rfl
@[simp] theorem setPort_copiers (p : Nat) (x : Port) : (s.setPort p x).copiers = s.copiers := rfl
@[simp] theorem setPort_ports (p : Nat) (x : Port) : (s.setPort p x).ports = ins s.ports p x := rfl
@[simp] theorem setPort_linkDies (p : Nat) (x : Port) : (s.setPort p x).linkDies = s.linkDies := rfl
@[simp] theorem setPort_colls (p : Nat) (x : Port) : (s.setPort p x).colls = s.colls := rfl
@[simp] theorem setPort_waitingChunks (p : Nat) (x : Port) : (s.setPort p x).waitingChunks = s.waitingChunks := rfl
@[simp] theorem setPort_remotes (p : Nat) (x : Port) : (s.setPort p x).remotes = s.remotes := rfl
@[simp] theorem setPort_nextTag (p : Nat) (x : Port) : (s.setPort p x).nextTag = s.nextTag := rfl
@[simp] theorem setPort_arbs (p : Nat) (x : Port) : (s.setPort p x).arbs = s.arbs := rfl
@[simp] theorem setPort_overruns (p : Nat) (x : Port) : (s.setPort p x).overruns = s.overruns := rfl
@[simp] theorem setPort_outbox (p : Nat) (x : Port) : (s.setPort p x).outbox = s.outbox := rfl
@[simp] theorem setPort_free (p : Nat) (x : Port) : (s.setPort p x).free = s.free := rfl
@[simp] theorem setPort_pending (p : Nat) (x : Port) : (s.setPort p x).pending = s.pending := rfl

@[simp] theorem setDie_power (d : Nat) (x : LinkDie) : (s.setDie d x).power = s.power := rfl
@[simp] theorem setDie_time (d : Nat) (x : LinkDie) : (s.setDie d x).time = s.time := rfl
@[simp] theorem setDie_dict (d : Nat) (x : LinkDie) : (s.setDie d x).dict = s.dict := rfl
@[simp] theorem setDie_force (d : Nat) (x : LinkDie) : (s.setDie d x).force = s.force := rfl
@[simp] theorem setDie_live (d : Nat) (x : LinkDie) : (s.setDie d x).live = s.live := rfl
@[simp] theorem setDie_blobs (d : Nat) (x : LinkDie) : (s.setDie d x).blobs = s.blobs := rfl
@[simp] theorem setDie_blobForce (d : Nat) (x : LinkDie) : (s.setDie d x).blobForce = s.blobForce := rfl
@[simp] theorem setDie_mem (d : Nat) (x : LinkDie) : (s.setDie d x).mem = s.mem := rfl
@[simp] theorem setDie_hub (d : Nat) (x : LinkDie) : (s.setDie d x).hub = s.hub := rfl
@[simp] theorem setDie_sec (d : Nat) (x : LinkDie) : (s.setDie d x).sec = s.sec := rfl
@[simp] theorem setDie_flash (d : Nat) (x : LinkDie) : (s.setDie d x).flash = s.flash := rfl
@[simp] theorem setDie_otp (d : Nat) (x : LinkDie) : (s.setDie d x).otp = s.otp := rfl
@[simp] theorem setDie_sfn (d : Nat) (x : LinkDie) : (s.setDie d x).sfn = s.sfn := rfl
@[simp] theorem setDie_cells (d : Nat) (x : LinkDie) : (s.setDie d x).cells = s.cells := rfl
@[simp] theorem setDie_groves (d : Nat) (x : LinkDie) : (s.setDie d x).groves = s.groves := rfl
@[simp] theorem setDie_clearings (d : Nat) (x : LinkDie) : (s.setDie d x).clearings = s.clearings := rfl
@[simp] theorem setDie_buckets (d : Nat) (x : LinkDie) : (s.setDie d x).buckets = s.buckets := rfl
@[simp] theorem setDie_pools (d : Nat) (x : LinkDie) : (s.setDie d x).pools = s.pools := rfl
@[simp] theorem setDie_lastDraw (d : Nat) (x : LinkDie) : (s.setDie d x).lastDraw = s.lastDraw := rfl
@[simp] theorem setDie_poison (d : Nat) (x : LinkDie) : (s.setDie d x).poison = s.poison := rfl
@[simp] theorem setDie_onceAt (d : Nat) (x : LinkDie) : (s.setDie d x).onceAt = s.onceAt := rfl
@[simp] theorem setDie_pieces (d : Nat) (x : LinkDie) : (s.setDie d x).pieces = s.pieces := rfl
@[simp] theorem setDie_degraded (d : Nat) (x : LinkDie) : (s.setDie d x).degraded = s.degraded := rfl
@[simp] theorem setDie_copiers (d : Nat) (x : LinkDie) : (s.setDie d x).copiers = s.copiers := rfl
@[simp] theorem setDie_ports (d : Nat) (x : LinkDie) : (s.setDie d x).ports = s.ports := rfl
@[simp] theorem setDie_linkDies (d : Nat) (x : LinkDie) : (s.setDie d x).linkDies = ins s.linkDies d x := rfl
@[simp] theorem setDie_colls (d : Nat) (x : LinkDie) : (s.setDie d x).colls = s.colls := rfl
@[simp] theorem setDie_waitingChunks (d : Nat) (x : LinkDie) : (s.setDie d x).waitingChunks = s.waitingChunks := rfl
@[simp] theorem setDie_remotes (d : Nat) (x : LinkDie) : (s.setDie d x).remotes = s.remotes := rfl
@[simp] theorem setDie_nextTag (d : Nat) (x : LinkDie) : (s.setDie d x).nextTag = s.nextTag := rfl
@[simp] theorem setDie_arbs (d : Nat) (x : LinkDie) : (s.setDie d x).arbs = s.arbs := rfl
@[simp] theorem setDie_overruns (d : Nat) (x : LinkDie) : (s.setDie d x).overruns = s.overruns := rfl
@[simp] theorem setDie_outbox (d : Nat) (x : LinkDie) : (s.setDie d x).outbox = s.outbox := rfl
@[simp] theorem setDie_free (d : Nat) (x : LinkDie) : (s.setDie d x).free = s.free := rfl
@[simp] theorem setDie_pending (d : Nat) (x : LinkDie) : (s.setDie d x).pending = s.pending := rfl

@[simp] theorem setCopier_power (k : Nat) (x : Copier) : (s.setCopier k x).power = s.power := rfl
@[simp] theorem setCopier_time (k : Nat) (x : Copier) : (s.setCopier k x).time = s.time := rfl
@[simp] theorem setCopier_dict (k : Nat) (x : Copier) : (s.setCopier k x).dict = s.dict := rfl
@[simp] theorem setCopier_force (k : Nat) (x : Copier) : (s.setCopier k x).force = s.force := rfl
@[simp] theorem setCopier_live (k : Nat) (x : Copier) : (s.setCopier k x).live = s.live := rfl
@[simp] theorem setCopier_blobs (k : Nat) (x : Copier) : (s.setCopier k x).blobs = s.blobs := rfl
@[simp] theorem setCopier_blobForce (k : Nat) (x : Copier) : (s.setCopier k x).blobForce = s.blobForce := rfl
@[simp] theorem setCopier_mem (k : Nat) (x : Copier) : (s.setCopier k x).mem = s.mem := rfl
@[simp] theorem setCopier_hub (k : Nat) (x : Copier) : (s.setCopier k x).hub = s.hub := rfl
@[simp] theorem setCopier_sec (k : Nat) (x : Copier) : (s.setCopier k x).sec = s.sec := rfl
@[simp] theorem setCopier_flash (k : Nat) (x : Copier) : (s.setCopier k x).flash = s.flash := rfl
@[simp] theorem setCopier_otp (k : Nat) (x : Copier) : (s.setCopier k x).otp = s.otp := rfl
@[simp] theorem setCopier_sfn (k : Nat) (x : Copier) : (s.setCopier k x).sfn = s.sfn := rfl
@[simp] theorem setCopier_cells (k : Nat) (x : Copier) : (s.setCopier k x).cells = s.cells := rfl
@[simp] theorem setCopier_groves (k : Nat) (x : Copier) : (s.setCopier k x).groves = s.groves := rfl
@[simp] theorem setCopier_clearings (k : Nat) (x : Copier) : (s.setCopier k x).clearings = s.clearings := rfl
@[simp] theorem setCopier_buckets (k : Nat) (x : Copier) : (s.setCopier k x).buckets = s.buckets := rfl
@[simp] theorem setCopier_pools (k : Nat) (x : Copier) : (s.setCopier k x).pools = s.pools := rfl
@[simp] theorem setCopier_lastDraw (k : Nat) (x : Copier) : (s.setCopier k x).lastDraw = s.lastDraw := rfl
@[simp] theorem setCopier_poison (k : Nat) (x : Copier) : (s.setCopier k x).poison = s.poison := rfl
@[simp] theorem setCopier_onceAt (k : Nat) (x : Copier) : (s.setCopier k x).onceAt = s.onceAt := rfl
@[simp] theorem setCopier_pieces (k : Nat) (x : Copier) : (s.setCopier k x).pieces = s.pieces := rfl
@[simp] theorem setCopier_degraded (k : Nat) (x : Copier) : (s.setCopier k x).degraded = s.degraded := rfl
@[simp] theorem setCopier_copiers (k : Nat) (x : Copier) : (s.setCopier k x).copiers = ins s.copiers k x := rfl
@[simp] theorem setCopier_ports (k : Nat) (x : Copier) : (s.setCopier k x).ports = s.ports := rfl
@[simp] theorem setCopier_linkDies (k : Nat) (x : Copier) : (s.setCopier k x).linkDies = s.linkDies := rfl
@[simp] theorem setCopier_colls (k : Nat) (x : Copier) : (s.setCopier k x).colls = s.colls := rfl
@[simp] theorem setCopier_waitingChunks (k : Nat) (x : Copier) : (s.setCopier k x).waitingChunks = s.waitingChunks := rfl
@[simp] theorem setCopier_remotes (k : Nat) (x : Copier) : (s.setCopier k x).remotes = s.remotes := rfl
@[simp] theorem setCopier_nextTag (k : Nat) (x : Copier) : (s.setCopier k x).nextTag = s.nextTag := rfl
@[simp] theorem setCopier_arbs (k : Nat) (x : Copier) : (s.setCopier k x).arbs = s.arbs := rfl
@[simp] theorem setCopier_overruns (k : Nat) (x : Copier) : (s.setCopier k x).overruns = s.overruns := rfl
@[simp] theorem setCopier_outbox (k : Nat) (x : Copier) : (s.setCopier k x).outbox = s.outbox := rfl
@[simp] theorem setCopier_free (k : Nat) (x : Copier) : (s.setCopier k x).free = s.free := rfl
@[simp] theorem setCopier_pending (k : Nat) (x : Copier) : (s.setCopier k x).pending = s.pending := rfl

@[simp] theorem setColl_power (n i : Nat) (x : Coll) : (s.setColl n i x).power = s.power := rfl
@[simp] theorem setColl_time (n i : Nat) (x : Coll) : (s.setColl n i x).time = s.time := rfl
@[simp] theorem setColl_dict (n i : Nat) (x : Coll) : (s.setColl n i x).dict = s.dict := rfl
@[simp] theorem setColl_force (n i : Nat) (x : Coll) : (s.setColl n i x).force = s.force := rfl
@[simp] theorem setColl_live (n i : Nat) (x : Coll) : (s.setColl n i x).live = s.live := rfl
@[simp] theorem setColl_blobs (n i : Nat) (x : Coll) : (s.setColl n i x).blobs = s.blobs := rfl
@[simp] theorem setColl_blobForce (n i : Nat) (x : Coll) : (s.setColl n i x).blobForce = s.blobForce := rfl
@[simp] theorem setColl_mem (n i : Nat) (x : Coll) : (s.setColl n i x).mem = s.mem := rfl
@[simp] theorem setColl_hub (n i : Nat) (x : Coll) : (s.setColl n i x).hub = s.hub := rfl
@[simp] theorem setColl_sec (n i : Nat) (x : Coll) : (s.setColl n i x).sec = s.sec := rfl
@[simp] theorem setColl_flash (n i : Nat) (x : Coll) : (s.setColl n i x).flash = s.flash := rfl
@[simp] theorem setColl_otp (n i : Nat) (x : Coll) : (s.setColl n i x).otp = s.otp := rfl
@[simp] theorem setColl_sfn (n i : Nat) (x : Coll) : (s.setColl n i x).sfn = s.sfn := rfl
@[simp] theorem setColl_cells (n i : Nat) (x : Coll) : (s.setColl n i x).cells = s.cells := rfl
@[simp] theorem setColl_groves (n i : Nat) (x : Coll) : (s.setColl n i x).groves = s.groves := rfl
@[simp] theorem setColl_clearings (n i : Nat) (x : Coll) : (s.setColl n i x).clearings = s.clearings := rfl
@[simp] theorem setColl_buckets (n i : Nat) (x : Coll) : (s.setColl n i x).buckets = s.buckets := rfl
@[simp] theorem setColl_pools (n i : Nat) (x : Coll) : (s.setColl n i x).pools = s.pools := rfl
@[simp] theorem setColl_lastDraw (n i : Nat) (x : Coll) : (s.setColl n i x).lastDraw = s.lastDraw := rfl
@[simp] theorem setColl_poison (n i : Nat) (x : Coll) : (s.setColl n i x).poison = s.poison := rfl
@[simp] theorem setColl_onceAt (n i : Nat) (x : Coll) : (s.setColl n i x).onceAt = s.onceAt := rfl
@[simp] theorem setColl_pieces (n i : Nat) (x : Coll) : (s.setColl n i x).pieces = s.pieces := rfl
@[simp] theorem setColl_degraded (n i : Nat) (x : Coll) : (s.setColl n i x).degraded = s.degraded := rfl
@[simp] theorem setColl_copiers (n i : Nat) (x : Coll) : (s.setColl n i x).copiers = s.copiers := rfl
@[simp] theorem setColl_ports (n i : Nat) (x : Coll) : (s.setColl n i x).ports = s.ports := rfl
@[simp] theorem setColl_linkDies (n i : Nat) (x : Coll) : (s.setColl n i x).linkDies = s.linkDies := rfl
@[simp] theorem setColl_colls (n i : Nat) (x : Coll) : (s.setColl n i x).colls = ins s.colls (n * 4096 + i) x := rfl
@[simp] theorem setColl_waitingChunks (n i : Nat) (x : Coll) : (s.setColl n i x).waitingChunks = s.waitingChunks := rfl
@[simp] theorem setColl_remotes (n i : Nat) (x : Coll) : (s.setColl n i x).remotes = s.remotes := rfl
@[simp] theorem setColl_nextTag (n i : Nat) (x : Coll) : (s.setColl n i x).nextTag = s.nextTag := rfl
@[simp] theorem setColl_arbs (n i : Nat) (x : Coll) : (s.setColl n i x).arbs = s.arbs := rfl
@[simp] theorem setColl_overruns (n i : Nat) (x : Coll) : (s.setColl n i x).overruns = s.overruns := rfl
@[simp] theorem setColl_outbox (n i : Nat) (x : Coll) : (s.setColl n i x).outbox = s.outbox := rfl
@[simp] theorem setColl_free (n i : Nat) (x : Coll) : (s.setColl n i x).free = s.free := rfl
@[simp] theorem setColl_pending (n i : Nat) (x : Coll) : (s.setColl n i x).pending = s.pending := rfl

@[simp] theorem emit_power (o : Out) : (s.emit o).power = s.power := rfl
@[simp] theorem emit_time (o : Out) : (s.emit o).time = s.time := rfl
@[simp] theorem emit_dict (o : Out) : (s.emit o).dict = s.dict := rfl
@[simp] theorem emit_force (o : Out) : (s.emit o).force = s.force := rfl
@[simp] theorem emit_live (o : Out) : (s.emit o).live = s.live := rfl
@[simp] theorem emit_blobs (o : Out) : (s.emit o).blobs = s.blobs := rfl
@[simp] theorem emit_blobForce (o : Out) : (s.emit o).blobForce = s.blobForce := rfl
@[simp] theorem emit_mem (o : Out) : (s.emit o).mem = s.mem := rfl
@[simp] theorem emit_hub (o : Out) : (s.emit o).hub = s.hub := rfl
@[simp] theorem emit_sec (o : Out) : (s.emit o).sec = s.sec := rfl
@[simp] theorem emit_flash (o : Out) : (s.emit o).flash = s.flash := rfl
@[simp] theorem emit_otp (o : Out) : (s.emit o).otp = s.otp := rfl
@[simp] theorem emit_sfn (o : Out) : (s.emit o).sfn = s.sfn := rfl
@[simp] theorem emit_cells (o : Out) : (s.emit o).cells = s.cells := rfl
@[simp] theorem emit_groves (o : Out) : (s.emit o).groves = s.groves := rfl
@[simp] theorem emit_clearings (o : Out) : (s.emit o).clearings = s.clearings := rfl
@[simp] theorem emit_buckets (o : Out) : (s.emit o).buckets = s.buckets := rfl
@[simp] theorem emit_pools (o : Out) : (s.emit o).pools = s.pools := rfl
@[simp] theorem emit_lastDraw (o : Out) : (s.emit o).lastDraw = s.lastDraw := rfl
@[simp] theorem emit_poison (o : Out) : (s.emit o).poison = s.poison := rfl
@[simp] theorem emit_onceAt (o : Out) : (s.emit o).onceAt = s.onceAt := rfl
@[simp] theorem emit_pieces (o : Out) : (s.emit o).pieces = s.pieces := rfl
@[simp] theorem emit_degraded (o : Out) : (s.emit o).degraded = s.degraded := rfl
@[simp] theorem emit_copiers (o : Out) : (s.emit o).copiers = s.copiers := rfl
@[simp] theorem emit_ports (o : Out) : (s.emit o).ports = s.ports := rfl
@[simp] theorem emit_linkDies (o : Out) : (s.emit o).linkDies = s.linkDies := rfl
@[simp] theorem emit_colls (o : Out) : (s.emit o).colls = s.colls := rfl
@[simp] theorem emit_waitingChunks (o : Out) : (s.emit o).waitingChunks = s.waitingChunks := rfl
@[simp] theorem emit_remotes (o : Out) : (s.emit o).remotes = s.remotes := rfl
@[simp] theorem emit_nextTag (o : Out) : (s.emit o).nextTag = s.nextTag := rfl
@[simp] theorem emit_arbs (o : Out) : (s.emit o).arbs = s.arbs := rfl
@[simp] theorem emit_overruns (o : Out) : (s.emit o).overruns = s.overruns := rfl
@[simp] theorem emit_outbox (o : Out) : (s.emit o).outbox = s.outbox ++ [o] := rfl
@[simp] theorem emit_free (o : Out) : (s.emit o).free = s.free := rfl
@[simp] theorem emit_pending (o : Out) : (s.emit o).pending = s.pending := rfl

@[simp] theorem setSession_power (x : Session) : (s.setSession x).power = s.power := rfl
@[simp] theorem setSession_time (x : Session) : (s.setSession x).time = s.time := rfl
@[simp] theorem setSession_dict (x : Session) : (s.setSession x).dict = s.dict := rfl
@[simp] theorem setSession_force (x : Session) : (s.setSession x).force = s.force := rfl
@[simp] theorem setSession_live (x : Session) : (s.setSession x).live = s.live := rfl
@[simp] theorem setSession_blobs (x : Session) : (s.setSession x).blobs = s.blobs := rfl
@[simp] theorem setSession_blobForce (x : Session) : (s.setSession x).blobForce = s.blobForce := rfl
@[simp] theorem setSession_mem (x : Session) : (s.setSession x).mem = s.mem := rfl
@[simp] theorem setSession_hub (x : Session) : (s.setSession x).hub = s.hub := rfl
@[simp] theorem setSession_flash (x : Session) : (s.setSession x).flash = s.flash := rfl
@[simp] theorem setSession_otp (x : Session) : (s.setSession x).otp = s.otp := rfl
@[simp] theorem setSession_sfn (x : Session) : (s.setSession x).sfn = s.sfn := rfl
@[simp] theorem setSession_cells (x : Session) : (s.setSession x).cells = s.cells := rfl
@[simp] theorem setSession_groves (x : Session) : (s.setSession x).groves = s.groves := rfl
@[simp] theorem setSession_clearings (x : Session) : (s.setSession x).clearings = s.clearings := rfl
@[simp] theorem setSession_buckets (x : Session) : (s.setSession x).buckets = s.buckets := rfl
@[simp] theorem setSession_pools (x : Session) : (s.setSession x).pools = s.pools := rfl
@[simp] theorem setSession_lastDraw (x : Session) : (s.setSession x).lastDraw = s.lastDraw := rfl
@[simp] theorem setSession_poison (x : Session) : (s.setSession x).poison = s.poison := rfl
@[simp] theorem setSession_onceAt (x : Session) : (s.setSession x).onceAt = s.onceAt := rfl
@[simp] theorem setSession_pieces (x : Session) : (s.setSession x).pieces = s.pieces := rfl
@[simp] theorem setSession_degraded (x : Session) : (s.setSession x).degraded = s.degraded := rfl
@[simp] theorem setSession_copiers (x : Session) : (s.setSession x).copiers = s.copiers := rfl
@[simp] theorem setSession_ports (x : Session) : (s.setSession x).ports = s.ports := rfl
@[simp] theorem setSession_linkDies (x : Session) : (s.setSession x).linkDies = s.linkDies := rfl
@[simp] theorem setSession_colls (x : Session) : (s.setSession x).colls = s.colls := rfl
@[simp] theorem setSession_waitingChunks (x : Session) : (s.setSession x).waitingChunks = s.waitingChunks := rfl
@[simp] theorem setSession_remotes (x : Session) : (s.setSession x).remotes = s.remotes := rfl
@[simp] theorem setSession_nextTag (x : Session) : (s.setSession x).nextTag = s.nextTag := rfl
@[simp] theorem setSession_arbs (x : Session) : (s.setSession x).arbs = s.arbs := rfl
@[simp] theorem setSession_overruns (x : Session) : (s.setSession x).overruns = s.overruns := rfl
@[simp] theorem setSession_outbox (x : Session) : (s.setSession x).outbox = s.outbox := rfl
@[simp] theorem setSession_free (x : Session) : (s.setSession x).free = s.free := rfl
@[simp] theorem setSession_pending (x : Session) : (s.setSession x).pending = s.pending := rfl

@[simp] theorem wipe_power (a n : Nat) : (s.wipe a n).power = s.power := rfl
@[simp] theorem wipe_time (a n : Nat) : (s.wipe a n).time = s.time := rfl
@[simp] theorem wipe_dict (a n : Nat) : (s.wipe a n).dict = s.dict := rfl
@[simp] theorem wipe_force (a n : Nat) : (s.wipe a n).force = s.force := rfl
@[simp] theorem wipe_live (a n : Nat) : (s.wipe a n).live = s.live := rfl
@[simp] theorem wipe_blobs (a n : Nat) : (s.wipe a n).blobs = s.blobs := rfl
@[simp] theorem wipe_blobForce (a n : Nat) : (s.wipe a n).blobForce = s.blobForce := rfl
@[simp] theorem wipe_hub (a n : Nat) : (s.wipe a n).hub = s.hub := rfl
@[simp] theorem wipe_sec (a n : Nat) : (s.wipe a n).sec = s.sec := rfl
@[simp] theorem wipe_flash (a n : Nat) : (s.wipe a n).flash = s.flash := rfl
@[simp] theorem wipe_otp (a n : Nat) : (s.wipe a n).otp = s.otp := rfl
@[simp] theorem wipe_sfn (a n : Nat) : (s.wipe a n).sfn = s.sfn := rfl
@[simp] theorem wipe_cells (a n : Nat) : (s.wipe a n).cells = s.cells := rfl
@[simp] theorem wipe_groves (a n : Nat) : (s.wipe a n).groves = s.groves := rfl
@[simp] theorem wipe_clearings (a n : Nat) : (s.wipe a n).clearings = s.clearings := rfl
@[simp] theorem wipe_buckets (a n : Nat) : (s.wipe a n).buckets = s.buckets := rfl
@[simp] theorem wipe_pools (a n : Nat) : (s.wipe a n).pools = s.pools := rfl
@[simp] theorem wipe_lastDraw (a n : Nat) : (s.wipe a n).lastDraw = s.lastDraw := rfl
@[simp] theorem wipe_onceAt (a n : Nat) : (s.wipe a n).onceAt = s.onceAt := rfl
@[simp] theorem wipe_pieces (a n : Nat) : (s.wipe a n).pieces = s.pieces := rfl
@[simp] theorem wipe_degraded (a n : Nat) : (s.wipe a n).degraded = s.degraded := rfl
@[simp] theorem wipe_copiers (a n : Nat) : (s.wipe a n).copiers = s.copiers := rfl
@[simp] theorem wipe_ports (a n : Nat) : (s.wipe a n).ports = s.ports := rfl
@[simp] theorem wipe_linkDies (a n : Nat) : (s.wipe a n).linkDies = s.linkDies := rfl
@[simp] theorem wipe_colls (a n : Nat) : (s.wipe a n).colls = s.colls := rfl
@[simp] theorem wipe_waitingChunks (a n : Nat) : (s.wipe a n).waitingChunks = s.waitingChunks := rfl
@[simp] theorem wipe_remotes (a n : Nat) : (s.wipe a n).remotes = s.remotes := rfl
@[simp] theorem wipe_nextTag (a n : Nat) : (s.wipe a n).nextTag = s.nextTag := rfl
@[simp] theorem wipe_arbs (a n : Nat) : (s.wipe a n).arbs = s.arbs := rfl
@[simp] theorem wipe_overruns (a n : Nat) : (s.wipe a n).overruns = s.overruns := rfl
@[simp] theorem wipe_outbox (a n : Nat) : (s.wipe a n).outbox = s.outbox := rfl
@[simp] theorem wipe_free (a n : Nat) : (s.wipe a n).free = s.free := rfl
@[simp] theorem wipe_pending (a n : Nat) : (s.wipe a n).pending = s.pending := rfl
@[simp] theorem wipe_mem (a n : Nat) : (s.wipe a n).mem = Mem.zero s.mem a n := rfl
@[simp] theorem copyMem_power (a n d : Nat) : (s.copyMem a n d).power = s.power := rfl
@[simp] theorem copyMem_time (a n d : Nat) : (s.copyMem a n d).time = s.time := rfl
@[simp] theorem copyMem_dict (a n d : Nat) : (s.copyMem a n d).dict = s.dict := rfl
@[simp] theorem copyMem_force (a n d : Nat) : (s.copyMem a n d).force = s.force := rfl
@[simp] theorem copyMem_live (a n d : Nat) : (s.copyMem a n d).live = s.live := rfl
@[simp] theorem copyMem_blobs (a n d : Nat) : (s.copyMem a n d).blobs = s.blobs := rfl
@[simp] theorem copyMem_blobForce (a n d : Nat) : (s.copyMem a n d).blobForce = s.blobForce := rfl
@[simp] theorem copyMem_hub (a n d : Nat) : (s.copyMem a n d).hub = s.hub := rfl
@[simp] theorem copyMem_sec (a n d : Nat) : (s.copyMem a n d).sec = s.sec := rfl
@[simp] theorem copyMem_flash (a n d : Nat) : (s.copyMem a n d).flash = s.flash := rfl
@[simp] theorem copyMem_otp (a n d : Nat) : (s.copyMem a n d).otp = s.otp := rfl
@[simp] theorem copyMem_sfn (a n d : Nat) : (s.copyMem a n d).sfn = s.sfn := rfl
@[simp] theorem copyMem_cells (a n d : Nat) : (s.copyMem a n d).cells = s.cells := rfl
@[simp] theorem copyMem_groves (a n d : Nat) : (s.copyMem a n d).groves = s.groves := rfl
@[simp] theorem copyMem_clearings (a n d : Nat) : (s.copyMem a n d).clearings = s.clearings := rfl
@[simp] theorem copyMem_buckets (a n d : Nat) : (s.copyMem a n d).buckets = s.buckets := rfl
@[simp] theorem copyMem_pools (a n d : Nat) : (s.copyMem a n d).pools = s.pools := rfl
@[simp] theorem copyMem_lastDraw (a n d : Nat) : (s.copyMem a n d).lastDraw = s.lastDraw := rfl
@[simp] theorem copyMem_poison (a n d : Nat) : (s.copyMem a n d).poison = s.poison := rfl
@[simp] theorem copyMem_onceAt (a n d : Nat) : (s.copyMem a n d).onceAt = s.onceAt := rfl
@[simp] theorem copyMem_pieces (a n d : Nat) : (s.copyMem a n d).pieces = s.pieces := rfl
@[simp] theorem copyMem_degraded (a n d : Nat) : (s.copyMem a n d).degraded = s.degraded := rfl
@[simp] theorem copyMem_copiers (a n d : Nat) : (s.copyMem a n d).copiers = s.copiers := rfl
@[simp] theorem copyMem_ports (a n d : Nat) : (s.copyMem a n d).ports = s.ports := rfl
@[simp] theorem copyMem_linkDies (a n d : Nat) : (s.copyMem a n d).linkDies = s.linkDies := rfl
@[simp] theorem copyMem_colls (a n d : Nat) : (s.copyMem a n d).colls = s.colls := rfl
@[simp] theorem copyMem_waitingChunks (a n d : Nat) : (s.copyMem a n d).waitingChunks = s.waitingChunks := rfl
@[simp] theorem copyMem_remotes (a n d : Nat) : (s.copyMem a n d).remotes = s.remotes := rfl
@[simp] theorem copyMem_nextTag (a n d : Nat) : (s.copyMem a n d).nextTag = s.nextTag := rfl
@[simp] theorem copyMem_arbs (a n d : Nat) : (s.copyMem a n d).arbs = s.arbs := rfl
@[simp] theorem copyMem_overruns (a n d : Nat) : (s.copyMem a n d).overruns = s.overruns := rfl
@[simp] theorem copyMem_outbox (a n d : Nat) : (s.copyMem a n d).outbox = s.outbox := rfl
@[simp] theorem copyMem_free (a n d : Nat) : (s.copyMem a n d).free = s.free := rfl
@[simp] theorem copyMem_pending (a n d : Nat) : (s.copyMem a n d).pending = s.pending := rfl
@[simp] theorem copyMem_mem (a n d : Nat) : (s.copyMem a n d).mem = Mem.copy s.mem a n d := rfl

end Sys2Proof.Machine.State
end

