-- ==== Sys2Proof/Laws/Sound.lean ====
section
/-! SUPPORT. How an operation keeps a state sound: the shapes from which every operation's lemma is put together. -/

namespace Sys2Proof.Machine

/-- A state that meets the invariant and whose one-time-programmable storage has grown from `fuse`. -/
def State.Kept (fuse : Otp) (s : State) : Prop := s.Inv ∧ fuse.grows s.otp

/-- An answer whose next state, if any, is so kept. -/
def AnsKept (fuse : Otp) (a : Ans) : Prop := ∀ t, a = .next t → t.Kept fuse

variable {fuse : Otp}

theorem Otp.grows_refl (a : Otp) : a.grows a :=
  ⟨Nat.le_refl _, Nat.le_refl _, Nat.le_refl _, ⟨[], rfl⟩, ⟨[], (List.append_nil _).symm⟩, fun _ => Nat.le_refl _,
    fun _ => Nat.le_refl _, fun _ => Nat.le_refl _, rfl, rfl, rfl, rfl, rfl, rfl, rfl⟩

theorem Otp.grows_trans {a b c : Otp} (h : a.grows b) (k : b.grows c) : a.grows c := by
  obtain ⟨h1, h2, h3, ⟨l, h4⟩, ⟨m, h5⟩, h6, h7, h8, h9, h10, h11, h12, h13, h14, h15⟩ := h
  obtain ⟨k1, k2, k3, ⟨p, k4⟩, ⟨q, k5⟩, k6, k7, k8, k9, k10, k11, k12, k13, k14, k15⟩ := k
  exact ⟨Nat.le_trans h1 k1, Nat.le_trans h2 k2, Nat.le_trans h3 k3, ⟨p ++ l, by simp [k4, h4]⟩, ⟨m ++ q, by simp [k5, h5]⟩,
    fun d => Nat.le_trans (h6 d) (k6 d), fun d => Nat.le_trans (h7 d) (k7 d), fun d => Nat.le_trans (h8 d) (k8 d), k9.trans h9,
    k10.trans h10, k11.trans h11, k12.trans h12, k13.trans h13, k14.trans h14, k15.trans h15⟩

/-- A count kept by key that is raised at one key is nowhere lower. -/
theorem count_ins (m : Map Nat) (k d : Nat) :
    (look m d).getD 0 ≤ (look (ins m k ((look m k).getD 0 + 1)) d).getD 0 := by
  rw [look_ins]; split
  · subst_vars; exact Nat.le_succ _
  · exact Nat.le_refl _

section
variable {b : Otp} (h : fuse.grows b)
include h

theorem Otp.grows_rollback (k : Nat) : fuse.grows { b with rollback := max b.rollback k } :=
  ⟨Nat.le_trans h.1 (Nat.le_max_left ..), h.2⟩

theorem Otp.grows_start : fuse.grows { b with startCount := b.startCount + 1 } :=
  ⟨h.1, Nat.le_trans h.2.1 (Nat.le_succ _), h.2.2⟩

theorem Otp.grows_write : fuse.grows { b with storeWrites := b.storeWrites + 1 } :=
  ⟨h.1, h.2.1, Nat.le_trans h.2.2.1 (Nat.le_succ _), h.2.2.2⟩

theorem Otp.grows_key (k : AtRest) : fuse.grows { b with managerKeys := k :: b.managerKeys } :=
  have ⟨l, e⟩ := h.2.2.2.1
  ⟨h.1, h.2.1, h.2.2.1, ⟨k :: l, by simp [e]⟩, h.2.2.2.2⟩

theorem Otp.grows_retired (k : Nat) : fuse.grows { b with retired := b.retired ++ [k] } :=
  have ⟨l, e⟩ := h.2.2.2.2.1
  ⟨h.1, h.2.1, h.2.2.1, h.2.2.2.1, ⟨l ++ [k], by simp [e]⟩, h.2.2.2.2.2⟩

theorem Otp.grows_floor (d g : Nat) : fuse.grows { b with
    floorDrops := ins b.floorDrops d ((look b.floorDrops d).getD 0 + 1),
    delaySteps := ins b.delaySteps g ((look b.delaySteps g).getD 0 + 1) } :=
  ⟨h.1, h.2.1, h.2.2.1, h.2.2.2.1, h.2.2.2.2.1, fun x => Nat.le_trans (h.2.2.2.2.2.1 x) (count_ins _ _ _),
    h.2.2.2.2.2.2.1, fun x => Nat.le_trans (h.2.2.2.2.2.2.2.1 x) (count_ins _ _ _), h.2.2.2.2.2.2.2.2⟩

theorem Otp.grows_supply (g : Nat) : fuse.grows { b with
    supplySteps := ins b.supplySteps g ((look b.supplySteps g).getD 0 + 1) } :=
  ⟨h.1, h.2.1, h.2.2.1, h.2.2.2.1, h.2.2.2.2.1, h.2.2.2.2.2.1,
    fun x => Nat.le_trans (h.2.2.2.2.2.2.1 x) (count_ins _ _ _), h.2.2.2.2.2.2.2⟩

end

namespace State

theorem Sound.inv {s : State} (h : Sound fuse s) : Kept fuse s :=
  ⟨⟨h.2.1, h.2.2.1, fun e => absurd e h.1⟩, h.2.2.2⟩

theorem Kept.sound {s : State} (h : Kept fuse s) (hn : s.on = true) : Sound fuse s :=
  ⟨by simpa [on] using hn, h.1.1, h.1.2.1, h.2⟩

theorem sound_foldl {α : Type} {f : State → α → State} {l : List α} {s : State} (h : Sound fuse s)
    (hf : ∀ s x, Sound fuse s → Sound fuse (f s x)) : Sound fuse (l.foldl f s) := by
  induction l generalizing s with
  | nil => exact h
  | cons x l ih => exact ih (hf s x h)

theorem sound_foldl_fst {α β : Type} {f : State × β → α → State × β} {l : List α} {p : State × β} (h : Sound fuse p.1)
    (hf : ∀ p x, Sound fuse p.1 → Sound fuse (f p x).1) : Sound fuse (l.foldl f p).1 := by
  induction l generalizing p with
  | nil => exact h
  | cons x l ih => exact ih (hf p x h)

theorem sound_foldl_snd {α β : Type} {f : β × State → α → β × State} {l : List α} {p : β × State} (h : Sound fuse p.2)
    (hf : ∀ p x, Sound fuse p.2 → Sound fuse (f p x).2) : Sound fuse (l.foldl f p).2 := by
  induction l generalizing p with
  | nil => exact h
  | cons x l ih => exact ih (hf p x h)

theorem sound_onlyIf {c : Bool} {s k : State} (h : Sound fuse s) (hk : Sound fuse k) : Sound fuse (onlyIf c s k) := by
  unfold onlyIf; split <;> assumption

theorem sound_snd {α : Type} {p : α × State} {a : α} {t : State} (e : p = (a, t)) (h : Sound fuse p.2) : Sound fuse t := by
  subst e; exact h

theorem sound_fst {α : Type} {p : State × α} {a : α} {t : State} (e : p = (t, a)) (h : Sound fuse p.1) : Sound fuse t := by
  subst e; exact h

/-- A change of the power record that does not enter OFF. -/
theorem sound_withPower {s : State} (p : Power) (h : Sound fuse s) (hp : p.mode ≠ .off) : Sound fuse { s with power := p } :=
  ⟨hp, h.2.1, h.2.2⟩

/-- An update of fields other than power, memory, flash and one-time-programmable storage. -/
theorem sound_other (s : State)
    (time : Nat) (dict : Map Nat) (force : Map Nat) (live : Map Nat) (blobs : Map (List Byte)) (blobForce : Map
      (List Byte)) (hub : Hub) (sec : Sec) (sfn : SfnImage) (cells : Map Cell) (groves : Map Grove) (clearings : Map Clearing)
      (buckets : Map Int) (pools : Map Nat) (lastDraw : Map Nat) (poison : List Nat) (onceAt : Map Nat) (pieces : Map (List
      (Nat × Nat))) (degraded : List Nat) (copiers : Map Copier) (ports : Map Port) (linkDies : Map LinkDie)
      (colls : Map Coll) (waitingChunks : List WaitChunk) (remotes : List Remote) (nextTag : Nat) (arbs : Map Arb)
        (overruns : Map (List Nat)) (outbox : List Out)
      (free : Nat) (pending : List Instr) :
    Sound fuse {
      power := s.power, time := time, dict := dict, force := force, live := live, blobs := blobs,
      blobForce := blobForce, mem := s.mem, hub := hub, sec := sec, flash := s.flash, otp := s.otp, sfn := sfn, cells := cells,
      groves := groves, clearings := clearings, buckets := buckets, pools := pools, lastDraw := lastDraw, poison := poison,
      onceAt := onceAt, pieces := pieces, degraded := degraded, copiers := copiers, ports := ports,
      linkDies := linkDies, colls := colls, waitingChunks := waitingChunks, remotes := remotes, nextTag := nextTag,
        arbs := arbs, overruns := overruns,
      outbox := outbox, free := free, pending := pending } ↔ Sound fuse s := Iff.rfl

/-- An update of fields other than the power state, memory, flash and one-time-programmable storage. -/
theorem sound_power (s : State)
    (holdingP : Bool) (resumeNextP : Bool) (thermNP : Bool) (heldAtP : Nat) (capFlagP : Bool)
      (warnGrovesP : List Nat) (coolFlagP : Bool) (perstP : Bool) (linkUpP : Bool) (answersP : Bool)
      (resetAtP : Option Nat) (numberNewP : Bool)
    (time : Nat) (dict : Map Nat) (force : Map Nat) (live : Map Nat) (blobs : Map (List Byte)) (blobForce : Map
      (List Byte)) (hub : Hub) (sec : Sec) (sfn : SfnImage) (cells : Map Cell) (groves : Map Grove) (clearings : Map Clearing)
      (buckets : Map Int) (pools : Map Nat) (lastDraw : Map Nat) (poison : List Nat) (onceAt : Map Nat) (pieces : Map (List
      (Nat × Nat))) (degraded : List Nat) (copiers : Map Copier) (ports : Map Port) (linkDies : Map LinkDie)
      (colls : Map Coll) (waitingChunks : List WaitChunk) (remotes : List Remote) (nextTag : Nat) (arbs : Map Arb)
        (overruns : Map (List Nat)) (outbox : List Out)
      (free : Nat) (pending : List Instr) :
    Sound fuse {
      power := {
        mode := s.power.mode, holding := holdingP, resumeNext := resumeNextP, thermN := thermNP,
        heldAt := heldAtP, capFlag := capFlagP, warnGroves := warnGrovesP, coolFlag := coolFlagP, perst := perstP,
        linkUp := linkUpP, answers := answersP, resetAt := resetAtP, numberNew := numberNewP }, time := time,
      dict := dict, force := force, live := live, blobs := blobs, blobForce := blobForce, mem := s.mem, hub := hub,
      sec := sec, flash := s.flash, otp := s.otp, sfn := sfn, cells := cells, groves := groves, clearings := clearings,
      buckets := buckets, pools := pools, lastDraw := lastDraw, poison := poison, onceAt := onceAt, pieces := pieces,
      degraded := degraded, copiers := copiers, ports := ports, linkDies := linkDies, colls := colls,
        waitingChunks := waitingChunks,
      remotes := remotes, nextTag := nextTag, arbs := arbs, overruns := overruns, outbox := outbox, free := free,
      pending := pending } ↔ Sound fuse s := Iff.rfl

/-- An update of the flash devices that leaves both firmware images. -/
theorem sound_flash (s : State)
    (bank0F : Bank) (bank1F : Bank) (sel0F : List Byte) (sel1F : List Byte) (writingF : Option
      (Nat × Bank)) (lastBankF : Option Nat) (verifiedF : Bool)
    (time : Nat) (dict : Map Nat) (force : Map Nat) (live : Map Nat) (blobs : Map (List Byte)) (blobForce : Map
      (List Byte)) (hub : Hub) (sec : Sec) (sfn : SfnImage) (cells : Map Cell) (groves : Map Grove) (clearings : Map Clearing)
      (buckets : Map Int) (pools : Map Nat) (lastDraw : Map Nat) (poison : List Nat) (onceAt : Map Nat) (pieces : Map (List
      (Nat × Nat))) (degraded : List Nat) (copiers : Map Copier) (ports : Map Port) (linkDies : Map LinkDie)
      (colls : Map Coll) (waitingChunks : List WaitChunk) (remotes : List Remote) (nextTag : Nat) (arbs : Map Arb)
        (overruns : Map (List Nat)) (outbox : List Out)
      (free : Nat) (pending : List Instr) :
    Sound fuse {
      power := s.power, time := time, dict := dict, force := force, live := live, blobs := blobs,
      blobForce := blobForce, mem := s.mem, hub := hub, sec := sec, flash := {
        bank0 := bank0F, bank1 := bank1F, imageA := s.flash.imageA, imageB := s.flash.imageB, sel0 := sel0F,
        sel1 := sel1F, writing := writingF, lastBank := lastBankF, verified := verifiedF }, otp := s.otp,
      sfn := sfn, cells := cells, groves := groves, clearings := clearings, buckets := buckets, pools := pools,
        lastDraw := lastDraw,
      poison := poison, onceAt := onceAt, pieces := pieces, degraded := degraded, copiers := copiers,
      ports := ports, linkDies := linkDies, colls := colls, waitingChunks := waitingChunks, remotes := remotes,
        nextTag := nextTag, arbs := arbs,
      overruns := overruns, outbox := outbox, free := free, pending := pending } ↔ Sound fuse s := Iff.rfl

end State

theorem ansInv_next {s : State} (h : s.Kept fuse) : AnsKept fuse (.next s) := by
  intro t e; cases e; exact h

theorem ansInv_whenOn {s k : State} (h : s.Kept fuse) (hk : s.Sound fuse → k.Kept fuse) :
    AnsKept fuse (whenOn s k) := by
  unfold whenOn
  split
  · exact ansInv_next (hk (h.sound ‹_›))
  · exact ansInv_next h

theorem ansInv_inRange {c : Bool} {s k : State} (h : s.Kept fuse) (hk : s.Sound fuse → k.Kept fuse) :
    AnsKept fuse (inRange c s k) := by
  unfold inRange
  split
  · exact ansInv_whenOn h hk
  · intro t e; cases e

end Sys2Proof.Machine
end

