-- ==== Sys2Proof/Laws/KeepsOps.lean ====
section
/-! SUPPORT. The operations of Machine/Ops.lean keep a state sound. -/

namespace Sys2Proof.Machine

open State

variable {fuse : Otp}

theorem State.poke_keeps (s : State) (a : Nat) (b : List Byte) (h : Sound fuse s) : Sound fuse (State.poke s a b) :=
  ⟨h.1, ⟨Mem.wf_writes a b h.2.1.1, h.2.1.2⟩, h.2.2⟩

theorem State.wipe_keeps (s : State) (a n : Nat) (h : Sound fuse s) : Sound fuse (State.wipe s a n) :=
  ⟨h.1, ⟨Mem.wf_zero a n h.2.1.1, h.2.1.2⟩, h.2.2⟩

theorem State.copyMem_keeps (s : State) (a n d : Nat) (h : Sound fuse s) : Sound fuse (State.copyMem s a n d) :=
  ⟨h.1, ⟨Mem.wf_copy a n d h.2.1.1, h.2.1.2⟩, h.2.2⟩

theorem State.moveMem_keeps (s : State) (src : Nat) (n : Nat) (dst : Nat) (h_s : Sound fuse s) :
    Sound fuse (State.moveMem s src n dst) := by
  unfold State.moveMem
  repeat' (first
    | (intro _ _ _)
    | (with_reducible first
      | assumption
      | apply State.wipe_keeps
      | apply State.copyMem_keeps)
    | dsimp only
    | split)

theorem State.healLines_keeps (s : State) (a : Nat) (len : Nat) (h_s : Sound fuse s) :
    Sound fuse (State.healLines s a len) := by
  unfold State.healLines
  repeat' (first
    | (intro _ _ _)
    | (with_reducible first
      | assumption)
    | dsimp only
    | simp only [sound_other]
    | split)

theorem State.wr_keeps (s : State) (idx : Nat) (sub : Nat) (v : Nat) (h_s : Sound fuse s) :
    Sound fuse (State.wr s idx sub v) := by
  unfold State.wr
  repeat' (first
    | (intro _ _ _)
    | (with_reducible first
      | assumption)
    | dsimp only
    | simp only [sound_other])

theorem State.setFrc_keeps (s : State) (idx : Nat) (sub : Nat) (v : Nat) (h_s : Sound fuse s) :
    Sound fuse (State.setFrc s idx sub v) := by
  unfold State.setFrc
  repeat' (first
    | (intro _ _ _)
    | (with_reducible first
      | assumption)
    | dsimp only
    | simp only [sound_other])

theorem State.wrBlob_keeps (s : State) (idx : Nat) (sub : Nat) (v : List Byte) (h_s : Sound fuse s) :
    Sound fuse (State.wrBlob s idx sub v) := by
  unfold State.wrBlob
  repeat' (first
    | (intro _ _ _)
    | (with_reducible first
      | assumption)
    | dsimp only
    | simp only [sound_other])

theorem State.setFrcBlob_keeps (s : State) (idx : Nat) (sub : Nat) (v : List Byte) (h_s : Sound fuse s) :
    Sound fuse (State.setFrcBlob s idx sub v) := by
  unfold State.setFrcBlob
  repeat' (first
    | (intro _ _ _)
    | (with_reducible first
      | assumption)
    | dsimp only
    | simp only [sound_other])

theorem State.bump_keeps (s : State) (idx : Nat) (sub : Nat) (k : Nat) (h_s : Sound fuse s) :
    Sound fuse (State.bump s idx sub k) := by
  unfold State.bump
  repeat' (first
    | (intro _ _ _)
    | (with_reducible first
      | assumption
      | apply State.wr_keeps))

theorem State.bumpLive_keeps (s : State) (idx : Nat) (sub : Nat) (k : Nat) (h_s : Sound fuse s) :
    Sound fuse (State.bumpLive s idx sub k) := by
  unfold State.bumpLive
  repeat' (first
    | (intro _ _ _)
    | (with_reducible first
      | assumption)
    | dsimp only
    | simp only [sound_other])

theorem State.publish_keeps (s : State) (keys : List (Nat × Nat)) (h_s : Sound fuse s) :
    Sound fuse (State.publish s keys) := by
  unfold State.publish
  repeat' (first
    | (intro _ _ _)
    | (with_reducible first
      | assumption
      | apply State.wr_keeps
      | apply sound_foldl
      | apply sound_foldl_fst
      | apply sound_foldl_snd
      | (refine sound_snd (by assumption) ?_)
      | (refine sound_fst (by assumption) ?_))
    | dsimp only
    | simp only [sound_other]
    | split)

theorem State.setCell_keeps (s : State) (g : Nat) (c : Nat) (x : Cell) (h_s : Sound fuse s) :
    Sound fuse (State.setCell s g c x) := by
  unfold State.setCell
  repeat' (first
    | (intro _ _ _)
    | (with_reducible first
      | assumption)
    | dsimp only
    | simp only [sound_other])

theorem State.setGrove_keeps (s : State) (g : Nat) (x : Grove) (h_s : Sound fuse s) :
    Sound fuse (State.setGrove s g x) := by
  unfold State.setGrove
  repeat' (first
    | (intro _ _ _)
    | (with_reducible first
      | assumption)
    | dsimp only
    | simp only [sound_other])

theorem State.setClr_keeps (s : State) (n : Nat) (x : Clearing) (h_s : Sound fuse s) :
    Sound fuse (State.setClr s n x) := by
  unfold State.setClr
  repeat' (first
    | (intro _ _ _)
    | (with_reducible first
      | assumption)
    | dsimp only
    | simp only [sound_other])

theorem State.setPort_keeps (s : State) (p : Nat) (x : Port) (h_s : Sound fuse s) :
    Sound fuse (State.setPort s p x) := by
  unfold State.setPort
  repeat' (first
    | (intro _ _ _)
    | (with_reducible first
      | assumption)
    | dsimp only
    | simp only [sound_other])

theorem State.setDie_keeps (s : State) (d : Nat) (x : LinkDie) (h_s : Sound fuse s) :
    Sound fuse (State.setDie s d x) := by
  unfold State.setDie
  repeat' (first
    | (intro _ _ _)
    | (with_reducible first
      | assumption)
    | dsimp only
    | simp only [sound_other])

theorem State.setCopier_keeps (s : State) (k : Nat) (x : Copier) (h_s : Sound fuse s) :
    Sound fuse (State.setCopier s k x) := by
  unfold State.setCopier
  repeat' (first
    | (intro _ _ _)
    | (with_reducible first
      | assumption)
    | dsimp only
    | simp only [sound_other])

theorem State.setColl_keeps (s : State) (n : Nat) (i : Nat) (x : Coll) (h_s : Sound fuse s) :
    Sound fuse (State.setColl s n i x) := by
  unfold State.setColl
  repeat' (first
    | (intro _ _ _)
    | (with_reducible first
      | assumption)
    | dsimp only
    | simp only [sound_other])

theorem State.emit_keeps (s : State) (o : Out) (h_s : Sound fuse s) :
    Sound fuse (State.emit s o) := by
  unfold State.emit
  repeat' (first
    | (intro _ _ _)
    | (with_reducible first
      | assumption)
    | dsimp only
    | simp only [sound_other])

theorem State.fresh_keeps (s : State) (h_s : Sound fuse s) :
    Sound fuse (State.fresh s).2 := by
  unfold State.fresh
  repeat' (first
    | (intro _ _ _)
    | (with_reducible first
      | assumption)
    | dsimp only
    | simp only [sound_other])

theorem State.setClearState_keeps (s : State) (n : Nat) (v : Nat) (h_s : Sound fuse s) :
    Sound fuse (State.setClearState s n v) := by
  unfold State.setClearState
  repeat' (first
    | (intro _ _ _)
    | (with_reducible first
      | assumption
      | apply State.wr_keeps))

theorem State.updateRb_keeps (s : State) (h_s : Sound fuse s) :
    Sound fuse (State.updateRb s) := by
  unfold State.updateRb
  repeat' (first
    | (intro _ _ _)
    | (with_reducible first
      | assumption
      | apply State.wr_keeps))

theorem State.postFull_keeps (s : State) (name : Name) (clearing : Nat) (slot : Nat) (status : Name) (tag : Nat)
    (detail : List Byte) (h_s : Sound fuse s) :
    Sound fuse (State.postFull s name clearing slot status tag detail) := by
  unfold State.postFull
  repeat' (first
    | (intro _ _ _)
    | (with_reducible first
      | assumption
      | apply State.bump_keeps
      | apply State.updateRb_keeps
      | apply State.wr_keeps
      | (refine sound_snd (by assumption) ?_)
      | (refine sound_fst (by assumption) ?_))
    | dsimp only
    | simp only [sound_other]
    | split)

theorem State.post_keeps (s : State) (name : Name) (clearing : Nat) (status : Name) (tag : Nat) (detail : (List Byte))
    (h_s : Sound fuse s) :
    Sound fuse (State.post s name clearing status tag detail) := by
  unfold State.post
  repeat' (first
    | (intro _ _ _)
    | (with_reducible first
      | assumption
      | apply State.postFull_keeps))

theorem State.postAll_keeps (s : State) (name : Name) (status : Name) (detail : (List Byte)) (h_s : Sound fuse s) :
    Sound fuse (State.postAll s name status detail) := by
  unfold State.postAll
  repeat' (first
    | (intro _ _ _)
    | (with_reducible first
      | assumption
      | apply State.postFull_keeps))

/-- Entering OFF leaves nothing volatile (21 R445). -/
theorem State.powerDown_keeps (s : State) (h : Sound fuse s) : Kept fuse (State.powerDown s) := by
  unfold State.powerDown
  dsimp only
  split <;> exact ⟨⟨⟨rfl, h.2.1.2⟩, h.2.2.1, fun _ => by simp_all [offState]⟩, h.2.2.2⟩

theorem State.idle_keeps (s : State) (h : Kept fuse s) : Kept fuse (State.idle s) := by
  unfold State.idle
  split
  · rename_i hn
    have h1 : Sound fuse { s with time := s.time + 1 } := h.sound hn
    dsimp only
    split
    · split
      · exact State.powerDown_keeps _ h1
      · exact h1.inv
    · exact h1.inv
  · exact h

theorem State.charge_keeps (s : State) (n : Nat) (res : Nat) (dir : Nat) (bytes : Nat) (h_s : Sound fuse s) :
    Sound fuse (State.charge s n res dir bytes) := by
  unfold State.charge
  repeat' (first
    | (intro _ _ _)
    | (with_reducible first
      | assumption
      | apply State.bump_keeps)
    | dsimp only
    | simp only [sound_other]
    | split)

theorem State.drawAll_keeps (s : State) (res : Nat) (dir : Nat) (h_s : Sound fuse s) :
    Sound fuse (State.drawAll s res dir) := by
  unfold State.drawAll
  repeat' (first
    | (intro _ _ _)
    | (with_reducible first
      | assumption
      | apply State.charge_keeps
      | apply sound_foldl)
    | dsimp only
    | split)

theorem State.assignGranules_keeps (s : State) (n : Nat) (g : Nat) (c : Nat) (h_s : Sound fuse s) :
    Sound fuse (State.assignGranules s n g c) := by
  unfold State.assignGranules
  repeat' (first
    | (intro _ _ _)
    | (with_reducible first
      | assumption
      | apply State.setCell_keeps
      | apply sound_foldl)
    | dsimp only
    | simp only [sound_other]
    | split)

theorem State.healWords_keeps (s : State) (g : Nat) (c : Nat) (off : Nat) (len : Nat) (h_s : Sound fuse s) :
    Sound fuse (State.healWords s g c off len) := by
  unfold State.healWords
  repeat' (first
    | (intro _ _ _)
    | (with_reducible first
      | assumption
      | apply State.setCell_keeps)
    | dsimp only
    | simp only [sound_other]
    | split)

theorem State.putCell_keeps (s : State) (g : Nat) (c : Nat) (off : Nat) (b : List Byte) (h_s : Sound fuse s) :
    Sound fuse (State.putCell s g c off b) := by
  unfold State.putCell
  repeat' (first
    | (intro _ _ _)
    | (with_reducible first
      | assumption
      | apply State.healWords_keeps
      | apply State.poke_keeps))

theorem State.zeroScratch_keeps (s : State) (g : Nat) (c : Nat) (l : List Nat) (h_s : Sound fuse s) :
    Sound fuse (State.zeroScratch s g c l) := by
  unfold State.zeroScratch
  repeat' (first
    | (intro _ _ _)
    | (with_reducible first
      | assumption
      | apply State.healWords_keeps
      | apply State.wipe_keeps
      | apply sound_foldl))

theorem State.zeroSide_keeps (s : State) (g : Nat) (c : Nat) (l : List Nat) (h_s : Sound fuse s) :
    Sound fuse (State.zeroSide s g c l) := by
  unfold State.zeroSide
  repeat' (first
    | (intro _ _ _)
    | (with_reducible first
      | assumption
      | apply State.healWords_keeps
      | apply State.wipe_keeps
      | apply sound_foldl))

theorem State.freeScratchOf_keeps (s : State) (g : Nat) (c : Nat) (l : List Nat) (h_s : Sound fuse s) :
    Sound fuse (State.freeScratchOf s g c l) := by
  unfold State.freeScratchOf
  repeat' (first
    | (intro _ _ _)
    | (with_reducible first
      | assumption
      | apply State.setCell_keeps))

theorem State.freeSideOf_keeps (s : State) (g : Nat) (c : Nat) (l : List Nat) (h_s : Sound fuse s) :
    Sound fuse (State.freeSideOf s g c l) := by
  unfold State.freeSideOf
  repeat' (first
    | (intro _ _ _)
    | (with_reducible first
      | assumption
      | apply State.setCell_keeps))

theorem State.dropScratch_keeps (s : State) (g : Nat) (c : Nat) (l : List Nat) (h_s : Sound fuse s) :
    Sound fuse (State.dropScratch s g c l) := by
  unfold State.dropScratch
  repeat' (first
    | (intro _ _ _)
    | (with_reducible first
      | assumption
      | apply State.freeScratchOf_keeps
      | apply State.zeroScratch_keeps))

theorem State.dropSide_keeps (s : State) (g : Nat) (c : Nat) (l : List Nat) (h_s : Sound fuse s) :
    Sound fuse (State.dropSide s g c l) := by
  unfold State.dropSide
  repeat' (first
    | (intro _ _ _)
    | (with_reducible first
      | assumption
      | apply State.freeSideOf_keeps
      | apply State.zeroSide_keeps))

theorem State.releaseGranules_keeps (s : State) (n : Nat) (g : Nat) (c : Nat) (h_s : Sound fuse s) :
    Sound fuse (State.releaseGranules s n g c) := by
  unfold State.releaseGranules
  repeat' (first
    | (intro _ _ _)
    | (with_reducible first
      | assumption
      | apply State.dropSide_keeps
      | apply State.dropScratch_keeps))

theorem State.stopPlan_keeps (s : State) (n : Nat) (g : Nat) (c : Nat) (tileId : Nat) (order : Nat) (why : Name)
    (h_s : Sound fuse s) :
    Sound fuse (State.stopPlan s n g c tileId order why) := by
  unfold State.stopPlan
  repeat' (first
    | (intro _ _ _)
    | (with_reducible first
      | assumption
      | apply State.setClr_keeps
      | apply State.post_keeps))

end Sys2Proof.Machine
end

