-- ==== Sys2Proof/Laws/KeepsRegion.lean ====
section
/-! SUPPORT. The operations of Machine/Region.lean keep a state sound. -/

namespace Sys2Proof.Machine

open State

variable {fuse : Otp}

theorem State.chargeRange_keeps (s : State) (n : Nat) (tier : Nat) (off : Nat) (len : Nat) (h_s : Sound fuse s) :
    Sound fuse (State.chargeRange s n tier off len) := by
  unfold State.chargeRange
  repeat' (first
    | (intro _ _ _)
    | (with_reducible first
      | assumption
      | apply State.charge_keeps
      | apply sound_foldl)
    | dsimp only
    | split)

theorem State.stallWrite_keeps (s : State) (n : Nat) (off : Nat) (len : Nat) (data : List Byte) (h_s : Sound fuse s) :
    Sound fuse (State.stallWrite s n off len data) := by
  unfold State.stallWrite
  repeat' (first
    | (intro _ _ _)
    | (with_reducible first
      | assumption
      | apply State.bump_keeps
      | apply State.setCopier_keeps
      | (refine sound_snd (by assumption) ?_)
      | (refine sound_fst (by assumption) ?_))
    | dsimp only
    | simp only [sound_other]
    | split)

theorem State.pokeRegion_keeps (s : State) (tier : Nat) (n : Nat) (off : Nat) (data : List Byte) (h_s : Sound fuse s) :
    Sound fuse (State.pokeRegion s tier n off data) := by
  unfold State.pokeRegion
  repeat' (first
    | (intro _ _ _)
    | (with_reducible first
      | assumption
      | apply State.healLines_keeps
      | apply State.poke_keeps))

theorem State.readRegion_keeps (s : State) (n : Nat) (tier : Nat) (off : Nat) (len : Nat) (h_s : Sound fuse s) :
    Sound fuse (State.readRegion s n tier off len).2 := by
  unfold State.readRegion
  repeat' (first
    | (intro _ _ _)
    | (with_reducible first
      | assumption
      | apply State.chargeRange_keeps))

theorem State.writeRegion_keeps (s : State) (n : Nat) (tier : Nat) (off : Nat) (data : List Byte) (h_s : Sound fuse s) :
    Sound fuse (State.writeRegion s n tier off data) := by
  unfold State.writeRegion
  repeat' (first
    | (intro _ _ _)
    | (with_reducible first
      | assumption
      | apply State.chargeRange_keeps
      | apply State.stallWrite_keeps
      | apply State.pokeRegion_keeps)
    | dsimp only
    | split)

theorem State.copyRegion_keeps (s : State) (n : Nat) (tierA : Nat) (a : Nat) (len : Nat) (tierB : Nat) (b : Nat)
    (h_s : Sound fuse s) :
    Sound fuse (State.copyRegion s n tierA a len tierB b) := by
  unfold State.copyRegion
  repeat' (first
    | (intro _ _ _)
    | (with_reducible first
      | assumption
      | apply State.healLines_keeps
      | apply State.copyMem_keeps
      | apply State.chargeRange_keeps))

end Sys2Proof.Machine
end

