-- ==== Sys2Proof/Laws/KeepsRoute.lean ====
section
/-! SUPPORT. The operations of Machine/Route.lean keep a state sound. -/

namespace Sys2Proof.Machine

open State

variable {fuse : Otp}

theorem State.setPortState_keeps (s : State) (p : Nat) (v : Nat) (h_s : Sound fuse s) :
    Sound fuse (State.setPortState s p v) := by
  unfold State.setPortState
  repeat' (first
    | (intro _ _ _)
    | (with_reducible first
      | assumption
      | apply State.wr_keeps))

theorem State.sendFlit_keeps (s : State) (p : Nat) (f : Flit) (h_s : Sound fuse s) :
    Sound fuse (State.sendFlit s p f) := by
  unfold State.sendFlit
  repeat' (first
    | (intro _ _ _)
    | (with_reducible first
      | assumption
      | apply State.emit_keeps
      | apply State.setPort_keeps))

theorem State.queueFlit_keeps (p : Nat) (s : State) (f : Flit) (h_s : Sound fuse s) :
    Sound fuse (State.queueFlit p s f) := by
  unfold State.queueFlit
  repeat' (first
    | (intro _ _ _)
    | (with_reducible first
      | assumption
      | apply State.sendFlit_keeps
      | apply State.setPort_keeps)
    | dsimp only
    | simp only [sound_other]
    | split)

theorem State.pumpPort_keeps (s : State) (p : Nat) (h_s : Sound fuse s) :
    Sound fuse (State.pumpPort s p) := by
  unfold State.pumpPort
  repeat' (first
    | (intro _ _ _)
    | (with_reducible first
      | assumption
      | apply State.queueFlit_keeps
      | apply State.setPort_keeps
      | apply sound_foldl))

theorem State.enqueue_keeps (p : Nat) (s : State) (f : Flit) (h_s : Sound fuse s) :
    Sound fuse (State.enqueue p s f) := by
  unfold State.enqueue
  repeat' (first
    | (intro _ _ _)
    | (with_reducible first
      | assumption
      | apply State.setPort_keeps
      | apply State.queueFlit_keeps)
    | dsimp only
    | simp only [sound_other]
    | split)

theorem State.shiftQueue_keeps (s : State) (p : Nat) (h_s : Sound fuse s) :
    Sound fuse (State.shiftQueue s p) := by
  unfold State.shiftQueue
  repeat' (first
    | (intro _ _ _)
    | (with_reducible first
      | assumption
      | apply State.enqueue_keeps
      | apply State.setPort_keeps
      | apply sound_foldl
      | (refine sound_snd (by assumption) ?_)
      | (refine sound_fst (by assumption) ?_))
    | dsimp only
    | simp only [sound_other]
    | split)

theorem State.carry_keeps (s : State) (n : Nat) (dst : Nat) (x : Carry) (h_s : Sound fuse s) :
    Sound fuse (State.carry s n dst x) := by
  unfold State.carry
  repeat' (first
    | (intro _ _ _)
    | (with_reducible first
      | assumption
      | apply State.charge_keeps
      | apply State.enqueue_keeps
      | apply sound_foldl
      | (refine sound_snd (by assumption) ?_)
      | (refine sound_fst (by assumption) ?_))
    | dsimp only
    | split)

theorem State.carryLines_keeps (s : State) (n : Nat) (dst : Nat) (m : Nat) (tier : Nat) (off : Nat) (data : List Byte)
    (tag : Nat) (port : (Option Nat)) (die : Nat) (h_s : Sound fuse s) :
    Sound fuse (State.carryLines s n dst m tier off data tag port die) := by
  unfold State.carryLines
  repeat' (first
    | (intro _ _ _)
    | (with_reducible first
      | assumption
      | apply State.carry_keeps
      | apply State.emit_keeps))

theorem State.carryRead_keeps (s : State) (n : Nat) (dst : Nat) (m : Nat) (tier : Nat) (off : Nat) (tag : Nat)
    (count : Nat) (die : Nat) (h_s : Sound fuse s) :
    Sound fuse (State.carryRead s n dst m tier off tag count die) := by
  unfold State.carryRead
  repeat' (first
    | (intro _ _ _)
    | (with_reducible first
      | assumption
      | apply State.carry_keeps
      | apply State.emit_keeps))

end Sys2Proof.Machine
end

