-- ==== Sys2Proof/Laws/KeepsArbiter.lean ====
section
/-! SUPPORT. The operations of Machine/Arbiter.lean keep a state sound. -/

namespace Sys2Proof.Machine

open State

variable {fuse : Otp}

theorem State.setArb_keeps (s : State) (group : Nat) (unit : Nat) (x : Arb) (h_s : Sound fuse s) :
    Sound fuse (State.setArb s group unit x) := by
  unfold State.setArb
  repeat' (first
    | (intro _ _ _)
    | (with_reducible first
      | assumption)
    | dsimp only
    | simp only [sound_other])

theorem State.countGrant_keeps (s : State) (group : Nat) (gated : Bool) (x : Arb) (l : List ArbReq) (w : ArbReq)
    (forced : Bool) (h_s : Sound fuse s) :
    Sound fuse (State.countGrant s group gated x l w forced) := by
  unfold State.countGrant
  repeat' (first
    | (intro _ _ _)
    | (with_reducible first
      | assumption
      | apply State.bump_keeps
      | apply State.wr_keeps
      | apply sound_foldl)
    | dsimp only
    | split)

theorem State.arbitrate_keeps (s : State) (r : ArbRound) (h_s : Sound fuse s) :
    Sound fuse (State.arbitrate s r) := by
  unfold State.arbitrate
  repeat' (first
    | (intro _ _ _)
    | (with_reducible first
      | assumption
      | apply State.bump_keeps
      | apply State.setArb_keeps
      | apply State.countGrant_keeps
      | (refine sound_snd (by assumption) ?_)
      | (refine sound_fst (by assumption) ?_))
    | dsimp only
    | simp only [sound_other]
    | split)

theorem State.arbitrateAll_keeps (s : State) (l : List ArbRound) (h_s : Sound fuse s) :
    Sound fuse (State.arbitrateAll s l) := by
  unfold State.arbitrateAll
  repeat' (first
    | (intro _ _ _)
    | (with_reducible first
      | assumption
      | apply State.arbitrate_keeps
      | apply sound_foldl))

theorem State.breakLock_keeps (s : State) (group : Nat) (unit : Nat) (input : Nat) (h_s : Sound fuse s) {t : State}
    (e : State.breakLock s group unit input = some t) :
    Sound fuse t := by
  unfold State.breakLock at e
  try dsimp only at e
  repeat' (first
    | (simp only [Option.some.injEq, reduceCtorEq] at e)
    | (simp only [Option.map_eq_some_iff, Prod.mk.injEq] at e)
    | (obtain ⟨rfl, _⟩ := e)
    | (obtain ⟨_, _, _, rfl⟩ := e)
    | (obtain ⟨_, _, rfl⟩ := e)
    | (subst e)
    | (split at e))
  repeat' (first
    | (intro _ _ _)
    | (with_reducible first
      | assumption
      | apply State.setArb_keeps
      | apply State.bump_keeps))

end Sys2Proof.Machine
end

