-- ==== Sys2Proof/Laws/KeepsDict.lean ====
section
/-! SUPPORT. The operations of Machine/Dict.lean keep a state sound. -/

namespace Sys2Proof.Machine

open State

variable {fuse : Otp}

theorem State.setSession_keeps (s : State) (x : Session) (h_s : Sound fuse s) :
    Sound fuse (State.setSession s x) := by
  unfold State.setSession
  repeat' (first
    | (intro _ _ _)
    | (with_reducible first
      | assumption)
    | dsimp only
    | simp only [sound_other])

end Sys2Proof.Machine
end

