-- ==== Sys2Proof/Laws/KeepsCells.lean ====
section
/-! SUPPORT. The operations of Machine/Cells.lean keep a state sound. -/

namespace Sys2Proof.Machine

open State

variable {fuse : Otp}

theorem State.installProgram_keeps (s : State) (g : Nat) (n : Nat) (a : ProgImage) (h_s : Sound fuse s) :
    Sound fuse (State.installProgram s g n a) := by
  unfold State.installProgram
  repeat' (first
    | (intro _ _ _)
    | (with_reducible first
      | assumption
      | apply State.setGrove_keeps))

theorem State.checkGrove_keeps (s : State) (g : Nat) (h_s : Sound fuse s) :
    Sound fuse (State.checkGrove s g) := by
  unfold State.checkGrove
  repeat' (first
    | (intro _ _ _)
    | (with_reducible first
      | assumption
      | apply State.postAll_keeps
      | apply State.setGrove_keeps
      | apply State.stopPlan_keeps
      | apply sound_foldl)
    | dsimp only
    | simp only [sound_other]
    | split)

theorem State.markRetired_keeps (s : State) (g p : Nat) (h : Sound fuse s) : Sound fuse (State.markRetired s g p) := by
  unfold State.markRetired
  dsimp only
  generalize hx : s.setGrove g _ = s1
  have h1 : Sound fuse s1 := by subst hx; exact State.setGrove_keeps _ _ _ h
  refine State.wr_keeps _ _ _ _ (State.wr_keeps _ _ _ _ ?_)
  split
  · exact h1
  · rename_i hf
    have hlt : ¬ 32 ≤ (s1.otp.retired.filter fun r => r / 512 == (g * 512 + p) / 512).length := by
      intro hc; exact hf (by simp [hc])
    refine ⟨h1.1, h1.2.1, ⟨fun k => ?_, h1.2.2.1.2⟩, Otp.grows_retired h1.2.2.2 _⟩
    have hk := h1.2.2.1.1 k
    by_cases e : (g * 512 + p) / 512 = k
    · subst e
      simp only [List.filter_append, List.length_append]
      simp
      omega
    · simpa [List.filter_append, e] using hk

theorem State.queueRepl_keeps (s : State) (g : Nat) (r : Repl) (h_s : Sound fuse s) :
    Sound fuse (State.queueRepl s g r) := by
  unfold State.queueRepl
  repeat' (first
    | (intro _ _ _)
    | (with_reducible first
      | assumption
      | apply State.setGrove_keeps
      | (refine sound_snd (by assumption) ?_)
      | (refine sound_fst (by assumption) ?_))
    | dsimp only
    | simp only [sound_other]
    | split)

theorem State.updateMarginMin_keeps (s : State) (g : Nat) (h_s : Sound fuse s) :
    Sound fuse (State.updateMarginMin s g) := by
  unfold State.updateMarginMin
  repeat' (first
    | (intro _ _ _)
    | (with_reducible first
      | assumption
      | apply State.wr_keeps
      | apply sound_foldl
      | apply sound_foldl_fst
      | apply sound_foldl_snd
      | (refine sound_snd (by assumption) ?_)
      | (refine sound_fst (by assumption) ?_))
    | dsimp only
    | split)

theorem State.hasten_keeps (s : State) (g : Nat) (p : Nat) (h_s : Sound fuse s) :
    Sound fuse (State.hasten s g p) := by
  unfold State.hasten
  repeat' (first
    | (intro _ _ _)
    | (with_reducible first
      | assumption
      | apply State.setGrove_keeps
      | apply State.queueRepl_keeps)
    | dsimp only
    | split)

theorem State.retireCell_keeps (s : State) (g : Nat) (p : Nat) (urgent : Bool) (h_s : Sound fuse s) :
    Sound fuse (State.retireCell s g p urgent) := by
  unfold State.retireCell
  repeat' (first
    | (intro _ _ _)
    | (with_reducible first
      | assumption
      | apply State.markRetired_keeps
      | apply State.wr_keeps
      | apply State.queueRepl_keeps
      | apply State.checkGrove_keeps
      | apply State.updateMarginMin_keeps
      | apply State.hasten_keeps
      | (refine sound_snd (by assumption) ?_)
      | (refine sound_fst (by assumption) ?_))
    | dsimp only
    | simp only [sound_other]
    | split)

theorem State.setMap_keeps (s : State) (g : Nat) (c : Nat) (p : Nat) (h_s : Sound fuse s) :
    Sound fuse (State.setMap s g c p) := by
  unfold State.setMap
  repeat' (first
    | (intro _ _ _)
    | (with_reducible first
      | assumption
      | apply State.setGrove_keeps))

theorem State.spillCell_keeps (s : State) (g : Nat) (c : Nat) (h_s : Sound fuse s) :
    Sound fuse (State.spillCell s g c) := by
  unfold State.spillCell
  repeat' (first
    | (intro _ _ _)
    | (with_reducible first
      | assumption
      | apply State.copyMem_keeps
      | apply sound_foldl
      | apply sound_foldl_fst
      | apply sound_foldl_snd)
    | dsimp only
    | split)

theorem State.unspillCell_keeps (s : State) (g : Nat) (c : Nat) (h_s : Sound fuse s) :
    Sound fuse (State.unspillCell s g c) := by
  unfold State.unspillCell
  repeat' (first
    | (intro _ _ _)
    | (with_reducible first
      | assumption
      | apply State.moveMem_keeps
      | apply State.wipe_keeps
      | apply sound_foldl))

theorem State.multiplexOnto_keeps (s : State) (g : Nat) (c : Nat) (h : Nat) (h_s : Sound fuse s) :
    Sound fuse (State.multiplexOnto s g c h) := by
  unfold State.multiplexOnto
  repeat' (first
    | (intro _ _ _)
    | (with_reducible first
      | assumption
      | apply State.setMap_keeps
      | apply State.spillCell_keeps
      | apply State.setGrove_keeps
      | apply State.postAll_keeps
      | apply State.wr_keeps))

theorem State.nextRepl_keeps (s : State) (g : Nat) (h_s : Sound fuse s) :
    Sound fuse (State.nextRepl s g) := by
  unfold State.nextRepl
  repeat' (first
    | (intro _ _ _)
    | (with_reducible first
      | assumption
      | apply State.setGrove_keeps
      | (refine sound_snd (by assumption) ?_)
      | (refine sound_fst (by assumption) ?_))
    | dsimp only
    | simp only [sound_other]
    | split)

theorem State.moveToSpare_keeps (s : State) (g : Nat) (p : Nat) (q : Nat) (urgent : Bool) (h_s : Sound fuse s) :
    Sound fuse (State.moveToSpare s g p q urgent) := by
  unfold State.moveToSpare
  repeat' (first
    | (intro _ _ _)
    | (with_reducible first
      | assumption
      | apply State.setMap_keeps
      | apply State.moveMem_keeps
      | apply State.setGrove_keeps
      | apply State.wr_keeps
      | apply sound_foldl))

theorem State.agePolicy_keeps (s : State) (g : Nat) (p : Nat) (h_s : Sound fuse s) :
    Sound fuse (State.agePolicy s g p) := by
  unfold State.agePolicy
  repeat' (first
    | (intro _ _ _)
    | (with_reducible first
      | assumption
      | apply State.setGrove_keeps
      | apply State.retireCell_keeps
      | (refine sound_snd (by assumption) ?_)
      | (refine sound_fst (by assumption) ?_))
    | dsimp only
    | simp only [sound_other]
    | split)

theorem State.ageCell_keeps (s : State) (g : Nat) (p : Nat) (h_s : Sound fuse s) :
    Sound fuse (State.ageCell s g p) := by
  unfold State.ageCell
  repeat' (first
    | (intro _ _ _)
    | (with_reducible first
      | assumption
      | apply State.agePolicy_keeps
      | (refine sound_snd (by assumption) ?_)
      | (refine sound_fst (by assumption) ?_))
    | dsimp only
    | split)

theorem State.replaceNow_keeps (s : State) (g : Nat) (spareOk : Bool) (h_s : Sound fuse s) :
    Sound fuse (State.replaceNow s g spareOk) := by
  unfold State.replaceNow
  repeat' (first
    | (intro _ _ _)
    | (with_reducible first
      | assumption
      | apply State.moveToSpare_keeps
      | apply State.updateMarginMin_keeps
      | apply State.ageCell_keeps
      | apply State.nextRepl_keeps
      | apply State.postAll_keeps
      | apply State.retireCell_keeps
      | apply State.multiplexOnto_keeps
      | apply sound_foldl
      | (refine sound_snd (by assumption) ?_)
      | (refine sound_fst (by assumption) ?_))
    | dsimp only
    | split)

theorem State.noteBadLine_keeps (s : State) (g : Nat) (phys : Nat) (off : Nat) (h_s : Sound fuse s) :
    Sound fuse (State.noteBadLine s g phys off) := by
  unfold State.noteBadLine
  repeat' (first
    | (intro _ _ _)
    | (with_reducible first
      | assumption
      | apply State.setGrove_keeps
      | apply State.retireCell_keeps)
    | dsimp only
    | simp only [sound_other]
    | split)

theorem State.noteBadWord_keeps (s : State) (g : Nat) (c : Nat) (off : Nat) (h_s : Sound fuse s) :
    Sound fuse (State.noteBadWord s g c off) := by
  unfold State.noteBadWord
  repeat' (first
    | (intro _ _ _)
    | (with_reducible first
      | assumption
      | apply State.setCell_keeps))

theorem State.wordLost_keeps (s : State) (owner : Nat) (g : Nat) (c : Nat) (tileId : Nat) (off : Nat) (h_s : Sound fuse s) :
    Sound fuse (State.wordLost s owner g c tileId off) := by
  unfold State.wordLost
  repeat' (first
    | (intro _ _ _)
    | (with_reducible first
      | assumption
      | apply State.post_keeps
      | apply State.bump_keeps
      | apply State.noteBadLine_keeps
      | apply State.noteBadWord_keeps
      | apply State.stopPlan_keeps))

theorem State.testedLost_keeps (s : State) (g : Nat) (phys : Nat) (w : Nat × Nat) (h_s : Sound fuse s) :
    Sound fuse (State.testedLost s g phys w) := by
  unfold State.testedLost
  repeat' (first
    | (intro _ _ _)
    | (with_reducible first
      | assumption
      | apply State.noteBadLine_keeps
      | apply State.bump_keeps
      | apply State.wordLost_keeps
      | apply State.noteBadWord_keeps
      | (refine sound_snd (by assumption) ?_)
      | (refine sound_fst (by assumption) ?_))
    | dsimp only
    | split)

theorem State.takeMargins_keeps (s : State) (g : Nat) (l : List (Nat × Nat)) (h_s : Sound fuse s) :
    Sound fuse (State.takeMargins s g l) := by
  unfold State.takeMargins
  repeat' (first
    | (intro _ _ _)
    | (with_reducible first
      | assumption
      | apply State.updateMarginMin_keeps
      | apply State.setGrove_keeps))

theorem State.ageModule_keeps (s : State) (h_s : Sound fuse s) :
    Sound fuse (State.ageModule s) := by
  unfold State.ageModule
  repeat' (first
    | (intro _ _ _)
    | (with_reducible first
      | assumption
      | apply State.ageCell_keeps
      | apply sound_foldl))

theorem State.measureMargin_keeps (s : State) (g : Nat) (p : Nat) (m : Nat) (h_s : Sound fuse s) :
    Sound fuse (State.measureMargin s g p m) := by
  unfold State.measureMargin
  repeat' (first
    | (intro _ _ _)
    | (with_reducible first
      | assumption
      | apply State.updateMarginMin_keeps
      | apply State.setGrove_keeps
      | apply State.postAll_keeps
      | apply State.retireCell_keeps
      | apply State.ageCell_keeps
      | (refine sound_snd (by assumption) ?_)
      | (refine sound_fst (by assumption) ?_))
    | dsimp only
    | simp only [sound_other]
    | split)

theorem State.setSupply_keeps (s : State) (g : Nat) (mv : Nat) (h_s : Sound fuse s) :
    Sound fuse (State.setSupply s g mv) := by
  unfold State.setSupply
  repeat' (first
    | (intro _ _ _)
    | (with_reducible first
      | assumption
      | apply State.wr_keeps))

theorem State.lowerFloor_keeps (s : State) (g : Nat) (h : Sound fuse s) : Sound fuse (State.lowerFloor s g) :=
  State.postAll_keeps _ _ _ _ ⟨h.1, h.2.1, h.2.2.1, Otp.grows_floor h.2.2.2 _ _⟩

theorem State.remarginStep_keeps (s : State) (g : Nat) (margins : List (Nat × Nat)) (h : Sound fuse s) :
    Sound fuse (State.remarginStep s g margins) := by
  unfold State.remarginStep
  dsimp only
  split
  · exact h
  split
  · exact State.setGrove_keeps _ _ _ h
  split
  · rename_i hlow
    refine State.takeMargins_keeps _ _ _ (State.postAll_keeps _ _ _ _ (State.setSupply_keeps _ _ _ ⟨h.1, h.2.1, ?_,
      Otp.grows_supply h.2.2.2 g⟩))
    refine ⟨h.2.2.1.1, h.2.2.1.2.1, h.2.2.1.2.2.1, fun p hp => ?_⟩
    rcases mem_ins hp with rfl | hm
    · simp only [State.lowestSupply] at hlow
      simp only
      omega
    · exact h.2.2.1.2.2.2 p hm
  split
  · exact State.takeMargins_keeps _ _ _ (State.lowerFloor_keeps _ _ h)
  · exact State.updateMarginMin_keeps _ _
      (sound_foldl (State.setGrove_keeps _ _ _ h) fun s x hs => State.retireCell_keeps _ _ _ _ hs)

theorem execSpareIn_keeps (g : Nat) (spareOk : Bool) (s : State) (h_s : Kept fuse s) :
    AnsKept fuse (execSpareIn g spareOk s) := by
  unfold execSpareIn
  first
    | (refine ansInv_inRange (by assumption) fun _ => Sound.inv ?_)
  repeat' (first
    | (intro _ _ _)
    | (with_reducible first
      | assumption
      | apply State.replaceNow_keeps))

theorem execMultiplexSwitch_keeps (g : Nat) (phys : Nat) (s : State) (h_s : Kept fuse s) :
    AnsKept fuse (execMultiplexSwitch g phys s) := by
  unfold execMultiplexSwitch
  first
    | (refine ansInv_inRange (by assumption) fun _ => Sound.inv ?_)
  repeat' (first
    | (intro _ _ _)
    | (with_reducible first
      | assumption
      | apply State.charge_keeps
      | apply State.unspillCell_keeps
      | apply State.spillCell_keeps
      | apply State.setGrove_keeps
      | apply sound_foldl
      | apply sound_onlyIf)
    | dsimp only
    | simp only [sound_other]
    | split)

theorem execRemargin_keeps (g : Nat) (margins : List (Nat × Nat)) (s : State) (h_s : Kept fuse s) :
    AnsKept fuse (execRemargin g margins s) := by
  unfold execRemargin
  first
    | (refine ansInv_inRange (by assumption) fun _ => Sound.inv ?_)
  repeat' (first
    | (intro _ _ _)
    | (with_reducible first
      | assumption
      | apply State.remarginStep_keeps))

theorem execTestOverdue_keeps (g : Nat) (phys : Nat) (s : State) (h_s : Kept fuse s) :
    AnsKept fuse (execTestOverdue g phys s) := by
  unfold execTestOverdue
  first
    | (refine ansInv_inRange (by assumption) fun _ => Sound.inv ?_)
  repeat' (first
    | (intro _ _ _)
    | (with_reducible first
      | assumption
      | apply State.postAll_keeps
      | apply State.setGrove_keeps
      | apply sound_onlyIf))

theorem execUnderstorySegment_keeps (g : Nat) (phys : Nat) (o : SegOut) (s : State) (h_s : Kept fuse s) :
    AnsKept fuse (execUnderstorySegment g phys o s) := by
  unfold execUnderstorySegment
  first
    | (refine ansInv_inRange (by assumption) fun _ => Sound.inv ?_)
  repeat' (first
    | (intro _ _ _)
    | (with_reducible first
      | assumption
      | apply State.measureMargin_keeps
      | apply State.setGrove_keeps
      | apply State.retireCell_keeps
      | apply State.postAll_keeps
      | apply State.bump_keeps
      | apply State.testedLost_keeps
      | apply sound_foldl
      | apply sound_onlyIf
      | (refine sound_snd (by assumption) ?_)
      | (refine sound_fst (by assumption) ?_))
    | dsimp only
    | simp only [sound_other]
    | split)

end Sys2Proof.Machine
end

