-- ==== Sys2Proof/Laws/KeepsPower.lean ====
section
/-! SUPPORT. The operations of Machine/Power.lean keep a state sound. -/

namespace Sys2Proof.Machine

open State

variable {fuse : Otp}

theorem State.setJunction_keeps (s : State) (die : Nat) (mC : Int) (h_s : Sound fuse s) :
    Sound fuse (State.setJunction s die mC) := by
  unfold State.setJunction
  repeat' (first
    | (intro _ _ _)
    | (with_reducible first
      | assumption
      | apply State.wr_keeps))

theorem State.stepDown_keeps (s : State) (g : Nat) (h_s : Sound fuse s) :
    Sound fuse (State.stepDown s g) := by
  unfold State.stepDown
  repeat' (first
    | (intro _ _ _)
    | (with_reducible first
      | assumption
      | apply State.setSupply_keeps))

theorem State.stepUp_keeps (s : State) (g : Nat) (h_s : Sound fuse s) :
    Sound fuse (State.stepUp s g) := by
  unfold State.stepUp
  repeat' (first
    | (intro _ _ _)
    | (with_reducible first
      | assumption
      | apply State.setSupply_keeps))

theorem State.onGroves_keeps (s : State) (f : State → Nat → State) (h : Sound fuse s)
    (hf : ∀ s g, Sound fuse s → Sound fuse (f s g)) : Sound fuse (State.onGroves s f) :=
  sound_foldl h hf

theorem State.doHold_keeps (s : State) (h_s : Sound fuse s) :
    Sound fuse (State.doHold s) := by
  unfold State.doHold
  repeat' (first
    | (intro _ _ _)
    | (with_reducible first
      | assumption)
    | dsimp only
    | simp only [sound_other]
    | simp only [sound_power]
    | split)

theorem State.enterHeld_keeps (s : State) (h : Sound fuse s) : Sound fuse (State.enterHeld s) :=
  State.postAll_keeps _ _ _ _ (sound_withPower _ h (by simp))

theorem State.applyNumber_keeps (s : State) (h_s : Sound fuse s) :
    Sound fuse (State.applyNumber s) := by
  unfold State.applyNumber
  repeat' (first
    | (intro _ _ _)
    | (with_reducible first
      | assumption
      | apply State.wr_keeps
      | apply State.setFrc_keeps
      | apply sound_foldl)
    | dsimp only
    | simp only [sound_other]
    | simp only [sound_power]
    | split)

theorem State.doResume_keeps (s : State) (h : Sound fuse s) : Sound fuse (State.doResume s) := by
  unfold State.doResume
  dsimp only
  split
  · exact State.postAll_keeps _ _ _ _ (State.ageModule_keeps _ (State.applyNumber_keeps _ (State.setFrc_keeps _ _ _ _
      (sound_withPower _ h (by simp)))))
  · split
    · exact sound_withPower _ h h.1
    · exact h

theorem State.reportSelf_keeps (s : State) (h_s : Sound fuse s) :
    Sound fuse (State.reportSelf s) := by
  unfold State.reportSelf
  repeat' (first
    | (intro _ _ _)
    | (with_reducible first
      | assumption
      | apply State.emit_keeps
      | apply sound_foldl))

theorem execPowerOff_keeps (c : OffCause) (s : State) (h : Kept fuse s) : AnsKept fuse (execPowerOff c s) :=
  ansInv_whenOn h (State.powerDown_keeps s)

theorem execHoldDone_keeps (s : State) (h_s : Kept fuse s) :
    AnsKept fuse (execHoldDone s) := by
  unfold execHoldDone
  first
    | (refine ansInv_inRange (by assumption) fun _ => Sound.inv ?_)
    | (refine ansInv_whenOn (by assumption) fun _ => Sound.inv ?_)
  repeat' (first
    | (intro _ _ _)
    | (with_reducible first
      | assumption
      | apply State.doResume_keeps
      | apply State.enterHeld_keeps
      | apply sound_onlyIf)
    | dsimp only
    | split)

theorem execCapControlTick_keeps (mv ma w : Nat) (s : State) (h : Kept fuse s) :
    AnsKept fuse (execCapControlTick mv ma w s) := by
  unfold execCapControlTick
  extract_lets mj s1 s2 cap s3 stuck s4 p5 s5
  refine ansInv_whenOn h fun hs => Sound.inv ?_
  have h2 : Sound fuse s2 := hs
  have h3 : Sound fuse s3 := by
    simp only [s3]
    split
    · exact h2
    split
    · exact State.onGroves_keeps _ _ h2 fun _ _ hx => State.stepDown_keeps _ _ hx
    · split
      · exact State.onGroves_keeps _ _ h2 fun _ _ hx => State.stepUp_keeps _ _ hx
      · exact h2
  have h4 : Sound fuse s4 := by
    simp only [s4]
    split
    · exact State.postAll_keeps _ _ _ _ h3
    · exact h3
  have h5 : Sound fuse s5 := sound_withPower _ h4 h4.1
  split
  · exact State.bump_keeps _ _ _ _ h5
  · exact h5

theorem execThermalWarn_keeps (g : Nat) (mC : Int) (s : State) (h_s : Kept fuse s) :
    AnsKept fuse (execThermalWarn g mC s) := by
  unfold execThermalWarn
  first
    | (refine ansInv_inRange (by assumption) fun _ => Sound.inv ?_)
  repeat' (first
    | (intro _ _ _)
    | (with_reducible first
      | assumption
      | apply State.setJunction_keeps
      | apply State.postAll_keeps
      | apply State.stepDown_keeps)
    | dsimp only
    | simp only [sound_other]
    | simp only [sound_power]
    | split)

theorem execThermalTrip_keeps (die : Nat) (mC : Int) (s : State) (h_s : Kept fuse s) :
    AnsKept fuse (execThermalTrip die mC s) := by
  unfold execThermalTrip
  first
    | (refine ansInv_inRange (by assumption) fun _ => Sound.inv ?_)
  repeat' (first
    | (intro _ _ _)
    | (with_reducible first
      | assumption
      | apply State.setJunction_keeps
      | apply State.doHold_keeps
      | apply State.onGroves_keeps
      | apply State.setSupply_keeps
      | apply State.postAll_keeps
      | apply State.reportSelf_keeps)
    | dsimp only
    | simp only [sound_other]
    | simp only [sound_power]
    | split)

theorem execThermRelease_keeps (temps : List (Nat × Int)) (s : State) (h_s : Kept fuse s) :
    AnsKept fuse (execThermRelease temps s) := by
  unfold execThermRelease
  first
    | (refine ansInv_inRange (by assumption) fun _ => Sound.inv ?_)
    | (refine ansInv_whenOn (by assumption) fun _ => Sound.inv ?_)
  repeat' (first
    | (intro _ _ _)
    | (with_reducible first
      | assumption
      | apply State.setJunction_keeps
      | apply sound_foldl
      | apply sound_foldl_fst
      | apply sound_foldl_snd)
    | dsimp only
    | simp only [sound_other]
    | simp only [sound_power]
    | split)

theorem execThermalHotTimeout_keeps (die : Nat) (mC : Int) (s : State) (h : Kept fuse s) :
    AnsKept fuse (execThermalHotTimeout die mC s) := by
  refine ansInv_inRange h fun hs => ?_
  split
  · exact State.powerDown_keeps s hs
  · exact (State.setJunction_keeps _ _ _ hs).inv

theorem execCoolantLow_keeps (flow : Nat) (tin : Int) (tout : Int) (s : State) (h_s : Kept fuse s) :
    AnsKept fuse (execCoolantLow flow tin tout s) := by
  unfold execCoolantLow
  first
    | (refine ansInv_inRange (by assumption) fun _ => Sound.inv ?_)
    | (refine ansInv_whenOn (by assumption) fun _ => Sound.inv ?_)
  repeat' (first
    | (intro _ _ _)
    | (with_reducible first
      | assumption
      | apply State.wr_keeps
      | apply State.postAll_keeps)
    | dsimp only
    | simp only [sound_other]
    | simp only [sound_power]
    | split)

theorem execRateMeasure_keeps (die : Nat) (beats : Nat) (s : State) (h_s : Kept fuse s) :
    AnsKept fuse (execRateMeasure die beats s) := by
  unfold execRateMeasure
  first
    | (refine ansInv_inRange (by assumption) fun _ => Sound.inv ?_)
  repeat' (first
    | (intro _ _ _)
    | (with_reducible first
      | assumption
      | apply State.wr_keeps
      | apply State.bump_keeps
      | apply sound_onlyIf)
    | dsimp only
    | split)

theorem execRegRefill_keeps (n : Nat) (res : Nat) (dir : Nat) (s : State) (h_s : Kept fuse s) :
    AnsKept fuse (execRegRefill n res dir s) := by
  unfold execRegRefill
  first
    | (refine ansInv_inRange (by assumption) fun _ => Sound.inv ?_)
  repeat' (first
    | (intro _ _ _)
    | (with_reducible first
      | assumption
      | apply State.drawAll_keeps
      | apply sound_onlyIf)
    | dsimp only
    | simp only [sound_other])

theorem execPerstAssert_keeps (s : State) (h : Kept fuse s) : AnsKept fuse (execPerstAssert s) :=
  ansInv_next ⟨⟨h.1.1, h.1.2.1, fun e => by
    have e1 : s.power.mode = .off := e
    have e2 := h.1.2.2 e1
    have e3 : s.power.linkUp = false := by rw [e2]; rfl
    rw [e2]; rfl⟩, h.2⟩

theorem execPerstRelease_keeps (s : State) (h : Kept fuse s) : AnsKept fuse (execPerstRelease s) :=
  ansInv_next ⟨⟨h.1.1, h.1.2.1, fun e => by
    have e1 : s.power.mode = .off := e
    rw [h.1.2.2 e1]; rfl⟩, h.2⟩

theorem execPcieLinkDown_keeps (s : State) (h_s : Kept fuse s) :
    AnsKept fuse (execPcieLinkDown s) := by
  unfold execPcieLinkDown
  first
    | (refine ansInv_inRange (by assumption) fun _ => Sound.inv ?_)
    | (refine ansInv_whenOn (by assumption) fun _ => Sound.inv ?_)
  repeat' (first
    | (intro _ _ _)
    | (with_reducible first
      | assumption)
    | dsimp only
    | simp only [sound_other]
    | simp only [sound_power])

end Sys2Proof.Machine
end

