-- ==== Sys2Proof/Laws/KeepsStore.lean ====
section
/-! SUPPORT. The operations of Machine/Store.lean keep a state sound. -/

namespace Sys2Proof.Machine

open State

variable {fuse : Otp}

theorem State.beginStore_keeps (s : State) (records : List (Nat × List Byte)) (h_s : Sound fuse s) :
    Sound fuse (State.beginStore s records) := by
  unfold State.beginStore
  repeat' (first
    | (intro _ _ _)
    | (with_reducible first
      | assumption
      | apply State.wr_keeps
      | (refine sound_snd (by assumption) ?_)
      | (refine sound_fst (by assumption) ?_))
    | dsimp only
    | simp only [sound_other]
    | simp only [sound_flash]
    | split)

theorem State.storeCmd_keeps (s : State) (v : Nat) (h_s : Sound fuse s) {t : State} (e : State.storeCmd s v = .ok t) :
    Sound fuse t := by
  unfold State.storeCmd at e
  try dsimp only at e
  repeat' (first
    | (simp only [Except.ok.injEq, reduceCtorEq] at e)
    | (simp only [Option.map_eq_some_iff, Prod.mk.injEq] at e)
    | (obtain ⟨rfl, _⟩ := e)
    | (obtain ⟨_, _, _, rfl⟩ := e)
    | (obtain ⟨_, _, rfl⟩ := e)
    | (subst e)
    | (split at e))
  repeat' (first
    | (intro _ _ _)
    | (with_reducible first
      | assumption
      | apply State.beginStore_keeps))

theorem State.endStore_keeps (s : State) (h : Sound fuse s) : Sound fuse (State.endStore s) := by
  unfold State.endStore
  dsimp only
  split
  · exact h
  · refine State.postAll_keeps _ _ _ _ (State.bump_keeps _ _ _ _ (State.wr_keeps _ _ _ _ (State.wr_keeps _ _ _ _ ?_)))
    split
    · exact ⟨h.1, h.2.1, h.2.2.1, Otp.grows_write h.2.2.2⟩
    · exact ⟨h.1, h.2.1, h.2.2.1, Otp.grows_write h.2.2.2⟩

theorem State.setInactive_keeps (s : State) (m : Mem) (h : Sound fuse s) (hm : Mem.wf m = true) :
    Sound fuse (State.setInactive s m) := by
  unfold State.setInactive
  dsimp only
  refine State.wr_keeps _ _ _ _ ?_
  split
  · exact ⟨h.1, ⟨h.2.1.1, hm, h.2.1.2.2⟩, h.2.2⟩
  · exact ⟨h.1, ⟨h.2.1.1, h.2.1.2.1, hm⟩, h.2.2⟩

theorem State.stageStatus_keeps (s : State) (n : Name) (h_s : Sound fuse s) :
    Sound fuse (State.stageStatus s n) := by
  unfold State.stageStatus
  repeat' (first
    | (intro _ _ _)
    | (with_reducible first
      | assumption
      | apply State.wr_keeps))

theorem State.stageData_keeps (s : State) (v : List Byte) (h : Sound fuse s) : Sound fuse (State.stageData s v) := by
  refine State.stageStatus_keeps _ _ (State.setInactive_keeps _ _ h (Mem.wf_writes _ _ ?_))
  unfold State.image
  split
  · exact h.2.1.2.1
  · exact h.2.1.2.2

theorem State.stageCmd_keeps (s : State) (v : Nat) (h : Sound fuse s) {t : State} (e : State.stageCmd s v = .ok t) :
    Sound fuse t := by
  unfold State.stageCmd at e
  dsimp only at e
  split at e
  · cases e
    exact State.stageStatus_keeps _ _ (State.setInactive_keeps _ _ h Mem.wf_nil)
  · cases e
    apply State.stageStatus_keeps
    simp only [sound_flash]
    exact h
  · split at e
    · cases e
      apply State.stageStatus_keeps
      simp only [sound_flash]
      exact h
    · cases e

theorem execStoreDone_keeps (s : State) (h_s : Kept fuse s) :
    AnsKept fuse (execStoreDone s) := by
  unfold execStoreDone
  first
    | (refine ansInv_inRange (by assumption) fun _ => Sound.inv ?_)
    | (refine ansInv_whenOn (by assumption) fun _ => Sound.inv ?_)
  repeat' (first
    | (intro _ _ _)
    | (with_reducible first
      | assumption
      | apply State.endStore_keeps))

end Sys2Proof.Machine
end

