-- ==== Sys2Proof/Laws/KeepsSecure.lean ====
section
/-! SUPPORT. The operations of Machine/Secure.lean keep a state sound. -/

namespace Sys2Proof.Machine

open State

variable {fuse : Otp}

theorem State.drbg_keeps (s : State) (len : Nat) (h_s : Sound fuse s) :
    Sound fuse (State.drbg s len).2 := by
  unfold State.drbg
  repeat' (first
    | (intro _ _ _)
    | (with_reducible first
      | assumption)
    | dsimp only
    | simp only [sound_other])

theorem State.closeSession_keeps (s : State) (num : Nat) (h_s : Sound fuse s) :
    Sound fuse (State.closeSession s num) := by
  unfold State.closeSession
  repeat' (first
    | (intro _ _ _)
    | (with_reducible first
      | assumption)
    | dsimp only
    | simp only [sound_other])

theorem State.closeKeyless_keeps (s : State) (h_s : Sound fuse s) :
    Sound fuse (State.closeKeyless s) := by
  unfold State.closeKeyless
  repeat' (first
    | (intro _ _ _)
    | (with_reducible first
      | assumption
      | (refine sound_snd (by assumption) ?_)
      | (refine sound_fst (by assumption) ?_))
    | dsimp only
    | simp only [sound_other])

theorem State.addSession_keeps (s : State) (r : Role) (sk : List Byte) (h_s : Sound fuse s) :
    Sound fuse (State.addSession s r sk).2 := by
  unfold State.addSession
  repeat' (first
    | (intro _ _ _)
    | (with_reducible first
      | assumption)
    | dsimp only
    | simp only [sound_other])

theorem State.putReply_keeps (s : State) (b : List Byte) (h_s : Sound fuse s) :
    Sound fuse (State.putReply s b) := by
  unfold State.putReply
  repeat' (first
    | (intro _ _ _)
    | (with_reducible first
      | assumption
      | apply State.wrBlob_keeps))

theorem State.refuseOpen_keeps (s : State) (v : List Byte) (status : Name) (h_s : Sound fuse s) :
    Sound fuse (State.refuseOpen s v status) := by
  unfold State.refuseOpen
  repeat' (first
    | (intro _ _ _)
    | (with_reducible first
      | assumption
      | apply State.drbg_keeps
      | apply State.putReply_keeps))

theorem State.openWith_keeps (s : State) (v : List Byte) (r : Role) (a : Option (List Byte)) (absent : Name)
    (h_s : Sound fuse s) :
    Sound fuse (State.openWith s v r a absent) := by
  unfold State.openWith
  repeat' (first
    | (intro _ _ _)
    | (with_reducible first
      | assumption
      | apply State.refuseOpen_keeps
      | apply State.drbg_keeps
      | apply State.addSession_keeps
      | apply State.putReply_keeps
      | (refine sound_snd (by assumption) ?_)
      | (refine sound_fst (by assumption) ?_))
    | dsimp only
    | split)

theorem State.openManager_keeps (s : State) (v : List Byte) (h_s : Sound fuse s) :
    Sound fuse (State.openManager s v) := by
  unfold State.openManager
  repeat' (first
    | (intro _ _ _)
    | (with_reducible first
      | assumption
      | apply State.openWith_keeps))

theorem State.openTenant_keeps (s : State) (v : List Byte) (h_s : Sound fuse s) :
    Sound fuse (State.openTenant s v) := by
  unfold State.openTenant
  repeat' (first
    | (intro _ _ _)
    | (with_reducible first
      | assumption
      | apply State.openWith_keeps)
    | dsimp only
    | split)

theorem State.commission_keeps (s : State) (v : List Byte) (h : Sound fuse s) : Sound fuse (State.commission s v) := by
  unfold State.commission
  dsimp only
  split
  · exact State.refuseOpen_keeps _ _ _ h
  split
  · exact State.refuseOpen_keeps _ _ _ h
  rename_i hfull
  split
  · exact State.refuseOpen_keeps _ _ _ h
  split
  · exact State.refuseOpen_keeps _ _ _ h
  have hd := State.drbg_keeps s 32 h
  refine State.postAll_keeps _ _ _ _ (State.putReply_keeps _ _ ⟨hd.1, hd.2.1, ⟨hd.2.2.1.1, ?_, hd.2.2.1.2.2⟩,
    Otp.grows_key hd.2.2.2 _⟩)
  simp only [List.length_cons, State.drbg]
  omega

theorem State.closeReq_keeps (s : State) (v : List Byte) (h_s : Sound fuse s) :
    Sound fuse (State.closeReq s v) := by
  unfold State.closeReq
  repeat' (first
    | (intro _ _ _)
    | (with_reducible first
      | assumption
      | apply State.refuseOpen_keeps
      | apply State.drbg_keeps
      | apply State.putReply_keeps
      | apply State.closeSession_keeps
      | (refine sound_snd (by assumption) ?_)
      | (refine sound_fst (by assumption) ?_))
    | dsimp only
    | split)

theorem State.sessionOpen_keeps (s : State) (v : List Byte) (h_s : Sound fuse s) :
    Sound fuse (State.sessionOpen s v) := by
  unfold State.sessionOpen
  repeat' (first
    | (intro _ _ _)
    | (with_reducible first
      | assumption
      | apply State.openManager_keeps
      | apply State.openTenant_keeps
      | apply State.commission_keeps
      | apply State.closeReq_keeps
      | (refine sound_snd (by assumption) ?_)
      | (refine sound_fst (by assumption) ?_))
    | dsimp only
    | split)

theorem State.recordCounter_keeps (s : State) (num : Nat) (counter : Nat) (whole : List Byte) (h_s : Sound fuse s) :
    Sound fuse (State.recordCounter s num counter whole) := by
  unfold State.recordCounter
  repeat' (first
    | (intro _ _ _)
    | (with_reducible first
      | assumption
      | apply State.setSession_keeps
      | (refine sound_snd (by assumption) ?_)
      | (refine sound_fst (by assumption) ?_))
    | dsimp only
    | simp only [sound_other]
    | split)

theorem State.recordReply_keeps (s : State) (num : Nat) (reply : List Byte) (ev : Option Ev) (h_s : Sound fuse s) :
    Sound fuse (State.recordReply s num reply ev) := by
  unfold State.recordReply
  repeat' (first
    | (intro _ _ _)
    | (with_reducible first
      | assumption
      | apply State.setSession_keeps
      | (refine sound_snd (by assumption) ?_)
      | (refine sound_fst (by assumption) ?_))
    | dsimp only
    | simp only [sound_other]
    | split)

theorem State.deliverKey_keeps (s : State) (n : Nat) (v : List Byte) (h_s : Sound fuse s) :
    Sound fuse (State.deliverKey s n v) := by
  unfold State.deliverKey
  repeat' (first
    | (intro _ _ _)
    | (with_reducible first
      | assumption
      | apply State.wr_keeps)
    | dsimp only
    | simp only [sound_other])

theorem State.openKey_keeps (s : State) (n : Nat) (v : List Byte) (h_s : Sound fuse s) :
    Sound fuse (State.openKey s n v) := by
  unfold State.openKey
  repeat' (first
    | (intro _ _ _)
    | (with_reducible first
      | assumption
      | apply State.closeKeyless_keeps
      | apply State.post_keeps
      | apply State.wr_keeps
      | (refine sound_snd (by assumption) ?_)
      | (refine sound_fst (by assumption) ?_))
    | dsimp only
    | simp only [sound_other]
    | split)

theorem State.clearingKey_keeps (s : State) (fuel n : Nat) (k : List Byte) (h : Sound fuse s) :
    Sound fuse (State.clearingKey s fuel n k).2 := by
  induction fuel generalizing s with
  | zero => exact State.drbg_keeps s 32 h
  | succ f ih =>
    unfold State.clearingKey
    dsimp only
    split
    · exact ih _ (State.drbg_keeps s 32 h)
    · exact State.drbg_keeps s 32 h

theorem State.installKey_keeps (s : State) (n : Nat) (h_s : Sound fuse s) :
    Sound fuse (State.installKey s n) := by
  unfold State.installKey
  repeat' (first
    | (intro _ _ _)
    | (with_reducible first
      | assumption
      | apply State.clearingKey_keeps
      | apply State.wr_keeps
      | (refine sound_snd (by assumption) ?_)
      | (refine sound_fst (by assumption) ?_))
    | dsimp only
    | simp only [sound_other]
    | split)

theorem State.eraseKey_keeps (s : State) (n : Nat) (t : Nat) (h_s : Sound fuse s) :
    Sound fuse (State.eraseKey s n t) := by
  unfold State.eraseKey
  repeat' (first
    | (intro _ _ _)
    | (with_reducible first
      | assumption)
    | dsimp only
    | simp only [sound_other])

theorem State.zeroise_keeps (s : State) (h_s : Sound fuse s) :
    Sound fuse (State.zeroise s) := by
  unfold State.zeroise
  repeat' (first
    | (intro _ _ _)
    | (with_reducible first
      | assumption
      | apply State.wr_keeps
      | apply sound_foldl)
    | dsimp only
    | simp only [sound_other])

theorem execSessionTimeout_keeps (session : Nat) (s : State) (h_s : Kept fuse s) :
    AnsKept fuse (execSessionTimeout session s) := by
  unfold execSessionTimeout
  first
    | (refine ansInv_inRange (by assumption) fun _ => Sound.inv ?_)
    | (refine ansInv_whenOn (by assumption) fun _ => Sound.inv ?_)
  repeat' (first
    | (intro _ _ _)
    | (with_reducible first
      | assumption
      | apply State.closeSession_keeps
      | apply sound_onlyIf))

end Sys2Proof.Machine
end

