-- ==== Sys2Proof/Laws/KeepsPages.lean ====
section
/-! SUPPORT. The operations of Machine/Pages.lean keep a state sound. -/

namespace Sys2Proof.Machine

open State

variable {fuse : Otp}

theorem State.setVat_keeps (s : State) (n : Nat) (v : Vat) (h_s : Sound fuse s) :
    Sound fuse (State.setVat s n v) := by
  unfold State.setVat
  repeat' (first
    | (intro _ _ _)
    | (with_reducible first
      | assumption
      | apply State.setClr_keeps))

theorem State.setPage_keeps (s : State) (n : Nat) (id : Nat) (r : PageRec) (h_s : Sound fuse s) :
    Sound fuse (State.setPage s n id r) := by
  unfold State.setPage
  repeat' (first
    | (intro _ _ _)
    | (with_reducible first
      | assumption
      | apply State.setVat_keeps))

theorem State.mapPages_keeps (s : State) (n : Nat) (f : PageRec → PageRec) (h_s : Sound fuse s) :
    Sound fuse (State.mapPages s n f) := by
  unfold State.mapPages
  repeat' (first
    | (intro _ _ _)
    | (with_reducible first
      | assumption
      | apply State.setVat_keeps))

theorem State.allocPage_keeps (s : State) (n : Nat) (m : Nat) (ver : Nat) (h_s : Sound fuse s) {a} {t : State}
    (e : State.allocPage s n m ver = some (a, t)) :
    Sound fuse t := by
  unfold State.allocPage at e
  try dsimp only at e
  repeat' (first
    | (simp only [Option.some.injEq, Prod.mk.injEq, reduceCtorEq] at e)
    | (simp only [Option.map_eq_some_iff, Prod.mk.injEq] at e)
    | (obtain ⟨rfl, _⟩ := e)
    | (obtain ⟨_, _, _, rfl⟩ := e)
    | (obtain ⟨_, _, rfl⟩ := e)
    | (subst e)
    | (split at e))
  repeat' (first
    | (intro _ _ _)
    | (with_reducible first
      | assumption
      | apply State.setPage_keeps))

theorem State.dropPage_keeps (s : State) (n : Nat) (id : Nat) (h_s : Sound fuse s) :
    Sound fuse (State.dropPage s n id) := by
  unfold State.dropPage
  repeat' (first
    | (intro _ _ _)
    | (with_reducible first
      | assumption
      | apply State.setPage_keeps))

theorem State.dropPages_keeps (s : State) (n : Nat) (pages : Map Nat) (h_s : Sound fuse s) :
    Sound fuse (State.dropPages s n pages) := by
  unfold State.dropPages
  repeat' (first
    | (intro _ _ _)
    | (with_reducible first
      | assumption
      | apply State.dropPage_keeps
      | apply sound_foldl))

theorem State.retirePages_keeps (s : State) (n : Nat) (h_s : Sound fuse s) :
    Sound fuse (State.retirePages s n) := by
  unfold State.retirePages
  repeat' (first
    | (intro _ _ _)
    | (with_reducible first
      | assumption
      | apply State.mapPages_keeps))

theorem State.freePages_keeps (s : State) (n : Nat) (h_s : Sound fuse s) :
    Sound fuse (State.freePages s n) := by
  unfold State.freePages
  repeat' (first
    | (intro _ _ _)
    | (with_reducible first
      | assumption
      | apply State.setVat_keeps))

theorem State.putTokens_keeps (s : State) (n : Nat) (id : Nat) (at_ : Nat) (toks : List Nat) (h_s : Sound fuse s) :
    Sound fuse (State.putTokens s n id at_ toks) := by
  unfold State.putTokens
  repeat' (first
    | (intro _ _ _)
    | (with_reducible first
      | assumption
      | apply State.pokeRegion_keeps
      | apply State.setPage_keeps)
    | dsimp only
    | simp only [sound_other]
    | split)

theorem State.chargeRecord_keeps (s : State) (n : Nat) (id : Nat) (at_ : Nat) (count : Nat) (h_s : Sound fuse s) :
    Sound fuse (State.chargeRecord s n id at_ count) := by
  unfold State.chargeRecord
  repeat' (first
    | (intro _ _ _)
    | (with_reducible first
      | assumption
      | apply State.chargeRange_keeps)
    | dsimp only
    | split)

theorem State.copyPage_keeps (s : State) (n : Nat) (old : Nat) (new : Nat) (h_s : Sound fuse s) :
    Sound fuse (State.copyPage s n old new) := by
  unfold State.copyPage
  repeat' (first
    | (intro _ _ _)
    | (with_reducible first
      | assumption
      | apply State.copyRegion_keeps
      | apply sound_foldl)
    | dsimp only
    | split)

theorem State.insertPage_keeps (s : State) (n : Nat) (id : Nat) (h : List Byte) (toks : List Nat) (h_s : Sound fuse s) :
    Sound fuse (State.insertPage s n id h toks) := by
  unfold State.insertPage
  repeat' (first
    | (intro _ _ _)
    | (with_reducible first
      | assumption
      | apply State.bump_keeps
      | apply State.setPage_keeps
      | (refine sound_snd (by assumption) ?_)
      | (refine sound_fst (by assumption) ?_))
    | dsimp only
    | simp only [sound_other]
    | split)

theorem State.evictPages_keeps (s : State) (n m fuel : Nat) (h : Sound fuse s) : Sound fuse (State.evictPages s n m fuel) := by
  induction fuel generalizing s with
  | zero => exact h
  | succ f ih =>
    unfold State.evictPages
    split
    · exact h
    · split
      · exact h
      · refine ih _ ?_
        dsimp only
        split
        · exact State.bump_keeps _ _ _ _ (State.setVat_keeps _ _ _ h)
        · exact State.setVat_keeps _ _ _ h

theorem State.publishPool_keeps (s : State) (n : Nat) (h_s : Sound fuse s) :
    Sound fuse (State.publishPool s n) := by
  unfold State.publishPool
  repeat' (first
    | (intro _ _ _)
    | (with_reducible first
      | assumption
      | apply State.wr_keeps))

end Sys2Proof.Machine
end

