-- ==== Sys2Proof/Laws/KeepsCulture.lean ====
section
/-! SUPPORT. The operations of Machine/Culture.lean keep a state sound. -/

namespace Sys2Proof.Machine

open State

variable {fuse : Otp}

theorem State.startFills_keeps (s : State) (n : Nat) (h_s : Sound fuse s) :
    Sound fuse (State.startFills s n) := by
  unfold State.startFills
  repeat' (first
    | (intro _ _ _)
    | (with_reducible first
      | assumption
      | apply State.setGrove_keeps
      | apply sound_foldl)
    | dsimp only
    | simp only [sound_other]
    | split)

theorem State.failTable_keeps (s : State) (g : Nat) (h_s : Sound fuse s) :
    Sound fuse (State.failTable s g) := by
  unfold State.failTable
  repeat' (first
    | (intro _ _ _)
    | (with_reducible first
      | assumption
      | apply State.postAll_keeps
      | apply State.setGrove_keeps))

theorem State.tableError_keeps (s : State) (g : Nat) (word : Nat) (h_s : Sound fuse s) :
    Sound fuse (State.tableError s g word) := by
  unfold State.tableError
  repeat' (first
    | (intro _ _ _)
    | (with_reducible first
      | assumption
      | apply State.failTable_keeps
      | apply State.setGrove_keeps)
    | dsimp only
    | simp only [sound_other]
    | split)

theorem execCultureFillDone_keeps (g : Nat) (crcOk : Bool) (s : State) (h_s : Kept fuse s) :
    AnsKept fuse (execCultureFillDone g crcOk s) := by
  unfold execCultureFillDone
  first
    | (refine ansInv_inRange (by assumption) fun _ => Sound.inv ?_)
  repeat' (first
    | (intro _ _ _)
    | (with_reducible first
      | assumption
      | apply State.bump_keeps
      | apply State.wr_keeps
      | apply State.setGrove_keeps
      | apply State.failTable_keeps
      | apply sound_onlyIf)
    | dsimp only
    | simp only [sound_other]
    | split)

end Sys2Proof.Machine
end

