-- ==== Sys2Proof/Laws/KeepsCurds.lean ====
section
/-! SUPPORT. The operations of Machine/Curds.lean keep a state sound. -/

namespace Sys2Proof.Machine

open State

variable {fuse : Otp}

theorem State.outputReady_keeps (s : State) (r : Ring) (h_s : Sound fuse s) :
    Sound fuse (State.outputReady s r) := by
  unfold State.outputReady
  repeat' (first
    | (intro _ _ _)
    | (with_reducible first
      | assumption
      | apply State.post_keeps))

theorem State.setRing_keeps (s : State) (id : Nat) (r : Ring) (h_s : Sound fuse s) :
    Sound fuse (State.setRing s id r) := by
  unfold State.setRing
  repeat' (first
    | (intro _ _ _)
    | (with_reducible first
      | assumption)
    | dsimp only
    | simp only [sound_other])

theorem State.endRing_keeps (s : State) (id : Nat) (reason : Nat) (idx : Nat) (h_s : Sound fuse s) :
    Sound fuse (State.endRing s id reason idx) := by
  unfold State.endRing
  repeat' (first
    | (intro _ _ _)
    | (with_reducible first
      | assumption
      | apply State.outputReady_keeps
      | apply State.setRing_keeps
      | (refine sound_snd (by assumption) ?_)
      | (refine sound_fst (by assumption) ?_))
    | dsimp only
    | simp only [sound_other]
    | split)

theorem State.putRing_keeps (s : State) (id : Nat) (tok : Nat) (lp : Nat) (pos : Nat) (ver : Nat) (last : Bool)
    (h_s : Sound fuse s) :
    Sound fuse (State.putRing s id tok lp pos ver last) := by
  unfold State.putRing
  repeat' (first
    | (intro _ _ _)
    | (with_reducible first
      | assumption
      | apply State.setRing_keeps
      | apply State.outputReady_keeps
      | (refine sound_snd (by assumption) ?_)
      | (refine sound_fst (by assumption) ?_))
    | dsimp only
    | simp only [sound_other]
    | split)

theorem State.setPress_keeps (s : State) (n : Nat) (p : Press) (h_s : Sound fuse s) :
    Sound fuse (State.setPress s n p) := by
  unfold State.setPress
  repeat' (first
    | (intro _ _ _)
    | (with_reducible first
      | assumption
      | apply State.setClr_keeps))

theorem State.curdWrite_keeps (s : State) (n : Nat) (c : Curd) (off : Nat) (data : List Byte) (h_s : Sound fuse s) :
    Sound fuse (State.curdWrite s n c off data) := by
  unfold State.curdWrite
  repeat' (first
    | (intro _ _ _)
    | (with_reducible first
      | assumption
      | apply State.carryLines_keeps
      | apply State.writeRegion_keeps)
    | dsimp only
    | split)

theorem State.enterCurd_keeps (s : State) (h : Nat) (c : Curd) (h_s : Sound fuse s) :
    Sound fuse (State.enterCurd s h c).2 := by
  unfold State.enterCurd
  repeat' (first
    | (intro _ _ _)
    | (with_reducible first
      | assumption
      | apply State.setPress_keeps))

theorem State.reserveCurd_keeps (s : State) (n : Nat) (q : Req) (prompt : List Nat) (far : List (Nat × Nat))
    (h_s : Sound fuse s) :
    Sound fuse (State.reserveCurd s n q prompt far).2 := by
  unfold State.reserveCurd
  repeat' (first
    | (intro _ _ _)
    | (with_reducible first
      | assumption
      | apply State.enterCurd_keeps
      | apply State.curdWrite_keeps))

theorem State.mapHead_keeps (s : State) (n : Nat) (h : Nat) (id : Nat) (f : List Byte → List Byte) (h_s : Sound fuse s) :
    Sound fuse (State.mapHead s n h id f) := by
  unfold State.mapHead
  repeat' (first
    | (intro _ _ _)
    | (with_reducible first
      | assumption
      | apply State.setPress_keeps
      | apply State.curdWrite_keeps
      | (refine sound_snd (by assumption) ?_)
      | (refine sound_fst (by assumption) ?_))
    | dsimp only
    | simp only [sound_other]
    | split)

theorem State.putCurd_keeps (s : State) (n : Nat) (id : Nat) (tag : Nat) (tok : Nat) (lp : Nat) (ver : Nat)
    (h_s : Sound fuse s) :
    Sound fuse (State.putCurd s n id tag tok lp ver) := by
  unfold State.putCurd
  repeat' (first
    | (intro _ _ _)
    | (with_reducible first
      | assumption
      | apply State.curdWrite_keeps
      | apply State.mapHead_keeps
      | (refine sound_snd (by assumption) ?_)
      | (refine sound_fst (by assumption) ?_))
    | dsimp only
    | split)

theorem State.freeCurds_keeps (s : State) (h : Nat) (ids : List Nat) (h_s : Sound fuse s) :
    Sound fuse (State.freeCurds s h ids) := by
  unfold State.freeCurds
  repeat' (first
    | (intro _ _ _)
    | (with_reducible first
      | assumption
      | apply State.setPress_keeps))

theorem State.readyCurd_keeps (s : State) (h : Nat) (id : Nat) (h_s : Sound fuse s) :
    Sound fuse (State.readyCurd s h id) := by
  unfold State.readyCurd
  repeat' (first
    | (intro _ _ _)
    | (with_reducible first
      | assumption
      | apply State.setPress_keeps
      | (refine sound_snd (by assumption) ?_)
      | (refine sound_fst (by assumption) ?_))
    | dsimp only
    | simp only [sound_other]
    | split)

theorem State.closeCurd_keeps (s : State) (n : Nat) (id : Nat) (tag : Nat) (reason : Nat) (idx : Nat) (h_s : Sound fuse s) :
    Sound fuse (State.closeCurd s n id tag reason idx) := by
  unfold State.closeCurd
  repeat' (first
    | (intro _ _ _)
    | (with_reducible first
      | assumption
      | apply State.mapHead_keeps
      | apply State.readyCurd_keeps
      | apply State.freeCurds_keeps
      | (refine sound_snd (by assumption) ?_)
      | (refine sound_fst (by assumption) ?_))
    | dsimp only
    | split)

theorem State.adoptCurd_keeps (s : State) (n : Nat) (off : Nat) (data : List Byte) (h_s : Sound fuse s) :
    Sound fuse (State.adoptCurd s n off data) := by
  unfold State.adoptCurd
  repeat' (first
    | (intro _ _ _)
    | (with_reducible first
      | assumption
      | apply State.enterCurd_keeps
      | apply State.readyCurd_keeps
      | (refine sound_snd (by assumption) ?_)
      | (refine sound_fst (by assumption) ?_))
    | dsimp only
    | simp only [sound_other]
    | split)

theorem State.countEnd_keeps (s : State) (n : Nat) (reason : Nat) (h_s : Sound fuse s) :
    Sound fuse (State.countEnd s n reason) := by
  unfold State.countEnd
  repeat' (first
    | (intro _ _ _)
    | (with_reducible first
      | assumption
      | apply State.bumpLive_keeps)
    | dsimp only
    | split)

theorem State.tellEnded_keeps (s : State) (n : Nat) (q : Req) (h_s : Sound fuse s) :
    Sound fuse (State.tellEnded s n q) := by
  unfold State.tellEnded
  repeat' (first
    | (intro _ _ _)
    | (with_reducible first
      | assumption
      | apply State.postFull_keeps
      | apply sound_foldl))

theorem State.endRequest_keeps (s : State) (n : Nat) (q : Req) (curd : Option Nat) (reason : Nat) (idx : Nat)
    (h_s : Sound fuse s) :
    Sound fuse (State.endRequest s n q curd reason idx) := by
  unfold State.endRequest
  repeat' (first
    | (intro _ _ _)
    | (with_reducible first
      | assumption
      | apply State.endRing_keeps
      | apply State.closeCurd_keeps
      | apply State.tellEnded_keeps
      | apply State.countEnd_keeps
      | (refine sound_snd (by assumption) ?_)
      | (refine sound_fst (by assumption) ?_))
    | dsimp only
    | split)

end Sys2Proof.Machine
end

