-- ==== Sys2Proof/Laws/KeepsImages.lean ====
section
/-! SUPPORT. The operations of Machine/Images.lean keep a state sound. -/

namespace Sys2Proof.Machine

open State

variable {fuse : Otp}

theorem State.moveSlices_keeps (s : State) (n : Nat) (id : Nat) (p : Paused) (i : Nat) (out : Bool) (h_s : Sound fuse s) :
    Sound fuse (State.moveSlices s n id p i out) := by
  unfold State.moveSlices
  repeat' (first
    | (intro _ _ _)
    | (with_reducible first
      | assumption
      | apply State.copyRegion_keeps
      | apply sound_foldl)
    | dsimp only
    | split)

theorem State.pauseSeq_keeps (s : State) (n : Nat) (x : Seqn) (h_s : Sound fuse s) :
    Sound fuse (State.pauseSeq s n x) := by
  unfold State.pauseSeq
  repeat' (first
    | (intro _ _ _)
    | (with_reducible first
      | assumption
      | apply State.post_keeps
      | apply State.dropPages_keeps
      | apply State.writeRegion_keeps
      | apply State.moveSlices_keeps
      | apply State.setVat_keeps
      | apply State.bumpLive_keeps
      | apply State.wr_keeps
      | apply sound_foldl
      | apply sound_foldl_fst
      | apply sound_foldl_snd
      | (refine sound_snd (by assumption) ?_)
      | (refine sound_fst (by assumption) ?_))
    | dsimp only
    | simp only [sound_other]
    | split)

theorem State.dropImage_keeps (s : State) (n : Nat) (tag : Nat) (h_s : Sound fuse s) :
    Sound fuse (State.dropImage s n tag) := by
  unfold State.dropImage
  repeat' (first
    | (intro _ _ _)
    | (with_reducible first
      | assumption
      | apply State.wr_keeps
      | apply State.setVat_keeps)
    | dsimp only
    | simp only [sound_other]
    | split)

theorem State.restorePages_keeps (s : State) (n ver : Nat) (p : Paused) (toks : List Nat) (mixed : Bool)
    (l : List (Nat × Nat)) (vers : List Nat) (acc : Map Nat) (h : Sound fuse s) {m : Map Nat} {t : State}
    (e : State.restorePages s n ver p toks mixed l vers acc = some (m, t)) : Sound fuse t := by
  induction l generalizing s vers acc with
  | nil => cases e; exact h
  | cons q l ih =>
    rw [State.restorePages] at e
    cases hp : s.allocPage n (s.homeOf n q.1) (vers.headD ver) with
    | none => simp only [hp] at e; cases e
    | some a =>
      simp only [hp] at e
      refine ih _ _ _ ?_ e
      have h1 : Sound fuse a.2 := State.allocPage_keeps _ _ _ _ h hp
      apply State.setPage_keeps
      apply State.chargeRecord_keeps
      apply State.putTokens_keeps
      split
      · exact State.moveSlices_keeps _ _ _ _ _ _ h1
      · exact h1

end Sys2Proof.Machine
end

