-- ==== Sys2Proof/Laws/KeepsVat.lean ====
section
/-! SUPPORT. The operations of Machine/Vat.lean keep a state sound. -/

namespace Sys2Proof.Machine

open State

variable {fuse : Otp}

theorem State.unclaim_keeps (s : State) (n : Nat) (tag : Nat) (h_s : Sound fuse s) :
    Sound fuse (State.unclaim s n tag) := by
  unfold State.unclaim
  repeat' (first
    | (intro _ _ _)
    | (with_reducible first
      | assumption
      | apply State.setVat_keeps))

theorem State.scoreEnd_keeps (s : State) (n : Nat) (x : Seqn) (ok : Bool) (reward : Nat) (h_s : Sound fuse s) :
    Sound fuse (State.scoreEnd s n x ok reward) := by
  unfold State.scoreEnd
  repeat' (first
    | (intro _ _ _)
    | (with_reducible first
      | assumption
      | apply State.mapHead_keeps
      | apply State.freeCurds_keeps
      | (refine sound_snd (by assumption) ?_)
      | (refine sound_fst (by assumption) ?_))
    | dsimp only
    | split)

theorem State.endOne_keeps (s : State) (n : Nat) (q : Req) (code : Nat) (h_s : Sound fuse s) :
    Sound fuse (State.endOne s n q code) := by
  unfold State.endOne
  repeat' (first
    | (intro _ _ _)
    | (with_reducible first
      | assumption
      | apply State.unclaim_keeps
      | apply State.endRequest_keeps
      | apply State.setVat_keeps)
    | dsimp only
    | simp only [sound_other]
    | split)

theorem State.endSeq_keeps (s : State) (n : Nat) (x : Seqn) (code : Nat) (h_s : Sound fuse s) :
    Sound fuse (State.endSeq s n x code) := by
  unfold State.endSeq
  repeat' (first
    | (intro _ _ _)
    | (with_reducible first
      | assumption
      | apply State.scoreEnd_keeps
      | apply State.endRequest_keeps
      | apply State.setVat_keeps)
    | dsimp only
    | simp only [sound_other]
    | split)

theorem State.endLate_keeps (s : State) (n : Nat) (h_s : Sound fuse s) :
    Sound fuse (State.endLate s n) := by
  unfold State.endLate
  repeat' (first
    | (intro _ _ _)
    | (with_reducible first
      | assumption
      | apply State.setVat_keeps
      | apply State.endOne_keeps
      | apply State.endSeq_keeps
      | apply sound_foldl))

theorem State.endReleased_keeps (s : State) (n : Nat) (h_s : Sound fuse s) :
    Sound fuse (State.endReleased s n) := by
  unfold State.endReleased
  repeat' (first
    | (intro _ _ _)
    | (with_reducible first
      | assumption
      | apply State.setVat_keeps
      | apply State.endOne_keeps
      | apply State.endSeq_keeps
      | apply sound_foldl))

theorem State.setSeq_keeps (s : State) (n : Nat) (x : Seqn) (h_s : Sound fuse s) :
    Sound fuse (State.setSeq s n x) := by
  unfold State.setSeq
  repeat' (first
    | (intro _ _ _)
    | (with_reducible first
      | assumption
      | apply State.setVat_keeps))

theorem State.makeSeq_keeps (s : State) (n : Nat) (q : Req) (h : Sound fuse s) {t : State} {x : Seqn}
    (e : State.makeSeq s n q = some (t, x)) : Sound fuse t := by
  unfold State.makeSeq at e
  extract_lets ver img toks moved back hits miss clash at e
  have hb : ∀ b, back = some b → Sound fuse b.2 := by
    intro b hb
    cases hi : img with
    | none => simp only [back, hi] at hb; cases hb; exact h
    | some i =>
      simp only [back, hi] at hb
      exact State.restorePages_keeps _ _ _ _ _ _ _ _ _ (State.chargeRange_keeps _ _ _ _ _ h) hb
  clear_value back
  simp only [Option.map_eq_some_iff, Prod.mk.injEq] at e
  obtain ⟨b, hbe, rfl, _⟩ := e
  have h1 := fun x y z => State.bump_keeps _ (0x4140 + n) 0x12 z (State.bump_keeps _ (0x4140 + n) 0x11
    y (State.bump_keeps _ (0x4140 + n) 0x10 x (hb b hbe)))
  apply State.setVat_keeps
  cases hi : img with
  | none => exact h1 _ _ _
  | some i => exact State.bumpLive_keeps _ _ _ _ (State.dropImage_keeps _ _ _ (h1 _ _ _))

theorem State.loseResume_keeps (s : State) (n : Nat) (q : Req) (lines : Nat) (h_s : Sound fuse s) :
    Sound fuse (State.loseResume s n q lines) := by
  unfold State.loseResume
  repeat' (first
    | (intro _ _ _)
    | (with_reducible first
      | assumption
      | apply State.chargeRange_keeps
      | apply State.unclaim_keeps
      | apply State.endRequest_keeps
      | apply State.bump_keeps
      | (refine sound_snd (by assumption) ?_)
      | (refine sound_fst (by assumption) ?_))
    | dsimp only
    | split)

theorem State.makeAny_keeps (s : State) (n : Nat) (q : Req) (forks : List (Nat × Nat))
    (h_s : Sound fuse s) {t : State} {a} (e : State.makeAny s n q forks = some (t, a)) :
    Sound fuse t := by
  unfold State.makeAny at e
  try dsimp only at e
  repeat' (first
    | (simp only [Option.some.injEq, Prod.mk.injEq, reduceCtorEq] at e)
    | (simp only [Option.map_eq_some_iff, Prod.mk.injEq] at e)
    | (obtain ⟨rfl, _⟩ := e)
    | (obtain ⟨_, _, _, rfl⟩ := e)
    | (obtain ⟨_, _, rfl⟩ := e)
    | (subst e)
    | (split at e))
  repeat' (first
    | (intro _ _ _)
    | (with_reducible first
      | assumption
      | (refine State.makeSeq_keeps _ _ _ ?_ (by assumption))))

theorem State.admitLoop_keeps (s : State) (n : Nat) (p : PlanClearing) (io : StepIn) (fuel : Nat) (held done : List Nat)
    (h : Sound fuse s) : Sound fuse (State.admitLoop s n p io fuel held done).1 := by
  induction fuel generalizing s held done with
  | zero => exact h
  | succ f ih =>
    unfold State.admitLoop
    split
    · exact h
    · rename_i q rest _
      extract_lets bad
      clear_value bad
      split
      · exact h
      split
      · exact State.bumpLive_keeps _ _ _ _ h
      split
      · exact ih _ _ _ (State.loseResume_keeps _ _ _ _ (State.setVat_keeps _ _ _ h))
      cases hm : s.makeAny n q io.forks with
      | none => exact h
      | some a =>
        have h1 := State.makeAny_keeps _ _ _ _ h hm
        dsimp only
        split
        · exact h
        · refine ih _ _ _ (State.setVat_keeps _ _ _ ?_)
          split
          · exact State.reserveCurd_keeps _ _ _ _ _ h1
          · exact h1

theorem State.scoreLoop_keeps (s : State) (n : Nat) (p : PlanClearing) (l : List ToScore) (held done : List Nat)
    (h : Sound fuse s) : Sound fuse (State.scoreLoop s n p l held done).1 := by
  induction l generalizing s held done with
  | nil => exact h
  | cons c rest ih =>
    unfold State.scoreLoop
    split
    · exact h
    cases hm : s.makeSeq n (scoringReq c.curd.reqTag c.toks) with
    | none => exact h
    | some a =>
      have h1 := State.makeSeq_keeps _ _ _ h (t := a.1) (x := a.2) hm
      dsimp only
      split
      · exact h
      · refine ih _ _ _ (State.setVat_keeps _ _ _ ?_)
        split
        · exact h1
        · exact State.enterCurd_keeps _ _ _ h1

theorem State.tasterTake_keeps (s : State) (n : Nat) (p : PlanClearing) (far : List (Nat × List Byte)) (h_s : Sound fuse s) :
    Sound fuse (State.tasterTake s n p far).1 := by
  unfold State.tasterTake
  repeat' (first
    | (intro _ _ _)
    | (with_reducible first
      | assumption
      | apply State.scoreLoop_keeps))

theorem State.assignStep_keeps (s : State) (n : Nat) (p : PlanClearing) (h_s : Sound fuse s) :
    Sound fuse (State.assignStep s n p) := by
  unfold State.assignStep
  repeat' (first
    | (intro _ _ _)
    | (with_reducible first
      | assumption
      | apply State.setSeq_keeps
      | apply State.bumpLive_keeps
      | apply sound_foldl
      | apply sound_foldl_fst
      | apply sound_foldl_snd
      | (refine sound_snd (by assumption) ?_)
      | (refine sound_fst (by assumption) ?_))
    | dsimp only
    | simp only [sound_other]
    | split)

theorem State.takeRefs_keeps (s : State) (n : Nat) (slots : List Nat) (forks : List (Nat × Nat)) (h_s : Sound fuse s) :
    Sound fuse (State.takeRefs s n slots forks) := by
  unfold State.takeRefs
  repeat' (first
    | (intro _ _ _)
    | (with_reducible first
      | assumption
      | apply State.setPage_keeps
      | apply sound_foldl
      | apply sound_foldl_fst
      | apply sound_foldl_snd
      | (refine sound_snd (by assumption) ?_)
      | (refine sound_fst (by assumption) ?_))
    | dsimp only
    | simp only [sound_other]
    | split)

theorem State.takePins_keeps (s : State) (n : Nat) (h_s : Sound fuse s) :
    Sound fuse (State.takePins s n) := by
  unfold State.takePins
  repeat' (first
    | (intro _ _ _)
    | (with_reducible first
      | assumption
      | apply State.setPage_keeps
      | apply sound_foldl))

theorem State.givePage_keeps (s : State) (n : Nat) (k : Nat) (x : Seqn) (h_s : Sound fuse s) :
    Sound fuse (State.givePage s n k x).1 := by
  unfold State.givePage
  repeat' (first
    | (intro _ _ _)
    | (with_reducible first
      | assumption
      | (refine State.allocPage_keeps _ _ _ _ ?_ (by assumption))
      | apply State.setPage_keeps
      | (refine sound_snd (by assumption) ?_)
      | (refine sound_fst (by assumption) ?_))
    | dsimp only
    | simp only [sound_other]
    | split)

theorem State.appendPages_keeps (s : State) (n : Nat) (p : PlanClearing) (x : Seqn) (h_s : Sound fuse s) :
    Sound fuse (State.appendPages s n p x) := by
  unfold State.appendPages
  repeat' (first
    | (intro _ _ _)
    | (with_reducible first
      | assumption
      | apply State.setSeq_keeps
      | apply State.bump_keeps
      | (refine State.allocPage_keeps _ _ _ _ ?_ (by assumption))
      | apply State.setPage_keeps
      | apply State.copyPage_keeps
      | apply State.dropPage_keeps
      | apply State.givePage_keeps
      | apply sound_foldl
      | apply sound_foldl_fst
      | apply sound_foldl_snd
      | (refine sound_snd (by assumption) ?_)
      | (refine sound_fst (by assumption) ?_))
    | dsimp only
    | simp only [sound_other]
    | split)

theorem State.appendAll_keeps (s : State) (n : Nat) (p : PlanClearing) (h_s : Sound fuse s) :
    Sound fuse (State.appendAll s n p) := by
  unfold State.appendAll
  repeat' (first
    | (intro _ _ _)
    | (with_reducible first
      | assumption
      | apply State.appendPages_keeps
      | apply State.setSeq_keeps
      | apply sound_foldl
      | (refine sound_snd (by assumption) ?_)
      | (refine sound_fst (by assumption) ?_))
    | dsimp only
    | simp only [sound_other]
    | split)

theorem State.dropReleased_keeps (s : State) (n : Nat) (h_s : Sound fuse s) :
    Sound fuse (State.dropReleased s n) := by
  unfold State.dropReleased
  repeat' (first
    | (intro _ _ _)
    | (with_reducible first
      | assumption
      | apply State.pauseSeq_keeps
      | apply State.dropPages_keeps
      | apply State.retirePages_keeps
      | apply State.setVat_keeps
      | apply sound_foldl
      | apply sound_foldl_fst
      | apply sound_foldl_snd)
    | dsimp only
    | simp only [sound_other]
    | split)

theorem State.chargeKeeper_keeps (s : State) (n : Nat) (beats : Nat) (h_s : Sound fuse s) :
    Sound fuse (State.chargeKeeper s n beats) := by
  unfold State.chargeKeeper
  repeat' (first
    | (intro _ _ _)
    | (with_reducible first
      | assumption
      | apply State.bumpLive_keeps))

theorem State.admitAll_keeps (s : State) (n : Nat) (p : PlanClearing) (io : StepIn) (h_s : Sound fuse s) :
    Sound fuse (State.admitAll s n p io).1 := by
  unfold State.admitAll
  repeat' (first
    | (intro _ _ _)
    | (with_reducible first
      | assumption
      | apply State.bumpLive_keeps
      | apply State.admitLoop_keeps
      | apply State.tasterTake_keeps)
    | dsimp only
    | split)

theorem State.vatStart_keeps (s : State) (n : Nat) (p : PlanClearing) (io : StepIn) (h_s : Sound fuse s) :
    Sound fuse (State.vatStart s n p io) := by
  unfold State.vatStart
  repeat' (first
    | (intro _ _ _)
    | (with_reducible first
      | assumption
      | apply State.setClr_keeps
      | apply State.endReleased_keeps
      | apply State.endLate_keeps
      | apply State.admitAll_keeps
      | apply State.takeRefs_keeps
      | apply State.assignStep_keeps
      | apply State.dropReleased_keeps
      | apply State.appendAll_keeps
      | apply State.takePins_keeps
      | apply State.chargeKeeper_keeps))

theorem State.fillPages_keeps (s : State) (n : Nat) (x : Seqn) (h_s : Sound fuse s) :
    Sound fuse (State.fillPages s n x).1 := by
  unfold State.fillPages
  repeat' (first
    | (intro _ _ _)
    | (with_reducible first
      | assumption
      | apply State.putTokens_keeps
      | apply State.setPage_keeps
      | apply sound_foldl
      | apply sound_foldl_fst
      | apply sound_foldl_snd)
    | dsimp only
    | simp only [sound_other]
    | split)

theorem State.dropSeq_keeps (s : State) (n : Nat) (x : Seqn) (h_s : Sound fuse s) :
    Sound fuse (State.dropSeq s n x) := by
  unfold State.dropSeq
  repeat' (first
    | (intro _ _ _)
    | (with_reducible first
      | assumption
      | apply State.setVat_keeps))

theorem State.putToken_keeps (s : State) (n : Nat) (x : Seqn) (tok : Nat) (lp : Nat) (last : Bool) (h_s : Sound fuse s) :
    Sound fuse (State.putToken s n x tok lp last) := by
  unfold State.putToken
  repeat' (first
    | (intro _ _ _)
    | (with_reducible first
      | assumption
      | apply State.bumpLive_keeps
      | apply State.putRing_keeps
      | apply State.putCurd_keeps
      | (refine sound_snd (by assumption) ?_)
      | (refine sound_fst (by assumption) ?_))
    | dsimp only
    | split)

theorem State.tokenFor_keeps (s : State) (toks : List TokenOut) (slot : Nat) (h_s : Sound fuse s) :
    Sound fuse (State.tokenFor s toks slot).2.2 := by
  unfold State.tokenFor
  repeat' (first
    | (intro _ _ _)
    | (with_reducible first
      | assumption
      | apply State.fresh_keeps
      | (refine sound_snd (by assumption) ?_)
      | (refine sound_fst (by assumption) ?_))
    | dsimp only
    | split)

theorem State.insertAll_keeps (s : State) (n : Nat) (full : List (Nat × Nat × Nat)) (seqs : List Seqn) (h_s : Sound fuse s) :
    Sound fuse (State.insertAll s n full seqs).1 := by
  unfold State.insertAll
  repeat' (first
    | (intro _ _ _)
    | (with_reducible first
      | assumption
      | apply State.insertPage_keeps
      | apply sound_foldl
      | apply sound_foldl_fst
      | apply sound_foldl_snd
      | (refine sound_snd (by assumption) ?_)
      | (refine sound_fst (by assumption) ?_))
    | dsimp only
    | split)

theorem State.unindex_keeps (s : State) (n : Nat) (id : Nat) (h_s : Sound fuse s) :
    Sound fuse (State.unindex s n id) := by
  unfold State.unindex
  repeat' (first
    | (intro _ _ _)
    | (with_reducible first
      | assumption
      | apply State.setPage_keeps)
    | dsimp only
    | simp only [sound_other]
    | split)

theorem State.losePage_keeps (s : State) (n : Nat) (id : Nat) (h_s : Sound fuse s) :
    Sound fuse (State.losePage s n id) := by
  unfold State.losePage
  repeat' (first
    | (intro _ _ _)
    | (with_reducible first
      | assumption
      | apply State.unindex_keeps
      | apply State.setVat_keeps))

theorem State.freeAtEnd_keeps (s : State) (n : Nat) (ended : List Seqn) (h_s : Sound fuse s) :
    Sound fuse (State.freeAtEnd s n ended) := by
  unfold State.freeAtEnd
  repeat' (first
    | (intro _ _ _)
    | (with_reducible first
      | assumption
      | apply State.retirePages_keeps
      | apply State.dropPages_keeps
      | apply State.freePages_keeps
      | apply State.mapPages_keeps
      | apply State.evictPages_keeps
      | apply sound_foldl))

theorem State.holdReaders_keeps (s : State) (n : Nat) (h_s : Sound fuse s) :
    Sound fuse (State.holdReaders s n) := by
  unfold State.holdReaders
  repeat' (first
    | (intro _ _ _)
    | (with_reducible first
      | assumption
      | (refine sound_snd (by assumption) ?_)
      | (refine sound_fst (by assumption) ?_))
    | dsimp only
    | simp only [sound_other]
    | split)

theorem State.seqFault_keeps (n : Nat) (a : State.StepEnds) (x : Seqn) (code : Nat) (h : Sound fuse a.s) :
    Sound fuse (State.seqFault n a x code).s := by
  unfold State.seqFault
  extract_lets s1 f
  have h1 : Sound fuse s1 := by
    simp only [s1]
    split
    · exact State.scoreEnd_keeps _ _ _ _ _ h
    · exact State.endRequest_keeps _ _ _ _ _ _ h
  refine State.dropSeq_keeps _ _ _ ?_
  simp only [f]
  split
  · exact State.fillPages_keeps _ _ _ h1
  · exact h1

theorem State.seqStop_keeps (n : Nat) (s : State) (x : Seqn) (stop : Nat × Nat) (a : State.StepEnds) (h : Sound fuse s) :
    Sound fuse (State.seqStop n s x stop a).s := by
  unfold State.seqStop
  extract_lets s1
  have h1 : Sound fuse s1 := State.dropSeq_keeps _ _ _ (State.endRequest_keeps _ _ _ _ _ _ h)
  split
  · exact State.setVat_keeps _ _ _ h1
  · exact h1

theorem State.seqDone_keeps (n : Nat) (p : PlanClearing) (toks : List TokenOut) (a : State.StepEnds) (x : Seqn)
    (h : Sound fuse a.s) : Sound fuse (State.seqDone n p toks a x).s := by
  unfold State.seqDone
  extract_lets f pos b r x0 tok x1 stop s1
  have hf : Sound fuse f.1 := State.fillPages_keeps _ _ _ h
  have ht : Sound fuse tok.2.2 := State.tokenFor_keeps _ _ _ hf
  have h1 : Sound fuse s1 := State.putToken_keeps _ _ _ _ _ _ ht
  split
  · exact State.seqStop_keeps _ _ _ _ _ hf
  split
  · exact State.setSeq_keeps _ _ _ hf
  split
  · exact State.dropSeq_keeps _ _ _ (State.scoreEnd_keeps _ _ _ _ _ ht)
  split
  · exact State.setSeq_keeps _ _ _ h1
  · exact State.seqStop_keeps _ _ _ _ _ h1

theorem State.seqEnd_keeps (n : Nat) (p : PlanClearing) (toks : List TokenOut) (faults : List SeqFault)
    (a : State.StepEnds) (x : Seqn) (h : Sound fuse a.s) : Sound fuse (State.seqEnd n p toks faults a x).s := by
  unfold State.seqEnd
  split
  · exact State.seqFault_keeps _ _ _ _ h
  split
  · exact State.seqDone_keeps _ _ _ _ _ h
  · exact State.setSeq_keeps _ _ _ h

theorem State.seqEnds_keeps (n : Nat) (p : PlanClearing) (toks : List TokenOut) (faults : List SeqFault)
    (l : List Seqn) (a : State.StepEnds) (h : Sound fuse a.s) :
    Sound fuse (l.foldl (State.seqEnd n p toks faults) a).s := by
  induction l generalizing a with
  | nil => exact h
  | cons x l ih => exact ih _ (State.seqEnd_keeps n p toks faults a x h)

theorem State.vatEnd_keeps (s : State) (n : Nat) (p : PlanClearing) (toks : List TokenOut) (faults : List SeqFault)
    (h : Sound fuse s) : Sound fuse (State.vatEnd s n p toks faults) := by
  unfold State.vatEnd
  extract_lets lost s0 seqs e i s1 s2 c s3
  have h0 : Sound fuse s0 := sound_foldl h fun _ _ hs => State.losePage_keeps _ _ _ hs
  have he : Sound fuse e.s := State.seqEnds_keeps n p toks faults _ _ h0
  have h1 : Sound fuse s1 := State.chargeKeeper_keeps _ _ _
    (sound_foldl (State.insertAll_keeps _ _ _ _ he) fun _ _ hs => State.unindex_keeps _ _ _ hs)
  have h2 : Sound fuse s2 := State.bumpLive_keeps _ _ _ _ (State.publishPool_keeps _ _ (State.freeAtEnd_keeps _ _ _ h1))
  exact State.publish_keeps _ _ (State.holdReaders_keeps _ _ (State.setClr_keeps _ _ _ h2))

theorem State.cancelAll_keeps (s : State) (n : Nat) (h_s : Sound fuse s) :
    Sound fuse (State.cancelAll s n) := by
  unfold State.cancelAll
  repeat' (first
    | (intro _ _ _)
    | (with_reducible first
      | assumption
      | apply State.unclaim_keeps
      | apply State.tellEnded_keeps
      | apply State.endRequest_keeps
      | apply State.scoreEnd_keeps
      | apply State.dropPages_keeps
      | apply State.setVat_keeps
      | apply State.freePages_keeps
      | apply State.mapPages_keeps
      | apply State.retirePages_keeps
      | apply sound_foldl)
    | dsimp only
    | simp only [sound_other]
    | split)

theorem State.acceptRequest_keeps (s : State) (n : Nat) (slot : Nat) (hostTag : Nat) (readAt : Nat) (b : List Byte)
    (h_s : Sound fuse s) {t : State} {a} (e : State.acceptRequest s n slot hostTag readAt b = .ok (t, a)) :
    Sound fuse t := by
  unfold State.acceptRequest at e
  try dsimp only at e
  repeat' (first
    | (simp only [Except.ok.injEq, Prod.mk.injEq, reduceCtorEq] at e)
    | (simp only [Option.map_eq_some_iff, Prod.mk.injEq] at e)
    | (obtain ⟨rfl, _⟩ := e)
    | (obtain ⟨_, _, _, rfl⟩ := e)
    | (obtain ⟨_, _, rfl⟩ := e)
    | (subst e)
    | (split at e))
  repeat' (first
    | (intro _ _ _)
    | (with_reducible first
      | assumption
      | apply State.setVat_keeps
      | (refine sound_snd (by assumption) ?_)
      | (refine sound_fst (by assumption) ?_))
    | dsimp only
    | simp only [sound_other]
    | split)

theorem execVatStepStart_keeps (n : Nat) (s : State) (io : StepIn) (h_s : Kept fuse s) :
    AnsKept fuse (execVatStepStart n s io) := by
  unfold execVatStepStart
  first
    | (refine ansInv_inRange (by assumption) fun _ => Sound.inv ?_)
  repeat' (first
    | (intro _ _ _)
    | (with_reducible first
      | assumption
      | apply State.vatStart_keeps
      | apply sound_onlyIf
      | (refine sound_snd (by assumption) ?_)
      | (refine sound_fst (by assumption) ?_))
    | dsimp only
    | simp only [sound_other]
    | split)

theorem execVatStepEnd_keeps (n : Nat) (toks : List TokenOut) (faults : List SeqFault) (s : State) (h_s : Kept fuse s) :
    AnsKept fuse (execVatStepEnd n toks faults s) := by
  unfold execVatStepEnd
  first
    | (refine ansInv_inRange (by assumption) fun _ => Sound.inv ?_)
  repeat' (first
    | (intro _ _ _)
    | (with_reducible first
      | assumption
      | apply State.vatEnd_keeps
      | apply sound_onlyIf
      | (refine sound_snd (by assumption) ?_)
      | (refine sound_fst (by assumption) ?_))
    | dsimp only
    | split)

theorem execPauseExpired_keeps (n : Nat) (tag : Nat) (s : State) (h_s : Kept fuse s) :
    AnsKept fuse (execPauseExpired n tag s) := by
  unfold execPauseExpired
  first
    | (refine ansInv_inRange (by assumption) fun _ => Sound.inv ?_)
  repeat' (first
    | (intro _ _ _)
    | (with_reducible first
      | assumption
      | apply State.post_keeps
      | apply State.bump_keeps
      | apply State.dropImage_keeps
      | apply sound_onlyIf))

end Sys2Proof.Machine
end

