-- ==== Sys2Proof/Laws/KeepsCopier.lean ====
section
/-! SUPPORT. The operations of Machine/Copier.lean keep a state sound. -/

namespace Sys2Proof.Machine

open State

variable {fuse : Otp}

theorem State.setCkpt_keeps (s : State) (n : Nat) (x : Ckpt) (h_s : Sound fuse s) :
    Sound fuse (State.setCkpt s n x) := by
  unfold State.setCkpt
  repeat' (first
    | (intro _ _ _)
    | (with_reducible first
      | assumption
      | apply State.setClr_keeps))

theorem State.setRecov_keeps (s : State) (n : Nat) (x : Recov) (h_s : Sound fuse s) :
    Sound fuse (State.setRecov s n x) := by
  unfold State.setRecov
  repeat' (first
    | (intro _ _ _)
    | (with_reducible first
      | assumption
      | apply State.setClr_keeps))

theorem State.postMemoryLost_keeps (s : State) (n : Nat) (tile : Nat) (off : Nat) (count : Nat) (h_s : Sound fuse s) :
    Sound fuse (State.postMemoryLost s n tile off count) := by
  unfold State.postMemoryLost
  repeat' (first
    | (intro _ _ _)
    | (with_reducible first
      | assumption
      | apply State.post_keeps
      | apply State.bump_keeps
      | apply State.setRecov_keeps)
    | dsimp only
    | simp only [sound_other]
    | split)

theorem State.setCkptState_keeps (s : State) (n : Nat) (v : Nat) (h_s : Sound fuse s) :
    Sound fuse (State.setCkptState s n v) := by
  unfold State.setCkptState
  repeat' (first
    | (intro _ _ _)
    | (with_reducible first
      | assumption
      | apply State.wr_keeps))

theorem State.tellMembers_keeps (s : State) (n : Nat) (msg : String) (args : List Nat) (h_s : Sound fuse s) :
    Sound fuse (State.tellMembers s n msg args) := by
  unfold State.tellMembers
  repeat' (first
    | (intro _ _ _)
    | (with_reducible first
      | assumption
      | apply State.emit_keeps)
    | dsimp only
    | split)

theorem State.chargeSlot_keeps (s : State) (n : Nat) (modNo : Nat) (len : Nat) (h_s : Sound fuse s) :
    Sound fuse (State.chargeSlot s n modNo len) := by
  unfold State.chargeSlot
  repeat' (first
    | (intro _ _ _)
    | (with_reducible first
      | assumption
      | apply State.charge_keeps
      | (refine sound_snd (by assumption) ?_)
      | (refine sound_fst (by assumption) ?_))
    | dsimp only
    | split)

theorem State.toSlot_keeps (s : State) (n : Nat) (modNo : Nat) (m : Nat) (off : Nat) (data : List Byte) (h_s : Sound fuse s) :
    Sound fuse (State.toSlot s n modNo m off data) := by
  unfold State.toSlot
  repeat' (first
    | (intro _ _ _)
    | (with_reducible first
      | assumption
      | apply State.pokeRegion_keeps
      | apply State.chargeSlot_keeps
      | apply State.carryLines_keeps)
    | dsimp only
    | split)

theorem State.toManifest_keeps (s : State) (n : Nat) (modNo : Nat) (m : Nat) (off : Nat) (data : List Byte)
    (h_s : Sound fuse s) :
    Sound fuse (State.toManifest s n modNo m off data) := by
  unfold State.toManifest
  repeat' (first
    | (intro _ _ _)
    | (with_reducible first
      | assumption
      | apply State.toSlot_keeps
      | apply State.carryLines_keeps)
    | dsimp only
    | split)

theorem State.toBuddy_keeps (s : State) (n : Nat) (gen : Nat) (off : Nat) (data : List Byte) (h_s : Sound fuse s) :
    Sound fuse (State.toBuddy s n gen off data) := by
  unfold State.toBuddy
  repeat' (first
    | (intro _ _ _)
    | (with_reducible first
      | assumption
      | apply State.toSlot_keeps))

theorem State.publishChannel_keeps (s : State) (k : Nat) (st : Nat) (h_s : Sound fuse s) :
    Sound fuse (State.publishChannel s k st) := by
  unfold State.publishChannel
  repeat' (first
    | (intro _ _ _)
    | (with_reducible first
      | assumption
      | apply State.wr_keeps))

theorem State.releaseWrite_keeps (n : Nat) (s : State) (w : Stall) (h_s : Sound fuse s) :
    Sound fuse (State.releaseWrite n s w) := by
  unfold State.releaseWrite
  repeat' (first
    | (intro _ _ _)
    | (with_reducible first
      | assumption
      | apply State.wr_keeps
      | apply State.pokeRegion_keeps)
    | dsimp only
    | split)

theorem State.releaseWrites_keeps (s : State) (n : Nat) (k : Nat) (h_s : Sound fuse s) :
    Sound fuse (State.releaseWrites s n k) := by
  unfold State.releaseWrites
  repeat' (first
    | (intro _ _ _)
    | (with_reducible first
      | assumption
      | apply State.releaseWrite_keeps
      | apply State.setCopier_keeps
      | apply sound_foldl))

theorem State.closeChannel_keeps (s : State) (k : Nat) (h_s : Sound fuse s) :
    Sound fuse (State.closeChannel s k) := by
  unfold State.closeChannel
  repeat' (first
    | (intro _ _ _)
    | (with_reducible first
      | assumption
      | apply State.setCopier_keeps
      | apply State.publishChannel_keeps
      | apply State.releaseWrite_keeps
      | apply sound_foldl
      | (refine sound_snd (by assumption) ?_)
      | (refine sound_fst (by assumption) ?_))
    | dsimp only
    | simp only [sound_other]
    | split)

theorem State.failWriter_keeps (s : State) (n : Nat) (h_s : Sound fuse s) :
    Sound fuse (State.failWriter s n) := by
  unfold State.failWriter
  repeat' (first
    | (intro _ _ _)
    | (with_reducible first
      | assumption
      | apply State.closeChannel_keeps
      | apply State.setCkpt_keeps
      | apply State.setRecov_keeps
      | apply State.wr_keeps
      | apply State.bumpLive_keeps
      | apply State.setCkptState_keeps
      | (refine sound_snd (by assumption) ?_)
      | (refine sound_fst (by assumption) ?_))
    | dsimp only
    | simp only [sound_other]
    | split)

theorem State.failGen_keeps (s : State) (n : Nat) (why : Nat) (h_s : Sound fuse s) :
    Sound fuse (State.failGen s n why) := by
  unfold State.failGen
  repeat' (first
    | (intro _ _ _)
    | (with_reducible first
      | assumption
      | apply State.post_keeps
      | apply State.failWriter_keeps
      | apply State.tellMembers_keeps
      | apply sound_foldl))

theorem State.failSnapshot_keeps (s : State) (k : Nat) (why : Nat) (h_s : Sound fuse s) :
    Sound fuse (State.failSnapshot s k why) := by
  unfold State.failSnapshot
  repeat' (first
    | (intro _ _ _)
    | (with_reducible first
      | assumption
      | apply State.failGen_keeps
      | apply State.post_keeps
      | apply State.closeChannel_keeps
      | (refine sound_snd (by assumption) ?_)
      | (refine sound_fst (by assumption) ?_))
    | dsimp only
    | split)

theorem State.failOpen_keeps (s : State) (n : Nat) (why : Nat) (h_s : Sound fuse s) :
    Sound fuse (State.failOpen s n why) := by
  unfold State.failOpen
  repeat' (first
    | (intro _ _ _)
    | (with_reducible first
      | assumption
      | apply State.failSnapshot_keeps
      | apply State.failGen_keeps
      | (refine sound_snd (by assumption) ?_)
      | (refine sound_fst (by assumption) ?_))
    | dsimp only
    | split)

theorem State.openSnapshot_keeps (s : State) (n : Nat) (k : Nat) (h_s : Sound fuse s) :
    Sound fuse (State.openSnapshot s n k) := by
  unfold State.openSnapshot
  repeat' (first
    | (intro _ _ _)
    | (with_reducible first
      | assumption
      | apply State.setCopier_keeps
      | apply State.setCkpt_keeps
      | apply State.publishChannel_keeps
      | apply State.wr_keeps
      | apply State.setCkptState_keeps
      | apply State.toBuddy_keeps
      | apply State.failSnapshot_keeps)
    | dsimp only
    | simp only [sound_other]
    | split)

theorem State.openWanted_keeps (s : State) (n : Nat) (h_s : Sound fuse s) :
    Sound fuse (State.openWanted s n) := by
  unfold State.openWanted
  repeat' (first
    | (intro _ _ _)
    | (with_reducible first
      | assumption
      | apply State.openSnapshot_keeps
      | (refine sound_snd (by assumption) ?_)
      | (refine sound_fst (by assumption) ?_))
    | dsimp only
    | split)

theorem State.ckptBoundary_keeps (s0 : State) (n : Nat) (step : Nat) (h_s0 : Sound fuse s0) :
    Sound fuse (State.ckptBoundary s0 n step) := by
  unfold State.ckptBoundary
  repeat' (first
    | (intro _ _ _)
    | (with_reducible first
      | assumption
      | apply State.openWanted_keeps
      | apply State.setRecov_keeps
      | apply State.setCkpt_keeps
      | apply State.bumpLive_keeps)
    | dsimp only
    | simp only [sound_other]
    | split)

theorem State.reserveChannel_keeps (s : State) (n : Nat) (h_s : Sound fuse s) {t : State}
    (e : State.reserveChannel s n = some t) :
    Sound fuse t := by
  unfold State.reserveChannel at e
  try dsimp only at e
  repeat' (first
    | (simp only [Option.some.injEq, reduceCtorEq] at e)
    | (simp only [Option.map_eq_some_iff, Prod.mk.injEq] at e)
    | (obtain ⟨rfl, _⟩ := e)
    | (obtain ⟨_, _, _, rfl⟩ := e)
    | (obtain ⟨_, _, rfl⟩ := e)
    | (subst e)
    | (split at e))
  repeat' (first
    | (intro _ _ _)
    | (with_reducible first
      | assumption
      | apply State.setCopier_keeps))

theorem State.unreserve_keeps (s : State) (n : Nat) (h_s : Sound fuse s) :
    Sound fuse (State.unreserve s n) := by
  unfold State.unreserve
  repeat' (first
    | (intro _ _ _)
    | (with_reducible first
      | assumption)
    | dsimp only
    | simp only [sound_other])

theorem State.endSnapshot_keeps (s : State) (n : Nat) (k : Nat) (h_s : Sound fuse s) :
    Sound fuse (State.endSnapshot s n k) := by
  unfold State.endSnapshot
  repeat' (first
    | (intro _ _ _)
    | (with_reducible first
      | assumption
      | apply State.failSnapshot_keeps
      | apply State.toBuddy_keeps
      | apply State.setCopier_keeps
      | apply State.setCkptState_keeps
      | apply State.setCkpt_keeps
      | apply State.publishChannel_keeps)
    | dsimp only
    | simp only [sound_other]
    | split)

theorem State.copyBlock_keeps (s : State) (n : Nat) (k : Nat) (b : Nat) (h_s : Sound fuse s) :
    Sound fuse (State.copyBlock s n k b) := by
  unfold State.copyBlock
  repeat' (first
    | (intro _ _ _)
    | (with_reducible first
      | assumption
      | apply State.failSnapshot_keeps
      | apply State.postMemoryLost_keeps
      | apply State.bump_keeps
      | apply State.setCkpt_keeps
      | apply State.charge_keeps
      | apply State.toBuddy_keeps
      | apply State.setCopier_keeps
      | apply State.releaseWrites_keeps
      | apply State.publishChannel_keeps
      | apply State.endSnapshot_keeps)
    | dsimp only
    | simp only [sound_other]
    | split)

theorem State.completeShard_keeps (s : State) (g : GenCheck) (m : Nat) (h_s : Sound fuse s) :
    Sound fuse (State.completeShard s g m) := by
  unfold State.completeShard
  repeat' (first
    | (intro _ _ _)
    | (with_reducible first
      | assumption
      | apply State.wr_keeps
      | apply State.setCkpt_keeps
      | apply State.setCkptState_keeps))

theorem State.noteGen_keeps (g : GenCheck) (s : State) (m : Nat) (h_s : Sound fuse s) :
    Sound fuse (State.noteGen g s m) := by
  unfold State.noteGen
  repeat' (first
    | (intro _ _ _)
    | (with_reducible first
      | assumption
      | apply State.setCkpt_keeps))

theorem State.completeGen_keeps (s : State) (n : Nat) (g : GenCheck) (others : List (Nat × List Byte)) (h_s : Sound fuse s) :
    Sound fuse (State.completeGen s n g others) := by
  unfold State.completeGen
  repeat' (first
    | (intro _ _ _)
    | (with_reducible first
      | assumption
      | apply State.toManifest_keeps
      | apply State.completeShard_keeps
      | apply State.noteGen_keeps
      | apply State.tellMembers_keeps
      | apply State.post_keeps
      | apply sound_foldl)
    | dsimp only
    | split)

theorem State.failTold_keeps (s : State) (n : Nat) (g : GenCheck) (h_s : Sound fuse s) :
    Sound fuse (State.failTold s n g) := by
  unfold State.failTold
  repeat' (first
    | (intro _ _ _)
    | (with_reducible first
      | assumption
      | apply State.failWriter_keeps
      | apply sound_foldl))

theorem State.readBackSlot_keeps (s : State) (m : Nat) (off : Nat) (h_s : Sound fuse s) :
    Sound fuse (State.readBackSlot s m off).2 := by
  unfold State.readBackSlot
  repeat' (first
    | (intro _ _ _)
    | (with_reducible first
      | assumption
      | apply State.charge_keeps
      | apply State.bump_keeps)
    | dsimp only
    | split)

theorem State.reportSlot_keeps (s : State) (m : Nat) (off : Nat) (h_s : Sound fuse s) :
    Sound fuse (State.reportSlot s m off) := by
  unfold State.reportSlot
  repeat' (first
    | (intro _ _ _)
    | (with_reducible first
      | assumption
      | apply State.readBackSlot_keeps
      | apply State.emit_keeps))

theorem State.shardGood_keeps (s : State) (n : Nat) (h_s : Sound fuse s) :
    Sound fuse (State.shardGood s n) := by
  unfold State.shardGood
  repeat' (first
    | (intro _ _ _)
    | (with_reducible first
      | assumption
      | apply State.wr_keeps
      | apply State.bumpLive_keeps
      | apply State.setCkpt_keeps
      | apply State.emit_keeps
      | (refine sound_snd (by assumption) ?_)
      | (refine sound_fst (by assumption) ?_))
    | dsimp only
    | simp only [sound_other]
    | split)

theorem execSnapshotOpen_keeps (n : Nat) (s : State) (h_s : Kept fuse s) :
    AnsKept fuse (execSnapshotOpen n s) := by
  unfold execSnapshotOpen
  first
    | (refine ansInv_inRange (by assumption) fun _ => Sound.inv ?_)
  repeat' (first
    | (intro _ _ _)
    | (with_reducible first
      | assumption
      | apply State.openWanted_keeps
      | apply sound_onlyIf))

theorem execShardVerified_keeps (n : Nat) (ok : Bool) (s : State) (slot : (Option Nat)) (h_s : Kept fuse s) :
    AnsKept fuse (execShardVerified n ok s slot) := by
  unfold execShardVerified
  first
    | (refine ansInv_inRange (by assumption) fun _ => Sound.inv ?_)
  repeat' (first
    | (intro _ _ _)
    | (with_reducible first
      | assumption
      | apply State.readBackSlot_keeps
      | apply State.reportSlot_keeps
      | apply State.shardGood_keeps
      | apply State.failGen_keeps
      | apply sound_onlyIf
      | (refine sound_snd (by assumption) ?_)
      | (refine sound_fst (by assumption) ?_))
    | dsimp only
    | split)

theorem execCkptComplete_keeps (n : Nat) (copiesOk : Bool) (others : List (Nat × List Byte)) (s : State)
    (told : (Option GenCheck)) (vatSteps : (List Nat)) (h_s : Kept fuse s) :
    AnsKept fuse (execCkptComplete n copiesOk others s told vatSteps) := by
  unfold execCkptComplete
  first
    | (refine ansInv_inRange (by assumption) fun _ => Sound.inv ?_)
  repeat' (first
    | (intro _ _ _)
    | (with_reducible first
      | assumption
      | apply State.completeGen_keeps
      | apply State.failTold_keeps
      | apply sound_foldl
      | apply sound_onlyIf
      | (refine sound_snd (by assumption) ?_)
      | (refine sound_fst (by assumption) ?_))
    | dsimp only
    | simp only [sound_other]
    | split)

theorem execCkptDrainEnd_keeps (n : Nat) (s : State) (h_s : Kept fuse s) :
    AnsKept fuse (execCkptDrainEnd n s) := by
  unfold execCkptDrainEnd
  first
    | (refine ansInv_inRange (by assumption) fun _ => Sound.inv ?_)
  repeat' (first
    | (intro _ _ _)
    | (with_reducible first
      | assumption
      | apply State.setCkpt_keeps))

end Sys2Proof.Machine
end

