-- ==== Sys2Proof/Laws/KeepsClearings.lean ====
section
/-! SUPPORT. The operations of Machine/Clearings.lean keep a state sound. -/

namespace Sys2Proof.Machine

open State

variable {fuse : Otp}

theorem State.sortCtrs_keeps (s : State) (g : Nat) (c : Nat) (h_s : Sound fuse s) :
    Sound fuse (State.sortCtrs s g c) := by
  unfold State.sortCtrs
  repeat' (first
    | (intro _ _ _)
    | (with_reducible first
      | assumption
      | apply State.setCell_keeps))

theorem State.installCtrs_keeps (s : State) (n : Nat) (g : Nat) (c : Nat) (h_s : Sound fuse s) :
    Sound fuse (State.installCtrs s n g c) := by
  unfold State.installCtrs
  repeat' (first
    | (intro _ _ _)
    | (with_reducible first
      | assumption
      | apply State.sortCtrs_keeps
      | apply State.setCell_keeps
      | (refine sound_snd (by assumption) ?_)
      | (refine sound_fst (by assumption) ?_))
    | dsimp only
    | simp only [sound_other]
    | split)

theorem State.joinCell_keeps (s : State) (n : Nat) (g : Nat) (c : Nat) (h_s : Sound fuse s) :
    Sound fuse (State.joinCell s n g c) := by
  unfold State.joinCell
  repeat' (first
    | (intro _ _ _)
    | (with_reducible first
      | assumption
      | apply State.setCell_keeps)
    | dsimp only
    | simp only [sound_other]
    | split)

theorem State.leaveCell_keeps (s : State) (n : Nat) (g : Nat) (c : Nat) (h_s : Sound fuse s) :
    Sound fuse (State.leaveCell s n g c) := by
  unfold State.leaveCell
  repeat' (first
    | (intro _ _ _)
    | (with_reducible first
      | assumption
      | apply State.setCell_keeps))

theorem State.zeroTables_keeps (s : State) (h_s : Sound fuse s) :
    Sound fuse (State.zeroTables s) := by
  unfold State.zeroTables
  repeat' (first
    | (intro _ _ _)
    | (with_reducible first
      | assumption
      | apply State.setGrove_keeps
      | apply sound_foldl)
    | dsimp only
    | simp only [sound_other]
    | split)

theorem State.enforce_keeps (s : State) (l : List (Nat × Nat)) (h_s : Sound fuse s) :
    Sound fuse (State.enforce s l) := by
  unfold State.enforce
  repeat' (first
    | (intro _ _ _)
    | (with_reducible first
      | assumption
      | apply State.setFrc_keeps
      | apply sound_foldl))

theorem State.enforceMaps_keeps (s : State) (n : Nat) (h_s : Sound fuse s) :
    Sound fuse (State.enforceMaps s n) := by
  unfold State.enforceMaps
  repeat' (first
    | (intro _ _ _)
    | (with_reducible first
      | assumption
      | apply State.setFrcBlob_keeps
      | apply State.wr_keeps
      | apply sound_foldl))

theorem State.acceptCreate_keeps (s : State) (n : Nat) (h_s : Sound fuse s) :
    Sound fuse (State.acceptCreate s n) := by
  unfold State.acceptCreate
  repeat' (first
    | (intro _ _ _)
    | (with_reducible first
      | assumption
      | apply State.setClr_keeps
      | apply State.enforce_keeps
      | apply State.enforceMaps_keeps
      | apply State.setClearState_keeps
      | apply State.installKey_keeps
      | apply State.assignGranules_keeps
      | apply State.joinCell_keeps
      | apply sound_foldl))

theorem State.createCmd_keeps (s : State) (n : Nat) (h_s : Sound fuse s) {t : State} (e : State.createCmd s n = .ok t) :
    Sound fuse t := by
  unfold State.createCmd at e
  try dsimp only at e
  repeat' (first
    | (simp only [Except.ok.injEq, reduceCtorEq] at e)
    | (simp only [Option.map_eq_some_iff, Prod.mk.injEq] at e)
    | (obtain ⟨rfl, _⟩ := e)
    | (obtain ⟨_, _, _, rfl⟩ := e)
    | (obtain ⟨_, _, rfl⟩ := e)
    | (subst e)
    | (split at e))
  repeat' (first
    | (intro _ _ _)
    | (with_reducible first
      | assumption
      | apply State.setClr_keeps
      | apply State.acceptCreate_keeps))

theorem State.zeroKeys_keeps (s : State) (l : List (Nat × Nat)) (h_s : Sound fuse s) :
    Sound fuse (State.zeroKeys s l) := by
  unfold State.zeroKeys
  repeat' (first
    | (intro _ _ _)
    | (with_reducible first
      | assumption
      | apply sound_foldl
      | apply sound_foldl_fst
      | apply sound_foldl_snd)
    | dsimp only
    | simp only [sound_other])

theorem State.dropBeats_keeps (s : State) (n : Nat) (h_s : Sound fuse s) :
    Sound fuse (State.dropBeats s n) := by
  unfold State.dropBeats
  repeat' (first
    | (intro _ _ _)
    | (with_reducible first
      | assumption)
    | dsimp only
    | simp only [sound_other])

theorem State.scrubRegions_keeps (s : State) (n : Nat) (h_s : Sound fuse s) :
    Sound fuse (State.scrubRegions s n) := by
  unfold State.scrubRegions
  repeat' (first
    | (intro _ _ _)
    | (with_reducible first
      | assumption
      | apply State.wipe_keeps))

theorem State.endCreate_keeps (s : State) (n : Nat) (h_s : Sound fuse s) :
    Sound fuse (State.endCreate s n) := by
  unfold State.endCreate
  repeat' (first
    | (intro _ _ _)
    | (with_reducible first
      | assumption
      | apply State.assignGranules_keeps
      | apply State.scrubRegions_keeps
      | apply State.charge_keeps
      | apply State.dropBeats_keeps
      | apply State.zeroKeys_keeps
      | apply State.post_keeps
      | apply State.setClearState_keeps
      | apply sound_foldl))

theorem State.moveSlots_keeps (s : State) (old : State) (n : Nat) (h_s : Sound fuse s) (h_old : Sound fuse old) :
    Sound fuse (State.moveSlots s old n) := by
  unfold State.moveSlots
  repeat' (first
    | (intro _ _ _)
    | (with_reducible first
      | assumption
      | apply State.moveMem_keeps
      | apply sound_foldl))

theorem State.vacate_keeps (s : State) (n : Nat) (g : Nat) (c : Nat) (h_s : Sound fuse s) :
    Sound fuse (State.vacate s n g c) := by
  unfold State.vacate
  repeat' (first
    | (intro _ _ _)
    | (with_reducible first
      | assumption
      | apply State.setCell_keeps
      | apply State.leaveCell_keeps
      | apply State.releaseGranules_keeps))

theorem State.acceptResize_keeps (s : State) (n : Nat) (h_s : Sound fuse s) :
    Sound fuse (State.acceptResize s n) := by
  unfold State.acceptResize
  repeat' (first
    | (intro _ _ _)
    | (with_reducible first
      | assumption
      | apply State.enforceMaps_keeps
      | apply State.moveSlots_keeps
      | apply State.vacate_keeps
      | apply State.joinCell_keeps
      | apply State.assignGranules_keeps
      | apply State.setClr_keeps
      | apply State.zeroTables_keeps
      | apply sound_foldl
      | apply sound_foldl_fst
      | apply sound_foldl_snd)
    | dsimp only
    | simp only [sound_other]
    | split)

theorem State.resizeCmd_keeps (s : State) (n : Nat) (h_s : Sound fuse s) {t : State} (e : State.resizeCmd s n = .ok t) :
    Sound fuse t := by
  unfold State.resizeCmd at e
  try dsimp only at e
  repeat' (first
    | (simp only [Except.ok.injEq, reduceCtorEq] at e)
    | (simp only [Option.map_eq_some_iff, Prod.mk.injEq] at e)
    | (obtain ⟨rfl, _⟩ := e)
    | (obtain ⟨_, _, _, rfl⟩ := e)
    | (obtain ⟨_, _, rfl⟩ := e)
    | (subst e)
    | (split at e))
  repeat' (first
    | (intro _ _ _)
    | (with_reducible first
      | assumption
      | apply State.acceptResize_keeps))

theorem State.chargeBeats_keeps (s : State) (g : Nat) (c : Nat) (n : Nat) (cls : TileClass) (beats : Nat) (h_s : Sound fuse s) :
    Sound fuse (State.chargeBeats s g c n cls beats) := by
  unfold State.chargeBeats
  repeat' (first
    | (intro _ _ _)
    | (with_reducible first
      | assumption
      | apply State.setCell_keeps
      | apply State.bumpLive_keeps
      | apply State.setGrove_keeps
      | (refine sound_snd (by assumption) ?_)
      | (refine sound_fst (by assumption) ?_))
    | dsimp only
    | simp only [sound_other]
    | split)

theorem State.spillVictim_keeps (s : State) (v : Nat) (g : Nat) (c : Nat) (sg : List Nat) (dg : List Nat) (h_s : Sound fuse s) :
    Sound fuse (State.spillVictim s v g c sg dg) := by
  unfold State.spillVictim
  repeat' (first
    | (intro _ _ _)
    | (with_reducible first
      | assumption
      | apply State.copyMem_keeps
      | apply State.zeroSide_keeps
      | apply State.zeroScratch_keeps
      | apply sound_foldl)
    | dsimp only
    | split)

theorem State.chargeSpill_keeps (s : State) (n : Nat) (v : Nat) (g : Nat) (bytes : Nat) (h_s : Sound fuse s) :
    Sound fuse (State.chargeSpill s n v g bytes) := by
  unfold State.chargeSpill
  repeat' (first
    | (intro _ _ _)
    | (with_reducible first
      | assumption
      | apply State.charge_keeps))

theorem State.parkVictim_keeps (s : State) (n : Nat) (v : Nat) (g : Nat) (c : Nat) (h_s : Sound fuse s) :
    Sound fuse (State.parkVictim s n v g c) := by
  unfold State.parkVictim
  repeat' (first
    | (intro _ _ _)
    | (with_reducible first
      | assumption
      | apply State.chargeSpill_keeps
      | apply State.spillVictim_keeps
      | apply State.setCell_keeps
      | apply State.bumpLive_keeps
      | apply State.leaveCell_keeps
      | apply State.freeSideOf_keeps
      | apply State.freeScratchOf_keeps))

theorem State.claimCell_keeps (s : State) (n : Nat) (g : Nat) (c : Nat) (h_s : Sound fuse s) :
    Sound fuse (State.claimCell s n g c) := by
  unfold State.claimCell
  repeat' (first
    | (intro _ _ _)
    | (with_reducible first
      | assumption
      | apply State.parkVictim_keeps
      | apply State.chargeBeats_keeps
      | apply State.joinCell_keeps
      | apply State.setCell_keeps
      | apply State.post_keeps
      | apply State.bumpLive_keeps
      | apply State.installCtrs_keeps
      | apply State.assignGranules_keeps
      | apply sound_foldl)
    | dsimp only
    | simp only [sound_other]
    | split)

theorem State.dropClaims_keeps (s : State) (n : Nat) (h_s : Sound fuse s) :
    Sound fuse (State.dropClaims s n) := by
  unfold State.dropClaims
  repeat' (first
    | (intro _ _ _)
    | (with_reducible first
      | assumption
      | apply State.vacate_keeps
      | apply sound_foldl))

theorem State.unpark_keeps (s : State) (g : Nat) (c : Nat) (p : Parked) (h_s : Sound fuse s) :
    Sound fuse (State.unpark s g c p) := by
  unfold State.unpark
  repeat' (first
    | (intro _ _ _)
    | (with_reducible first
      | assumption
      | apply State.setCell_keeps
      | apply State.moveMem_keeps
      | apply State.sortCtrs_keeps
      | apply State.charge_keeps
      | apply sound_foldl))

theorem State.restoreVictims_keeps (s : State) (n : Nat) (h_s : Sound fuse s) :
    Sound fuse (State.restoreVictims s n) := by
  unfold State.restoreVictims
  repeat' (first
    | (intro _ _ _)
    | (with_reducible first
      | assumption
      | apply State.unpark_keeps
      | apply sound_foldl
      | apply sound_foldl_fst
      | apply sound_foldl_snd)
    | dsimp only
    | split)

theorem State.dropPrograms_keeps (s : State) (n : Nat) (h_s : Sound fuse s) :
    Sound fuse (State.dropPrograms s n) := by
  unfold State.dropPrograms
  repeat' (first
    | (intro _ _ _)
    | (with_reducible first
      | assumption)
    | dsimp only
    | simp only [sound_other])

theorem State.releaseMicro_keeps (s : State) (h_s : Sound fuse s) :
    Sound fuse (State.releaseMicro s) := by
  unfold State.releaseMicro
  repeat' (first
    | (intro _ _ _)
    | (with_reducible first
      | assumption
      | apply State.wr_keeps
      | apply sound_foldl
      | apply sound_foldl_fst
      | apply sound_foldl_snd
      | (refine sound_snd (by assumption) ?_)
      | (refine sound_fst (by assumption) ?_))
    | dsimp only
    | split)

theorem State.dropPlan_keeps (s : State) (n : Nat) (h_s : Sound fuse s) :
    Sound fuse (State.dropPlan s n) := by
  unfold State.dropPlan
  repeat' (first
    | (intro _ _ _)
    | (with_reducible first
      | assumption
      | apply State.releaseMicro_keeps
      | apply State.setClr_keeps
      | apply State.dropPrograms_keeps
      | (refine sound_snd (by assumption) ?_)
      | (refine sound_fst (by assumption) ?_))
    | dsimp only
    | simp only [sound_other])

theorem State.dropTiles_keeps (s : State) (n : Nat) (h_s : Sound fuse s) :
    Sound fuse (State.dropTiles s n) := by
  unfold State.dropTiles
  repeat' (first
    | (intro _ _ _)
    | (with_reducible first
      | assumption)
    | dsimp only
    | simp only [sound_other])

theorem State.dropParked_keeps (s : State) (n : Nat) (h_s : Sound fuse s) :
    Sound fuse (State.dropParked s n) := by
  unfold State.dropParked
  repeat' (first
    | (intro _ _ _)
    | (with_reducible first
      | assumption)
    | dsimp only
    | simp only [sound_other])

theorem State.dropRemotes_keeps (s : State) (n : Nat) (h_s : Sound fuse s) :
    Sound fuse (State.dropRemotes s n) := by
  unfold State.dropRemotes
  repeat' (first
    | (intro _ _ _)
    | (with_reducible first
      | assumption)
    | dsimp only
    | simp only [sound_other])

theorem State.beginDestroy_keeps (s : State) (n : Nat) (h_s : Sound fuse s) :
    Sound fuse (State.beginDestroy s n) := by
  unfold State.beginDestroy
  repeat' (first
    | (intro _ _ _)
    | (with_reducible first
      | assumption
      | apply State.dropParked_keeps
      | apply State.dropTiles_keeps
      | apply State.setClearState_keeps
      | apply State.cancelAll_keeps
      | apply State.failSnapshot_keeps
      | apply State.dropRemotes_keeps
      | (refine sound_snd (by assumption) ?_)
      | (refine sound_fst (by assumption) ?_))
    | dsimp only
    | split)

theorem State.releaseClaims_keeps (s : State) (n : Nat) (h_s : Sound fuse s) :
    Sound fuse (State.releaseClaims s n) := by
  unfold State.releaseClaims
  repeat' (first
    | (intro _ _ _)
    | (with_reducible first
      | assumption
      | apply State.post_keeps
      | apply State.restoreVictims_keeps
      | apply State.dropClaims_keeps)
    | dsimp only
    | split)

theorem State.destroyCmd_keeps (s : State) (n : Nat) (h_s : Sound fuse s) {t : State} (e : State.destroyCmd s n = .ok t) :
    Sound fuse t := by
  unfold State.destroyCmd at e
  try dsimp only at e
  repeat' (first
    | (simp only [Except.ok.injEq, reduceCtorEq] at e)
    | (simp only [Option.map_eq_some_iff, Prod.mk.injEq] at e)
    | (obtain ⟨rfl, _⟩ := e)
    | (obtain ⟨_, _, _, rfl⟩ := e)
    | (obtain ⟨_, _, rfl⟩ := e)
    | (subst e)
    | (split at e))
  repeat' (first
    | (intro _ _ _)
    | (with_reducible first
      | assumption
      | apply State.beginDestroy_keeps))

theorem State.clearEntries_keeps (s : State) (n : Nat) (h_s : Sound fuse s) :
    Sound fuse (State.clearEntries s n) := by
  unfold State.clearEntries
  repeat' (first
    | (intro _ _ _)
    | (with_reducible first
      | assumption)
    | dsimp only
    | simp only [sound_other])

theorem State.freeTriggers_keeps (s : State) (n : Nat) (h_s : Sound fuse s) :
    Sound fuse (State.freeTriggers s n) := by
  unfold State.freeTriggers
  repeat' (first
    | (intro _ _ _)
    | (with_reducible first
      | assumption)
    | dsimp only
    | simp only [sound_other])

theorem State.dropRecord_keeps (s : State) (n : Nat) (h_s : Sound fuse s) :
    Sound fuse (State.dropRecord s n) := by
  unfold State.dropRecord
  repeat' (first
    | (intro _ _ _)
    | (with_reducible first
      | assumption)
    | dsimp only
    | simp only [sound_other])

theorem State.topUp_keeps (s : State) (cells : List Nat) (h_s : Sound fuse s) :
    Sound fuse (State.topUp s cells) := by
  unfold State.topUp
  repeat' (first
    | (intro _ _ _)
    | (with_reducible first
      | assumption
      | apply State.assignGranules_keeps
      | apply sound_foldl))

theorem State.endDestroy_keeps (s : State) (n : Nat) (h_s : Sound fuse s) :
    Sound fuse (State.endDestroy s n) := by
  unfold State.endDestroy
  repeat' (first
    | (intro _ _ _)
    | (with_reducible first
      | assumption
      | apply State.releaseClaims_keeps
      | apply State.dropRemotes_keeps
      | apply State.vacate_keeps
      | apply State.scrubRegions_keeps
      | apply State.freeTriggers_keeps
      | apply State.eraseKey_keeps
      | apply State.dropPlan_keeps
      | apply State.wr_keeps
      | apply State.unreserve_keeps
      | apply State.topUp_keeps
      | apply State.zeroTables_keeps
      | apply State.clearEntries_keeps
      | apply State.dropRecord_keeps
      | apply State.closeKeyless_keeps
      | apply State.post_keeps
      | apply sound_foldl))

theorem State.destroyAll_keeps (s : State) (h_s : Sound fuse s) :
    Sound fuse (State.destroyAll s) := by
  unfold State.destroyAll
  repeat' (first
    | (intro _ _ _)
    | (with_reducible first
      | assumption
      | apply State.beginDestroy_keeps
      | apply State.endDestroy_keeps
      | apply sound_foldl
      | apply sound_foldl_fst
      | apply sound_foldl_snd)
    | dsimp only
    | simp only [sound_other]
    | split)

theorem State.refuseHeld_keeps (s : State) (h_s : Sound fuse s) :
    Sound fuse (State.refuseHeld s) := by
  unfold State.refuseHeld
  repeat' (first
    | (intro _ _ _)
    | (with_reducible first
      | assumption
      | apply State.post_keeps
      | apply State.setClr_keeps
      | apply sound_foldl))

theorem execClearingCreated_keeps (n : Nat) (s : State) (h_s : Kept fuse s) :
    AnsKept fuse (execClearingCreated n s) := by
  unfold execClearingCreated
  first
    | (refine ansInv_inRange (by assumption) fun _ => Sound.inv ?_)
  repeat' (first
    | (intro _ _ _)
    | (with_reducible first
      | assumption
      | apply State.endCreate_keeps
      | apply sound_onlyIf))

theorem execClearingDestroyed_keeps (n : Nat) (s : State) (h_s : Kept fuse s) :
    AnsKept fuse (execClearingDestroyed n s) := by
  unfold execClearingDestroyed
  first
    | (refine ansInv_inRange (by assumption) fun _ => Sound.inv ?_)
  repeat' (first
    | (intro _ _ _)
    | (with_reducible first
      | assumption
      | apply State.endDestroy_keeps
      | apply sound_onlyIf))

theorem execKeyOpeningDone_keeps (n : Nat) (s : State) (h_s : Kept fuse s) :
    AnsKept fuse (execKeyOpeningDone n s) := by
  unfold execKeyOpeningDone
  first
    | (refine ansInv_inRange (by assumption) fun _ => Sound.inv ?_)
  repeat' (first
    | (intro _ _ _)
    | (with_reducible first
      | assumption
      | apply State.openKey_keeps
      | apply State.post_keeps
      | apply State.setClr_keeps
      | apply State.acceptCreate_keeps
      | (refine sound_snd (by assumption) ?_)
      | (refine sound_fst (by assumption) ?_))
    | dsimp only
    | simp only [sound_other]
    | split)

theorem execCryptoError_keeps (s : State) (h_s : Kept fuse s) :
    AnsKept fuse (execCryptoError s) := by
  unfold execCryptoError
  first
    | (refine ansInv_inRange (by assumption) fun _ => Sound.inv ?_)
    | (refine ansInv_whenOn (by assumption) fun _ => Sound.inv ?_)
  repeat' (first
    | (intro _ _ _)
    | (with_reducible first
      | assumption
      | apply State.postAll_keeps
      | apply State.destroyAll_keeps
      | apply State.refuseHeld_keeps
      | apply State.zeroise_keeps))

theorem execClaimTaken_keeps (n : Nat) (g : Nat) (ns : Nat) (s : State) (h_s : Kept fuse s) :
    AnsKept fuse (execClaimTaken n g ns s) := by
  unfold execClaimTaken
  first
    | (refine ansInv_inRange (by assumption) fun _ => Sound.inv ?_)
  repeat' (first
    | (intro _ _ _)
    | (with_reducible first
      | assumption
      | apply State.claimCell_keeps
      | apply sound_foldl
      | apply sound_onlyIf)
    | dsimp only
    | simp only [sound_other])

theorem execClaimHoldExpire_keeps (n : Nat) (s : State) (h_s : Kept fuse s) :
    AnsKept fuse (execClaimHoldExpire n s) := by
  unfold execClaimHoldExpire
  first
    | (refine ansInv_inRange (by assumption) fun _ => Sound.inv ?_)
  repeat' (first
    | (intro _ _ _)
    | (with_reducible first
      | assumption
      | apply State.dropClaims_keeps
      | apply State.post_keeps
      | apply sound_onlyIf)
    | dsimp only
    | split)

theorem execClaimReleased_keeps (n : Nat) (s : State) (h_s : Kept fuse s) :
    AnsKept fuse (execClaimReleased n s) := by
  unfold execClaimReleased
  first
    | (refine ansInv_inRange (by assumption) fun _ => Sound.inv ?_)
  repeat' (first
    | (intro _ _ _)
    | (with_reducible first
      | assumption
      | apply State.post_keeps
      | apply State.restoreVictims_keeps
      | apply sound_onlyIf))

end Sys2Proof.Machine
end

