-- ==== Sys2Proof/Laws/KeepsMicro.lean ====
section
/-! SUPPORT. The operations of Machine/Micro.lean keep a state sound. -/

namespace Sys2Proof.Machine

open State

variable {fuse : Otp}

theorem State.validateMp_keeps (s : State) (e : Nat) (h_s : Sound fuse s) :
    Sound fuse (State.validateMp s e).2 := by
  unfold State.validateMp
  repeat' (first
    | (intro _ _ _)
    | (with_reducible first
      | assumption
      | apply State.wr_keeps)
    | dsimp only
    | split)

theorem State.writeMpTable_keeps (s : State) (v : List Byte) (h_s : Sound fuse s) :
    Sound fuse (State.writeMpTable s v) := by
  unfold State.writeMpTable
  repeat' (first
    | (intro _ _ _)
    | (with_reducible first
      | assumption
      | apply State.validateMp_keeps
      | apply State.wrBlob_keeps
      | apply sound_foldl))

theorem execMicroprogLoaded_keeps (entry : Nat) (s : State) (h_s : Kept fuse s) :
    AnsKept fuse (execMicroprogLoaded entry s) := by
  unfold execMicroprogLoaded
  first
    | (refine ansInv_inRange (by assumption) fun _ => Sound.inv ?_)
  repeat' (first
    | (intro _ _ _)
    | (with_reducible first
      | assumption
      | apply State.wr_keeps
      | apply sound_onlyIf))

end Sys2Proof.Machine
end

