-- ==== Sys2Proof/Laws/KeepsTurning.lean ====
section
/-! SUPPORT. The operations of Machine/Turning.lean keep a state sound. -/

namespace Sys2Proof.Machine

open State

variable {fuse : Otp}

theorem State.setTurn_keeps (s : State) (n : Nat) (t : Turn) (h_s : Sound fuse s) :
    Sound fuse (State.setTurn s n t) := by
  unfold State.setTurn
  repeat' (first
    | (intro _ _ _)
    | (with_reducible first
      | assumption
      | apply State.setClr_keeps))

theorem State.setTurnState_keeps (s : State) (n : Nat) (v : Nat) (h_s : Sound fuse s) :
    Sound fuse (State.setTurnState s n v) := by
  unfold State.setTurnState
  repeat' (first
    | (intro _ _ _)
    | (with_reducible first
      | assumption
      | apply State.wr_keeps))

theorem State.setUnit_keeps (s : State) (n : Nat) (u : Nat) (x : TUnit) (h_s : Sound fuse s) :
    Sound fuse (State.setUnit s n u x) := by
  unfold State.setUnit
  repeat' (first
    | (intro _ _ _)
    | (with_reducible first
      | assumption
      | apply State.setTurn_keeps))

theorem State.startTurn_keeps (s : State) (v : Nat) (m : Nat) (h_s : Sound fuse s) :
    Sound fuse (State.startTurn s v m) := by
  unfold State.startTurn
  repeat' (first
    | (intro _ _ _)
    | (with_reducible first
      | assumption
      | apply State.setTurn_keeps
      | apply State.wr_keeps
      | apply State.setTurnState_keeps)
    | dsimp only
    | simp only [sound_other]
    | split)

theorem State.produce_keeps (s : State) (n : Nat) (h_s : Sound fuse s) :
    Sound fuse (State.produce s n) := by
  unfold State.produce
  repeat' (first
    | (intro _ _ _)
    | (with_reducible first
      | assumption
      | apply State.setPress_keeps
      | apply State.wr_keeps
      | apply State.bumpLive_keeps
      | apply State.post_keeps
      | apply State.startTurn_keeps
      | apply sound_foldl
      | (refine sound_snd (by assumption) ?_)
      | (refine sound_fst (by assumption) ?_))
    | dsimp only
    | simp only [sound_other]
    | split)

theorem State.endPass2_keeps (s : State) (n : Nat) (h_s : Sound fuse s) :
    Sound fuse (State.endPass2 s n) := by
  unfold State.endPass2
  repeat' (first
    | (intro _ _ _)
    | (with_reducible first
      | assumption
      | apply State.produce_keeps
      | apply State.wr_keeps)
    | dsimp only
    | split)

theorem State.countStaged_keeps (s : State) (n : Nat) (h_s : Sound fuse s) :
    Sound fuse (State.countStaged s n) := by
  unfold State.countStaged
  repeat' (first
    | (intro _ _ _)
    | (with_reducible first
      | assumption
      | apply State.wr_keeps))

theorem State.noFront_keeps (s : State) (n : Nat) (h_s : Sound fuse s) :
    Sound fuse (State.noFront s n) := by
  unfold State.noFront
  repeat' (first
    | (intro _ _ _)
    | (with_reducible first
      | assumption
      | apply State.wr_keeps))

theorem State.restFront_keeps (s : State) (n : Nat) (h_s : Sound fuse s) :
    Sound fuse (State.restFront s n) := by
  unfold State.restFront
  repeat' (first
    | (intro _ _ _)
    | (with_reducible first
      | assumption
      | apply State.noFront_keeps)
    | dsimp only
    | split)

theorem State.turnFail_keeps (s : State) (n : Nat) (u : Nat) (shard : Nat) (h_s : Sound fuse s) :
    Sound fuse (State.turnFail s n u shard) := by
  unfold State.turnFail
  repeat' (first
    | (intro _ _ _)
    | (with_reducible first
      | assumption
      | apply State.setTurnState_keeps
      | apply State.post_keeps
      | apply State.setTurn_keeps
      | apply State.noFront_keeps
      | apply State.countStaged_keeps)
    | dsimp only
    | simp only [sound_other]
    | split)

theorem State.judgeStaged_keeps (s : State) (n : Nat) (u : Nat) (h_s : Sound fuse s) :
    Sound fuse (State.judgeStaged s n u) := by
  unfold State.judgeStaged
  repeat' (first
    | (intro _ _ _)
    | (with_reducible first
      | assumption
      | apply State.countStaged_keeps
      | apply State.setUnit_keeps))

theorem State.reserveUnit_keeps (s : State) (n : Nat) (u : Nat) (h : Sound fuse s) :
    Sound fuse (State.reserveUnit s n u) := by
  unfold State.reserveUnit
  cases s.unitSpace n u with
  | none => exact h
  | some l => exact State.judgeStaged_keeps _ _ _ (State.setUnit_keeps _ _ _ _ h)

theorem State.shardBad_keeps (s : State) (n : Nat) (u : Nat) (shard : Nat) (h_s : Sound fuse s) :
    Sound fuse (State.shardBad s n u shard) := by
  unfold State.shardBad
  repeat' (first
    | (intro _ _ _)
    | (with_reducible first
      | assumption
      | apply State.turnFail_keeps
      | apply State.bumpLive_keeps
      | apply State.setUnit_keeps)
    | dsimp only
    | simp only [sound_other]
    | split)

theorem State.writeImage_keeps (s : State) (n : Nat) (blocks : List Nat) (off : Nat) (data : List Byte) (h_s : Sound fuse s) :
    Sound fuse (State.writeImage s n blocks off data) := by
  unfold State.writeImage
  repeat' (first
    | (intro _ _ _)
    | (with_reducible first
      | assumption
      | apply State.writeRegion_keeps
      | apply sound_foldl))

theorem State.chargeImage_keeps (s : State) (n : Nat) (blocks : List Nat) (off : Nat) (len : Nat) (h_s : Sound fuse s) :
    Sound fuse (State.chargeImage s n blocks off len) := by
  unfold State.chargeImage
  repeat' (first
    | (intro _ _ _)
    | (with_reducible first
      | assumption
      | apply State.chargeRange_keeps
      | apply sound_foldl))

theorem State.writeShard_keeps (s : State) (n : Nat) (d : ShardDesc) (data : List Byte) (h_s : Sound fuse s) :
    Sound fuse (State.writeShard s n d data) := by
  unfold State.writeShard
  repeat' (first
    | (intro _ _ _)
    | (with_reducible first
      | assumption
      | apply State.writeImage_keeps
      | apply State.setUnit_keeps))

theorem State.readBack_keeps (s : State) (n : Nat) (d : ShardDesc) (h_s : Sound fuse s) :
    Sound fuse (State.readBack s n d) := by
  unfold State.readBack
  repeat' (first
    | (intro _ _ _)
    | (with_reducible first
      | assumption
      | apply State.chargeImage_keeps))

theorem State.landShard_keeps (s : State) (n : Nat) (d : ShardDesc) (h_s : Sound fuse s) :
    Sound fuse (State.landShard s n d) := by
  unfold State.landShard
  repeat' (first
    | (intro _ _ _)
    | (with_reducible first
      | assumption
      | apply State.judgeStaged_keeps
      | apply State.setUnit_keeps))

theorem State.shardLost_keeps (s : State) (n : Nat) (u : Nat) (shard : Nat) (h_s : Sound fuse s) :
    Sound fuse (State.shardLost s n u shard) := by
  unfold State.shardLost
  repeat' (first
    | (intro _ _ _)
    | (with_reducible first
      | assumption
      | apply State.bumpLive_keeps
      | apply State.setUnit_keeps
      | apply State.turnFail_keeps
      | apply State.post_keeps
      | apply State.setTurn_keeps
      | apply State.setTurnState_keeps)
    | dsimp only
    | simp only [sound_other]
    | split)

theorem State.landRefetch_keeps (s : State) (n : Nat) (d : ShardDesc) (h_s : Sound fuse s) :
    Sound fuse (State.landRefetch s n d) := by
  unfold State.landRefetch
  repeat' (first
    | (intro _ _ _)
    | (with_reducible first
      | assumption
      | apply State.setUnit_keeps))

theorem State.refetchBad_keeps (s : State) (n : Nat) (u : Nat) (shard : Nat) (h_s : Sound fuse s) :
    Sound fuse (State.refetchBad s n u shard) := by
  unfold State.refetchBad
  repeat' (first
    | (intro _ _ _)
    | (with_reducible first
      | assumption
      | apply State.shardLost_keeps
      | apply State.setUnit_keeps))

theorem State.sendShard_keeps (s : State) (n : Nat) (d : ShardDesc) (granted : Bool) (again : Bool) (h_s : Sound fuse s) :
    Sound fuse (State.sendShard s n d granted again) := by
  unfold State.sendShard
  repeat' (first
    | (intro _ _ _)
    | (with_reducible first
      | assumption
      | apply State.readRegion_keeps
      | apply State.postMemoryLost_keeps
      | apply State.bump_keeps
      | apply State.writeShard_keeps
      | apply State.carry_keeps
      | apply State.emit_keeps
      | apply sound_foldl
      | apply sound_foldl_fst
      | apply sound_foldl_snd
      | (refine sound_snd (by assumption) ?_)
      | (refine sound_fst (by assumption) ?_))
    | dsimp only
    | simp only [sound_other]
    | split)

theorem State.chargeIngress_keeps (s : State) (n : Nat) (src : Nat) (bytes : Nat) (h_s : Sound fuse s) :
    Sound fuse (State.chargeIngress s n src bytes) := by
  unfold State.chargeIngress
  repeat' (first
    | (intro _ _ _)
    | (with_reducible first
      | assumption
      | apply State.charge_keeps
      | (refine sound_snd (by assumption) ?_)
      | (refine sound_fst (by assumption) ?_))
    | dsimp only
    | split)

theorem State.reportStaged_keeps (s : State) (n : Nat) (h_s : Sound fuse s) :
    Sound fuse (State.reportStaged s n) := by
  unfold State.reportStaged
  repeat' (first
    | (intro _ _ _)
    | (with_reducible first
      | assumption
      | apply State.emit_keeps
      | apply State.setTurn_keeps)
    | dsimp only
    | simp only [sound_other]
    | split)

theorem State.countRead_keeps (s : State) (n : Nat) (u : Nat) (h_s : Sound fuse s) :
    Sound fuse (State.countRead s n u) := by
  unfold State.countRead
  repeat' (first
    | (intro _ _ _)
    | (with_reducible first
      | assumption
      | apply State.setTurn_keeps)
    | dsimp only
    | simp only [sound_other]
    | split)

theorem State.endTurn_keeps (s : State) (n : Nat) (h_s : Sound fuse s) :
    Sound fuse (State.endTurn s n) := by
  unfold State.endTurn
  repeat' (first
    | (intro _ _ _)
    | (with_reducible first
      | assumption
      | apply State.setTurn_keeps
      | apply State.bumpLive_keeps
      | apply State.wr_keeps
      | apply State.setTurnState_keeps
      | apply State.post_keeps)
    | dsimp only
    | simp only [sound_other])

theorem State.replaceUnit_keeps (s : State) (n : Nat) (u : Nat) (h_s : Sound fuse s) :
    Sound fuse (State.replaceUnit s n u) := by
  unfold State.replaceUnit
  repeat' (first
    | (intro _ _ _)
    | (with_reducible first
      | assumption
      | apply State.chargeKeeper_keeps
      | apply State.wr_keeps
      | apply State.setUnit_keeps))

theorem State.startLoad_keeps (s : State) (n : Nat) (version : Nat) (h_s : Sound fuse s) :
    Sound fuse (State.startLoad s n version) := by
  unfold State.startLoad
  repeat' (first
    | (intro _ _ _)
    | (with_reducible first
      | assumption
      | apply State.setTurn_keeps
      | apply State.wr_keeps
      | apply State.setTurnState_keeps
      | apply State.holdReaders_keeps))

theorem State.endLoad_keeps (s : State) (n : Nat) (h_s : Sound fuse s) :
    Sound fuse (State.endLoad s n) := by
  unfold State.endLoad
  repeat' (first
    | (intro _ _ _)
    | (with_reducible first
      | assumption
      | apply State.setTurn_keeps
      | apply State.post_keeps
      | apply State.wr_keeps
      | apply State.setTurnState_keeps
      | apply State.startTurn_keeps
      | (refine sound_snd (by assumption) ?_)
      | (refine sound_fst (by assumption) ?_))
    | dsimp only
    | simp only [sound_other]
    | split)

theorem State.advanceSource_keeps (s : State) (n : Nat) (v : Nat) (h_s : Sound fuse s) :
    Sound fuse (State.advanceSource s n v) := by
  unfold State.advanceSource
  repeat' (first
    | (intro _ _ _)
    | (with_reducible first
      | assumption
      | apply State.setPress_keeps
      | apply State.startTurn_keeps
      | apply sound_foldl
      | (refine sound_snd (by assumption) ?_)
      | (refine sound_fst (by assumption) ?_))
    | dsimp only
    | simp only [sound_other]
    | split)

theorem execVersionProduced_keeps (n : Nat) (s : State) (h_s : Kept fuse s) :
    AnsKept fuse (execVersionProduced n s) := by
  unfold execVersionProduced
  first
    | (refine ansInv_inRange (by assumption) fun _ => Sound.inv ?_)
  repeat' (first
    | (intro _ _ _)
    | (with_reducible first
      | assumption
      | apply State.endPass2_keeps
      | apply State.produce_keeps
      | apply sound_onlyIf)
    | dsimp only
    | split)

theorem execLandingReserve_keeps (n : Nat) (s : State) (h_s : Kept fuse s) :
    AnsKept fuse (execLandingReserve n s) := by
  unfold execLandingReserve
  first
    | (refine ansInv_inRange (by assumption) fun _ => Sound.inv ?_)
  repeat' (first
    | (intro _ _ _)
    | (with_reducible first
      | assumption
      | apply State.reserveUnit_keeps
      | apply State.reportStaged_keeps
      | apply sound_onlyIf
      | (refine sound_snd (by assumption) ?_)
      | (refine sound_fst (by assumption) ?_))
    | dsimp only
    | split)

theorem execShardSend_keeps (n : Nat) (unit : Nat) (shard : Nat) (s : State) (dst : Nat) (granted : Bool) (again : Bool)
    (h_s : Kept fuse s) :
    AnsKept fuse (execShardSend n unit shard s dst granted again) := by
  unfold execShardSend
  first
    | (refine ansInv_inRange (by assumption) fun _ => Sound.inv ?_)
  repeat' (first
    | (intro _ _ _)
    | (with_reducible first
      | assumption
      | apply State.sendShard_keeps
      | apply sound_foldl
      | apply sound_onlyIf))

theorem execShardLanded_keeps (n : Nat) (unit : Nat) (shard : Nat) (data : List Byte) (bad : Bool) (s : State)
    (h_s : Kept fuse s) :
    AnsKept fuse (execShardLanded n unit shard data bad s) := by
  unfold execShardLanded
  first
    | (refine ansInv_inRange (by assumption) fun _ => Sound.inv ?_)
  repeat' (first
    | (intro _ _ _)
    | (with_reducible first
      | assumption
      | apply State.readBack_keeps
      | apply State.chargeIngress_keeps
      | apply State.writeShard_keeps
      | apply State.refetchBad_keeps
      | apply State.landRefetch_keeps
      | apply State.shardBad_keeps
      | apply State.landShard_keeps
      | apply State.reportStaged_keeps
      | apply sound_onlyIf
      | (refine sound_snd (by assumption) ?_)
      | (refine sound_fst (by assumption) ?_))
    | dsimp only
    | split)

theorem execFrontStart_keeps (n : Nat) (reports : List Bool) (s : State) (h_s : Kept fuse s) :
    AnsKept fuse (execFrontStart n reports s) := by
  unfold execFrontStart
  first
    | (refine ansInv_inRange (by assumption) fun _ => Sound.inv ?_)
  repeat' (first
    | (intro _ _ _)
    | (with_reducible first
      | assumption
      | apply State.holdReaders_keeps
      | apply State.setTurn_keeps
      | apply State.wr_keeps
      | apply State.setTurnState_keeps
      | apply sound_onlyIf))

theorem execTurnSourceCurrent_keeps (n : Nat) (s : State) (others : Bool) (h_s : Kept fuse s) :
    AnsKept fuse (execTurnSourceCurrent n s others) := by
  unfold execTurnSourceCurrent
  first
    | (refine ansInv_inRange (by assumption) fun _ => Sound.inv ?_)
  repeat' (first
    | (intro _ _ _)
    | (with_reducible first
      | assumption
      | apply State.advanceSource_keeps
      | (refine sound_snd (by assumption) ?_)
      | (refine sound_fst (by assumption) ?_))
    | dsimp only
    | split)

theorem execVatLoad_keeps (n : Nat) (version : Nat) (s : State) (h_s : Kept fuse s) :
    AnsKept fuse (execVatLoad n version s) := by
  unfold execVatLoad
  first
    | (refine ansInv_inRange (by assumption) fun _ => Sound.inv ?_)
  repeat' (first
    | (intro _ _ _)
    | (with_reducible first
      | assumption
      | apply State.startLoad_keeps
      | apply sound_onlyIf))

theorem execLoadDone_keeps (n : Nat) (s : State) (h_s : Kept fuse s) :
    AnsKept fuse (execLoadDone n s) := by
  unfold execLoadDone
  first
    | (refine ansInv_inRange (by assumption) fun _ => Sound.inv ?_)
  repeat' (first
    | (intro _ _ _)
    | (with_reducible first
      | assumption
      | apply State.endLoad_keeps
      | apply sound_onlyIf))

end Sys2Proof.Machine
end

