-- ==== Sys2Proof/Laws/KeepsCounters.lean ====
section
/-! SUPPORT. The operations of Machine/Counters.lean keep a state sound. -/

namespace Sys2Proof.Machine

open State

variable {fuse : Otp}

theorem State.countBarred_keeps (s : State) (g : Nat) (l : List (Nat × Nat)) (n : Option Nat) (ts : List TileSlot)
    (h_s : Sound fuse s) :
    Sound fuse (State.countBarred s g l n ts) := by
  unfold State.countBarred
  repeat' (first
    | (intro _ _ _)
    | (with_reducible first
      | assumption
      | apply State.bumpLive_keeps
      | apply sound_foldl)
    | dsimp only
    | split)

theorem State.refresh_keeps (s : State) (g : Nat) (c : Nat) (h_s : Sound fuse s) :
    Sound fuse (State.refresh s g c) := by
  unfold State.refresh
  repeat' (first
    | (intro _ _ _)
    | (with_reducible first
      | assumption
      | apply State.setCell_keeps
      | apply State.countBarred_keeps))

theorem State.refreshParked_keeps (s : State) (g : Nat) (c : Nat) (h_s : Sound fuse s) :
    Sound fuse (State.refreshParked s g c) := by
  unfold State.refreshParked
  repeat' (first
    | (intro _ _ _)
    | (with_reducible first
      | assumption
      | apply State.countBarred_keeps
      | apply State.setCell_keeps
      | apply sound_foldl))

theorem State.refreshOf_keeps (s : State) (n : Nat) (h_s : Sound fuse s) :
    Sound fuse (State.refreshOf s n) := by
  unfold State.refreshOf
  repeat' (first
    | (intro _ _ _)
    | (with_reducible first
      | assumption
      | apply State.refreshParked_keeps
      | apply State.refresh_keeps
      | apply sound_foldl))

theorem State.bumpCtr_keeps (s : State) (g : Nat) (c : Nat) (k : Nat) (h_s : Sound fuse s) :
    Sound fuse (State.bumpCtr s g c k) := by
  unfold State.bumpCtr
  repeat' (first
    | (intro _ _ _)
    | (with_reducible first
      | assumption
      | apply State.refresh_keeps
      | apply State.setCell_keeps
      | apply State.post_keeps
      | (refine sound_snd (by assumption) ?_)
      | (refine sound_fst (by assumption) ?_))
    | dsimp only
    | simp only [sound_other]
    | split)

theorem State.savedCtr_keeps (s : State) (n : Nat) (g : Nat) (c : Nat) (i : Nat) (h_s : Sound fuse s) :
    Sound fuse (State.savedCtr s n g c i) := by
  unfold State.savedCtr
  repeat' (first
    | (intro _ _ _)
    | (with_reducible first
      | assumption
      | apply State.refreshParked_keeps
      | apply State.setCell_keeps
      | apply State.post_keeps
      | (refine sound_snd (by assumption) ?_)
      | (refine sound_fst (by assumption) ?_))
    | dsimp only
    | simp only [sound_other]
    | split)

theorem State.signalCtr_keeps (s : State) (n : Nat) (g : Nat) (c : Nat) (i : Nat) (h_s : Sound fuse s) :
    Sound fuse (State.signalCtr s n g c i) := by
  unfold State.signalCtr
  repeat' (first
    | (intro _ _ _)
    | (with_reducible first
      | assumption
      | apply State.bumpCtr_keeps
      | apply State.savedCtr_keeps
      | (refine sound_snd (by assumption) ?_)
      | (refine sound_fst (by assumption) ?_))
    | dsimp only
    | split)

theorem State.linkSignal_keeps (s : State) (n : Nat) (v : Nat) (h_s : Sound fuse s) :
    Sound fuse (State.linkSignal s n v) := by
  unfold State.linkSignal
  repeat' (first
    | (intro _ _ _)
    | (with_reducible first
      | assumption
      | apply State.signalCtr_keeps
      | apply State.post_keeps)
    | dsimp only
    | split)

theorem execCounterSignal_keeps (g : Nat) (c : Nat) (ctr : Nat) (src : Nat) (s : State) (h_s : Kept fuse s) :
    AnsKept fuse (execCounterSignal g c ctr src s) := by
  unfold execCounterSignal
  first
    | (refine ansInv_inRange (by assumption) fun _ => Sound.inv ?_)
  repeat' (first
    | (intro _ _ _)
    | (with_reducible first
      | assumption
      | apply State.signalCtr_keeps
      | apply State.post_keeps
      | apply sound_onlyIf)
    | dsimp only
    | split)

theorem execUnitReplace_keeps (n : Nat) (s : State) (others : Bool) (h_s : Kept fuse s) :
    AnsKept fuse (execUnitReplace n s others) := by
  unfold execUnitReplace
  first
    | (refine ansInv_inRange (by assumption) fun _ => Sound.inv ?_)
  repeat' (first
    | (intro _ _ _)
    | (with_reducible first
      | assumption
      | apply State.refreshOf_keeps
      | apply State.replaceUnit_keeps
      | apply State.endTurn_keeps
      | apply sound_onlyIf)
    | dsimp only
    | split)

end Sys2Proof.Machine
end

