-- ==== Sys2Proof/Laws/KeepsLines.lean ====
section
/-! SUPPORT. The operations of Machine/Lines.lean keep a state sound. -/

namespace Sys2Proof.Machine

open State

variable {fuse : Otp}

theorem State.remapLine_keeps (s : State) (p : Place) (h_s : Sound fuse s) :
    Sound fuse (State.remapLine s p) := by
  unfold State.remapLine
  repeat' (first
    | (intro _ _ _)
    | (with_reducible first
      | assumption
      | apply State.wr_keeps
      | apply State.postAll_keeps)
    | dsimp only
    | simp only [sound_other]
    | split)

theorem State.correctLine_keeps (s : State) (p : Place) (h_s : Sound fuse s) :
    Sound fuse (State.correctLine s p) := by
  unfold State.correctLine
  repeat' (first
    | (intro _ _ _)
    | (with_reducible first
      | assumption
      | apply State.bump_keeps
      | apply State.remapLine_keeps
      | (refine sound_snd (by assumption) ?_)
      | (refine sound_fst (by assumption) ?_))
    | dsimp only
    | simp only [sound_other]
    | split)

theorem State.endResumes_keeps (s : State) (n : Nat) (tag : Nat) (h_s : Sound fuse s) :
    Sound fuse (State.endResumes s n tag) := by
  unfold State.endResumes
  repeat' (first
    | (intro _ _ _)
    | (with_reducible first
      | assumption
      | apply State.setVat_keeps
      | apply State.endRequest_keeps
      | apply sound_foldl))

theorem State.loseImages_keeps (s : State) (k : Nat) (n : Nat) (h_s : Sound fuse s) :
    Sound fuse (State.loseImages s k n) := by
  unfold State.loseImages
  repeat' (first
    | (intro _ _ _)
    | (with_reducible first
      | assumption
      | apply State.post_keeps
      | apply State.endResumes_keeps
      | apply State.dropImage_keeps
      | apply sound_foldl))

theorem State.failGroup_keeps (s : State) (k : Nat) (h_s : Sound fuse s) :
    Sound fuse (State.failGroup s k) := by
  unfold State.failGroup
  repeat' (first
    | (intro _ _ _)
    | (with_reducible first
      | assumption
      | apply State.postAll_keeps
      | apply State.wr_keeps
      | apply State.loseImages_keeps
      | apply sound_foldl)
    | dsimp only
    | split)

theorem State.notePiece_keeps (s : State) (p : Place) (h_s : Sound fuse s) :
    Sound fuse (State.notePiece s p) := by
  unfold State.notePiece
  repeat' (first
    | (intro _ _ _)
    | (with_reducible first
      | assumption
      | apply State.failGroup_keeps)
    | dsimp only
    | simp only [sound_other]
    | split)

theorem State.loseLine_keeps (s : State) (p : Place) (h_s : Sound fuse s) :
    Sound fuse (State.loseLine s p) := by
  unfold State.loseLine
  repeat' (first
    | (intro _ _ _)
    | (with_reducible first
      | assumption
      | apply State.bump_keeps
      | apply State.remapLine_keeps
      | apply State.notePiece_keeps)
    | dsimp only
    | simp only [sound_other]
    | split)

theorem State.faultSeq_keeps (s : State) (n : Nat) (slot : Nat) (code : Nat) (h_s : Sound fuse s) :
    Sound fuse (State.faultSeq s n slot code) := by
  unfold State.faultSeq
  repeat' (first
    | (intro _ _ _)
    | (with_reducible first
      | assumption
      | apply State.setVat_keeps))

theorem State.hwFault_keeps (s : State) (group : Nat) (unit : Nat) (input : Nat) (h_s : Sound fuse s) :
    Sound fuse (State.hwFault s group unit input) := by
  unfold State.hwFault
  repeat' (first
    | (intro _ _ _)
    | (with_reducible first
      | assumption
      | apply State.postAll_keeps)
    | dsimp only
    | simp only [sound_other]
    | split)

theorem execLockOverrun_keeps (group : Nat) (unit : Nat) (input : Nat) (s : State) (h_s : Kept fuse s) :
    AnsKept fuse (execLockOverrun group unit input s) := by
  unfold execLockOverrun
  first
    | (refine ansInv_inRange (by assumption) fun _ => Sound.inv ?_)
  repeat' (first
    | (intro _ _ _)
    | (with_reducible first
      | assumption
      | (refine State.breakLock_keeps _ _ _ _ ?_ (by assumption))
      | apply State.retireCell_keeps
      | apply State.hwFault_keeps
      | (refine sound_snd (by assumption) ?_)
      | (refine sound_fst (by assumption) ?_))
    | dsimp only
    | split)

theorem execCellarGroupFailed_keeps (group : Nat) (s : State) (h_s : Kept fuse s) :
    AnsKept fuse (execCellarGroupFailed group s) := by
  unfold execCellarGroupFailed
  first
    | (refine ansInv_inRange (by assumption) fun _ => Sound.inv ?_)
  repeat' (first
    | (intro _ _ _)
    | (with_reducible first
      | assumption
      | apply State.failGroup_keeps))

end Sys2Proof.Machine
end

