-- ==== Sys2Proof/Laws/KeepsHealth.lean ====
section
/-! SUPPORT. The operations of Machine/Health.lean keep a state sound. -/

namespace Sys2Proof.Machine

open State

variable {fuse : Otp}

theorem State.setMonitor_keeps (s : State) (n : Nat) (m : Nat) (x : Monitor) (h_s : Sound fuse s) :
    Sound fuse (State.setMonitor s n m x) := by
  unfold State.setMonitor
  repeat' (first
    | (intro _ _ _)
    | (with_reducible first
      | assumption
      | apply State.setClr_keeps))

theorem State.startMonitor_keeps (s : State) (n : Nat) (m : Nat) (h_s : Sound fuse s) :
    Sound fuse (State.startMonitor s n m) := by
  unfold State.startMonitor
  repeat' (first
    | (intro _ _ _)
    | (with_reducible first
      | assumption
      | apply State.wr_keeps
      | apply State.setMonitor_keeps))

theorem State.startMonitors_keeps (s : State) (n : Nat) (h_s : Sound fuse s) :
    Sound fuse (State.startMonitors s n) := by
  unfold State.startMonitors
  repeat' (first
    | (intro _ _ _)
    | (with_reducible first
      | assumption
      | apply State.startMonitor_keeps
      | apply sound_foldl))

theorem State.runMonitor_keeps (s : State) (n : Nat) (line : Option (List Byte)) (absent : Bool) (m : Nat)
    (h_s : Sound fuse s) :
    Sound fuse (State.runMonitor s n line absent m) := by
  unfold State.runMonitor
  repeat' (first
    | (intro _ _ _)
    | (with_reducible first
      | assumption
      | apply State.wr_keeps
      | apply State.setMonitor_keeps
      | apply State.post_keeps
      | apply State.bump_keeps)
    | dsimp only
    | split)

theorem State.healthWrites_keeps (s : State) (n : Nat) (h_s : Sound fuse s) :
    Sound fuse (State.healthWrites s n) := by
  unfold State.healthWrites
  repeat' (first
    | (intro _ _ _)
    | (with_reducible first
      | assumption
      | apply State.startMonitors_keeps
      | apply State.zeroKeys_keeps
      | apply State.startMonitor_keeps
      | apply State.setClr_keeps
      | apply sound_foldl)
    | dsimp only
    | simp only [sound_other]
    | split)

theorem State.healthLost_keeps (s : State) (n : Nat) (off : Nat) (h_s : Sound fuse s) :
    Sound fuse (State.healthLost s n off) := by
  unfold State.healthLost
  repeat' (first
    | (intro _ _ _)
    | (with_reducible first
      | assumption
      | apply State.post_keeps
      | apply State.postMemoryLost_keeps
      | apply State.loseLine_keeps))

theorem State.healthBoundary_keeps (s : State) (n : Nat) (lineOk : Bool) (cleared : Bool) (h_s : Sound fuse s) :
    Sound fuse (State.healthBoundary s n lineOk cleared) := by
  unfold State.healthBoundary
  repeat' (first
    | (intro _ _ _)
    | (with_reducible first
      | assumption
      | apply State.charge_keeps
      | apply State.wrBlob_keeps
      | apply State.healthLost_keeps
      | apply State.runMonitor_keeps
      | apply sound_foldl)
    | dsimp only
    | split)

end Sys2Proof.Machine
end

