-- ==== Sys2Proof/Laws/KeepsBoundary.lean ====
section
/-! SUPPORT. The operations of Machine/Boundary.lean keep a state sound. -/

namespace Sys2Proof.Machine

open State

variable {fuse : Otp}

theorem State.takeMasks_keeps (s : State) (n : Nat) (h_s : Sound fuse s) :
    Sound fuse (State.takeMasks s n) := by
  unfold State.takeMasks
  repeat' (first
    | (intro _ _ _)
    | (with_reducible first
      | assumption
      | apply State.chargeRange_keeps
      | apply State.setPress_keeps
      | apply State.emit_keeps
      | apply sound_foldl
      | (refine sound_snd (by assumption) ?_)
      | (refine sound_fst (by assumption) ?_))
    | dsimp only
    | simp only [sound_other]
    | split)

theorem State.fitGranules_keeps (s : State) (n : Nat) (p : Nat × Nat) (h_s : Sound fuse s) :
    Sound fuse (State.fitGranules s n p) := by
  unfold State.fitGranules
  repeat' (first
    | (intro _ _ _)
    | (with_reducible first
      | assumption
      | apply State.assignGranules_keeps
      | apply State.dropSide_keeps
      | apply State.dropScratch_keeps)
    | dsimp only
    | split)

theorem State.fitRegion_keeps (s : State) (n : Nat) (sub : Nat) (tier : Nat) (h_s : Sound fuse s) :
    Sound fuse (State.fitRegion s n sub tier) := by
  unfold State.fitRegion
  repeat' (first
    | (intro _ _ _)
    | (with_reducible first
      | assumption
      | apply State.setFrc_keeps
      | apply State.wipe_keeps)
    | dsimp only
    | split)

theorem State.quotaBoundary_keeps (s : State) (n : Nat) (h_s : Sound fuse s) :
    Sound fuse (State.quotaBoundary s n) := by
  unfold State.quotaBoundary
  repeat' (first
    | (intro _ _ _)
    | (with_reducible first
      | assumption
      | apply State.fitRegion_keeps
      | apply State.setClr_keeps
      | apply State.fitGranules_keeps
      | apply sound_foldl))

theorem State.modesBoundary_keeps (s : State) (n : Nat) (h_s : Sound fuse s) :
    Sound fuse (State.modesBoundary s n) := by
  unfold State.modesBoundary
  repeat' (first
    | (intro _ _ _)
    | (with_reducible first
      | assumption
      | apply State.enforce_keeps))

theorem State.computeWcst_keeps (s : State) (n : Nat) (h_s : Sound fuse s) :
    Sound fuse (State.computeWcst s n) := by
  unfold State.computeWcst
  repeat' (first
    | (intro _ _ _)
    | (with_reducible first
      | assumption
      | apply State.setClr_keeps
      | apply sound_foldl
      | apply sound_foldl_fst
      | apply sound_foldl_snd
      | (refine sound_snd (by assumption) ?_)
      | (refine sound_fst (by assumption) ?_))
    | dsimp only
    | simp only [sound_other]
    | split)

theorem State.checkPlan_keeps (s : State) (n : Nat) (h_s : Sound fuse s) :
    Sound fuse (State.checkPlan s n) := by
  unfold State.checkPlan
  repeat' (first
    | (intro _ _ _)
    | (with_reducible first
      | assumption
      | apply State.post_keeps
      | apply State.setClr_keeps
      | apply sound_foldl))

theorem State.checkPlans_keeps (s : State) (h_s : Sound fuse s) :
    Sound fuse (State.checkPlans s) := by
  unfold State.checkPlans
  repeat' (first
    | (intro _ _ _)
    | (with_reducible first
      | assumption
      | apply State.checkPlan_keeps
      | apply sound_foldl))

theorem State.releaseBatch_keeps (s : State) (n : Nat) (h_s : Sound fuse s) :
    Sound fuse (State.releaseBatch s n) := by
  unfold State.releaseBatch
  repeat' (first
    | (intro _ _ _)
    | (with_reducible first
      | assumption
      | apply State.freeCurds_keeps
      | apply State.setPress_keeps))

theorem State.closePages_keeps (s : State) (n : Nat) (h_s : Sound fuse s) :
    Sound fuse (State.closePages s n) := by
  unfold State.closePages
  repeat' (first
    | (intro _ _ _)
    | (with_reducible first
      | assumption
      | apply State.dropPages_keeps
      | apply State.freePages_keeps
      | apply State.mapPages_keeps
      | apply State.retirePages_keeps
      | apply State.setVat_keeps
      | apply sound_foldl))

theorem State.openPages_keeps (s0 : State) (n : Nat) (h_s0 : Sound fuse s0) :
    Sound fuse (State.openPages s0 n) := by
  unfold State.openPages
  repeat' (first
    | (intro _ _ _)
    | (with_reducible first
      | assumption
      | apply State.closePages_keeps
      | apply State.setVat_keeps
      | apply State.givePage_keeps
      | apply State.putTokens_keeps
      | apply State.setSeq_keeps
      | apply sound_foldl
      | apply sound_foldl_fst))

theorem State.startPress_keeps (s : State) (n : Nat) (h_s : Sound fuse s) :
    Sound fuse (State.startPress s n) := by
  unfold State.startPress
  repeat' (first
    | (intro _ _ _)
    | (with_reducible first
      | assumption
      | apply State.openPages_keeps
      | apply State.takeMasks_keeps
      | apply State.setClr_keeps
      | (refine sound_snd (by assumption) ?_)
      | (refine sound_fst (by assumption) ?_))
    | dsimp only
    | simp only [sound_other]
    | split)

theorem State.pressCounters_keeps (s : State) (n : Nat) (h_s : Sound fuse s) :
    Sound fuse (State.pressCounters s n) := by
  unfold State.pressCounters
  repeat' (first
    | (intro _ _ _)
    | (with_reducible first
      | assumption
      | apply State.bumpLive_keeps
      | apply State.wrBlob_keeps
      | apply State.post_keeps
      | apply sound_foldl
      | apply sound_foldl_fst
      | apply sound_foldl_snd)
    | dsimp only
    | split)

theorem State.endPress_keeps (s : State) (n : Nat) (h_s : Sound fuse s) :
    Sound fuse (State.endPress s n) := by
  unfold State.endPress
  repeat' (first
    | (intro _ _ _)
    | (with_reducible first
      | assumption
      | apply State.pressCounters_keeps
      | apply State.post_keeps
      | apply State.releaseBatch_keeps
      | apply State.publishPool_keeps
      | apply State.closePages_keeps
      | apply State.setClr_keeps
      | apply State.emit_keeps
      | apply State.ckptBoundary_keeps)
    | dsimp only
    | simp only [sound_other]
    | split)

theorem State.countersBoundary_keeps (s : State) (n : Nat) (h_s : Sound fuse s) :
    Sound fuse (State.countersBoundary s n) := by
  unfold State.countersBoundary
  repeat' (first
    | (intro _ _ _)
    | (with_reducible first
      | assumption
      | apply State.wr_keeps
      | apply State.publish_keeps
      | apply State.wrBlob_keeps
      | apply sound_foldl
      | apply sound_foldl_fst
      | apply sound_foldl_snd)
    | dsimp only
    | simp only [sound_other])

theorem State.withdrawBoundary_keeps (s : State) (n : Nat) (h_s : Sound fuse s) :
    Sound fuse (State.withdrawBoundary s n) := by
  unfold State.withdrawBoundary
  repeat' (first
    | (intro _ _ _)
    | (with_reducible first
      | assumption
      | apply State.setClearState_keeps
      | apply State.restFront_keeps
      | apply State.dropPlan_keeps
      | apply State.dropTiles_keeps
      | apply State.cancelAll_keeps
      | apply State.post_keeps
      | apply State.setClr_keeps)
    | dsimp only
    | simp only [sound_other]
    | split)

theorem State.boundary_keeps (s : State) (n : Nat) (ended : Bool) (lineOk : Bool) (h_s : Sound fuse s) :
    Sound fuse (State.boundary s n ended lineOk) := by
  unfold State.boundary
  repeat' (first
    | (intro _ _ _)
    | (with_reducible first
      | assumption
      | apply State.healthWrites_keeps
      | apply State.quotaBoundary_keeps
      | apply State.modesBoundary_keeps
      | apply State.healthBoundary_keeps
      | apply State.endPress_keeps
      | apply State.countersBoundary_keeps
      | apply State.withdrawBoundary_keeps
      | apply State.setClr_keeps
      | apply State.publish_keeps
      | apply State.computeWcst_keeps
      | apply State.startFills_keeps
      | apply State.zeroTables_keeps
      | apply State.checkPlan_keeps
      | apply State.startPress_keeps)
    | dsimp only
    | simp only [sound_other]
    | split)

theorem State.settle_keeps (s : State) (n : Nat) (h_s : Sound fuse s) :
    Sound fuse (State.settle s n) := by
  unfold State.settle
  repeat' (first
    | (intro _ _ _)
    | (with_reducible first
      | assumption
      | apply State.zeroTables_keeps
      | apply State.healthWrites_keeps
      | apply State.quotaBoundary_keeps
      | apply State.modesBoundary_keeps)
    | dsimp only
    | split)

theorem execQuotaScrubDone_keeps (n : Nat) (s : State) (h_s : Kept fuse s) :
    AnsKept fuse (execQuotaScrubDone n s) := by
  unfold execQuotaScrubDone
  first
    | (refine ansInv_inRange (by assumption) fun _ => Sound.inv ?_)
  repeat' (first
    | (intro _ _ _)
    | (with_reducible first
      | assumption
      | apply State.wipe_keeps
      | apply State.charge_keeps
      | apply State.settle_keeps
      | apply State.setClr_keeps
      | apply sound_foldl
      | apply sound_onlyIf))

theorem execStepBoundary_keeps (n : Nat) (ended : Bool) (lineOk : Bool) (s : State) (h_s : Kept fuse s) :
    AnsKept fuse (execStepBoundary n ended lineOk s) := by
  unfold execStepBoundary
  first
    | (refine ansInv_inRange (by assumption) fun _ => Sound.inv ?_)
  repeat' (first
    | (intro _ _ _)
    | (with_reducible first
      | assumption
      | apply State.boundary_keeps
      | apply sound_onlyIf))

theorem execPressBatchTake_keeps (n : Nat) (s : State) (h_s : Kept fuse s) :
    AnsKept fuse (execPressBatchTake n s) := by
  unfold execPressBatchTake
  first
    | (refine ansInv_inRange (by assumption) fun _ => Sound.inv ?_)
  repeat' (first
    | (intro _ _ _)
    | (with_reducible first
      | assumption
      | apply State.freeCurds_keeps
      | apply State.setPress_keeps
      | apply State.startPress_keeps
      | apply sound_onlyIf))

end Sys2Proof.Machine
end

