-- ==== Sys2Proof/Laws/KeepsTiers.lean ====
section
/-! SUPPORT. The operations of Machine/Tiers.lean keep a state sound. -/

namespace Sys2Proof.Machine

open State

variable {fuse : Otp}

theorem State.landCell_keeps (s : State) (n : Nat) (g : Nat) (c : Nat) (off : Nat) (b : List Byte) (h_s : Sound fuse s) :
    Sound fuse (State.landCell s n g c off b) := by
  unfold State.landCell
  repeat' (first
    | (intro _ _ _)
    | (with_reducible first
      | assumption
      | apply State.poke_keeps
      | apply State.putCell_keeps)
    | dsimp only
    | split)

theorem State.locLost_keeps (s : State) (n : Nat) (v : Nat) (bad : List Nat) (h_s : Sound fuse s) :
    Sound fuse (State.locLost s n v bad) := by
  unfold State.locLost
  repeat' (first
    | (intro _ _ _)
    | (with_reducible first
      | assumption
      | apply State.loseLine_keeps
      | apply State.postMemoryLost_keeps
      | apply State.bump_keeps
      | apply sound_foldl)
    | dsimp only
    | split)

theorem State.locRead_keeps (s : State) (n : Nat) (v : Nat) (len : Nat) (h_s : Sound fuse s) :
    Sound fuse (State.locRead s n v len).2 := by
  unfold State.locRead
  repeat' (first
    | (intro _ _ _)
    | (with_reducible first
      | assumption
      | apply State.readRegion_keeps)
    | dsimp only
    | split)

theorem State.locWrite_keeps (s : State) (n : Nat) (v : Nat) (data : List Byte) (h_s : Sound fuse s) :
    Sound fuse (State.locWrite s n v data) := by
  unfold State.locWrite
  repeat' (first
    | (intro _ _ _)
    | (with_reducible first
      | assumption
      | apply State.landCell_keeps
      | apply State.writeRegion_keeps)
    | dsimp only
    | split)

end Sys2Proof.Machine
end

