-- ==== Sys2Proof/Laws/KeepsTriggers.lean ====
section
/-! SUPPORT. The operations of Machine/Triggers.lean keep a state sound. -/

namespace Sys2Proof.Machine

open State

variable {fuse : Otp}

theorem State.takeTrig_keeps (s : State) (die : Nat) (n : Nat) (k : Nat) (h_s : Sound fuse s) {t : State}
    (e : State.takeTrig s die n k = some t) :
    Sound fuse t := by
  unfold State.takeTrig at e
  try dsimp only at e
  repeat' (first
    | (simp only [Option.some.injEq, reduceCtorEq] at e)
    | (simp only [Option.map_eq_some_iff, Prod.mk.injEq] at e)
    | (obtain ⟨rfl, _⟩ := e)
    | (obtain ⟨_, _, _, rfl⟩ := e)
    | (obtain ⟨_, _, rfl⟩ := e)
    | (subst e)
    | (split at e))
  repeat' (first
    | (intro _ _ _)
    | (with_reducible first
      | assumption
      | apply State.setDie_keeps))

theorem State.raiseTrig_keeps (s : State) (die : Nat) (n : Nat) (k : Nat) (amount : Nat) (h_s : Sound fuse s) :
    Sound fuse (State.raiseTrig s die n k amount) := by
  unfold State.raiseTrig
  repeat' (first
    | (intro _ _ _)
    | (with_reducible first
      | assumption
      | (refine State.takeTrig_keeps _ _ _ _ ?_ (by assumption))
      | apply State.setDie_keeps
      | (refine sound_snd (by assumption) ?_)
      | (refine sound_fst (by assumption) ?_))
    | dsimp only
    | simp only [sound_other]
    | split)

theorem State.launch_keeps (s : State) (n : Nat) (dst : Nat) (x : Carry) (h_s : Sound fuse s) :
    Sound fuse (State.launch s n dst x) := by
  unfold State.launch
  repeat' (first
    | (intro _ _ _)
    | (with_reducible first
      | assumption
      | apply State.carry_keeps)
    | dsimp only
    | simp only [sound_other])

theorem State.sendChunk_keeps (s : State) (die : Nat) (t : Trig) (h_s : Sound fuse s) :
    Sound fuse (State.sendChunk s die t) := by
  unfold State.sendChunk
  repeat' (first
    | (intro _ _ _)
    | (with_reducible first
      | assumption
      | apply State.locRead_keeps
      | apply State.locLost_keeps
      | apply State.launch_keeps
      | apply State.emit_keeps
      | apply State.setDie_keeps)
    | dsimp only
    | simp only [sound_other]
    | split)

theorem State.sendPut_keeps (s : State) (die : Nat) (t : Trig) (h_s : Sound fuse s) :
    Sound fuse (State.sendPut s die t) := by
  unfold State.sendPut
  repeat' (first
    | (intro _ _ _)
    | (with_reducible first
      | assumption
      | apply State.locRead_keeps
      | apply State.emit_keeps
      | apply State.locLost_keeps
      | apply State.locWrite_keeps
      | apply State.launch_keeps)
    | dsimp only
    | split)

theorem State.sendGet_keeps (s : State) (die : Nat) (t : Trig) (h_s : Sound fuse s) :
    Sound fuse (State.sendGet s die t) := by
  unfold State.sendGet
  repeat' (first
    | (intro _ _ _)
    | (with_reducible first
      | assumption
      | apply State.emit_keeps
      | apply State.locRead_keeps
      | apply State.locLost_keeps
      | apply State.locWrite_keeps
      | apply State.launch_keeps)
    | dsimp only
    | simp only [sound_other]
    | split)

theorem State.fireOp_keeps (s : State) (die : Nat) (t : Trig) (h_s : Sound fuse s) :
    Sound fuse (State.fireOp s die t) := by
  unfold State.fireOp
  repeat' (first
    | (intro _ _ _)
    | (with_reducible first
      | assumption
      | apply State.setColl_keeps
      | apply State.bump_keeps
      | apply State.sendChunk_keeps
      | apply State.sendPut_keeps
      | apply State.sendGet_keeps
      | apply State.raiseTrig_keeps
      | (refine sound_snd (by assumption) ?_)
      | (refine sound_fst (by assumption) ?_))
    | dsimp only
    | simp only [sound_other]
    | split)

theorem State.fireSlot_keeps (s : State) (die : Nat) (k : Nat) (h_s : Sound fuse s) :
    Sound fuse (State.fireSlot s die k) := by
  unfold State.fireSlot
  repeat' (first
    | (intro _ _ _)
    | (with_reducible first
      | assumption
      | apply State.setDie_keeps
      | apply State.post_keeps
      | apply State.fireOp_keeps
      | (refine sound_snd (by assumption) ?_)
      | (refine sound_fst (by assumption) ?_))
    | dsimp only
    | simp only [sound_other]
    | split)

theorem State.fireAll_keeps (die k : Nat) (s : State) (h : Sound fuse s) : Sound fuse (State.fireAll die k s) := by
  induction k generalizing s with
  | zero => exact h
  | succ k ih =>
    unfold State.fireAll
    split
    · exact h
    · exact ih _ (sound_foldl h fun _ _ hs => State.fireSlot_keeps _ _ _ hs)

theorem State.bumpTrig_keeps (s : State) (die : Nat) (n : Nat) (k : Nat) (amount : Nat) (h_s : Sound fuse s) :
    Sound fuse (State.bumpTrig s die n k amount) := by
  unfold State.bumpTrig
  repeat' (first
    | (intro _ _ _)
    | (with_reducible first
      | assumption
      | apply State.fireAll_keeps
      | apply State.raiseTrig_keeps))

theorem State.postTrig_keeps (s : State) (die : Nat) (n : Nat) (d : TrigDesc) (h_s : Sound fuse s) :
    Sound fuse (State.postTrig s die n d) := by
  unfold State.postTrig
  repeat' (first
    | (intro _ _ _)
    | (with_reducible first
      | assumption
      | apply State.emit_keeps
      | (refine State.takeTrig_keeps _ _ _ _ ?_ (by assumption))
      | apply State.fireAll_keeps
      | apply State.setDie_keeps
      | (refine sound_snd (by assumption) ?_)
      | (refine sound_fst (by assumption) ?_))
    | dsimp only
    | simp only [sound_other]
    | split)

theorem State.stopWaiting_keeps (s : State) (n : Nat) (why : Name) (h_s : Sound fuse s) :
    Sound fuse (State.stopWaiting s n why) := by
  unfold State.stopWaiting
  repeat' (first
    | (intro _ _ _)
    | (with_reducible first
      | assumption
      | apply State.stopPlan_keeps
      | apply sound_foldl
      | apply sound_foldl_fst
      | apply sound_foldl_snd
      | (refine sound_snd (by assumption) ?_)
      | (refine sound_fst (by assumption) ?_))
    | dsimp only
    | split)

theorem State.dropColl_keeps (s : State) (n : Nat) (coll : Nat) (h_s : Sound fuse s) :
    Sound fuse (State.dropColl s n coll) := by
  unfold State.dropColl
  repeat' (first
    | (intro _ _ _)
    | (with_reducible first
      | assumption
      | apply State.stopWaiting_keeps
      | apply State.bump_keeps
      | apply State.setColl_keeps)
    | dsimp only
    | simp only [sound_other]
    | split)

theorem State.suspect_keeps (s : State) (n : Nat) (modNo : Nat) (h_s : Sound fuse s) :
    Sound fuse (State.suspect s n modNo) := by
  unfold State.suspect
  repeat' (first
    | (intro _ _ _)
    | (with_reducible first
      | assumption
      | apply State.setRecov_keeps
      | apply sound_foldl))

theorem State.failColl_keeps (s : State) (n : Nat) (coll : Nat) (chunk : Nat) (opId : Nat) (peer : Nat) (status : Name)
    (h_s : Sound fuse s) :
    Sound fuse (State.failColl s n coll chunk opId peer status) := by
  unfold State.failColl
  repeat' (first
    | (intro _ _ _)
    | (with_reducible first
      | assumption
      | apply State.launch_keeps
      | apply State.emit_keeps
      | apply State.suspect_keeps
      | apply State.dropColl_keeps
      | apply State.post_keeps
      | apply sound_foldl
      | apply sound_foldl_fst
      | apply sound_foldl_snd
      | (refine sound_snd (by assumption) ?_)
      | (refine sound_fst (by assumption) ?_))
    | dsimp only
    | simp only [sound_other]
    | split)

theorem State.answerChunk_keeps (s : State) (die : Nat) (l : ChunkLine) (op : Nat) (h_s : Sound fuse s) :
    Sound fuse (State.answerChunk s die l op) := by
  unfold State.answerChunk
  repeat' (first
    | (intro _ _ _)
    | (with_reducible first
      | assumption
      | apply State.carry_keeps
      | apply State.emit_keeps))

theorem State.useChunk_keeps (s : State) (die : Nat) (l : ChunkLine) (h_s : Sound fuse s) :
    Sound fuse (State.useChunk s die l) := by
  unfold State.useChunk
  repeat' (first
    | (intro _ _ _)
    | (with_reducible first
      | assumption
      | apply State.bumpTrig_keeps
      | apply State.setColl_keeps
      | apply State.answerChunk_keeps
      | apply State.linkSignal_keeps)
    | dsimp only
    | simp only [sound_other]
    | split)

theorem State.takeChunk_keeps (s : State) (die : Nat) (l : ChunkLine) (dst : Nat) (data : List Byte) (asker : Nat)
    (h_s : Sound fuse s) :
    Sound fuse (State.takeChunk s die l dst data asker) := by
  unfold State.takeChunk
  repeat' (first
    | (intro _ _ _)
    | (with_reducible first
      | assumption
      | apply State.emit_keeps
      | apply State.postAll_keeps
      | apply State.answerChunk_keeps
      | apply State.bump_keeps
      | apply State.locWrite_keeps
      | apply State.charge_keeps
      | apply State.useChunk_keeps
      | (refine sound_snd (by assumption) ?_)
      | (refine sound_fst (by assumption) ?_))
    | dsimp only
    | simp only [sound_other]
    | split)

theorem State.landWaiting_keeps (s : State) (h_s : Sound fuse s) :
    Sound fuse (State.landWaiting s) := by
  unfold State.landWaiting
  repeat' (first
    | (intro _ _ _)
    | (with_reducible first
      | assumption
      | apply State.useChunk_keeps
      | apply sound_foldl)
    | dsimp only
    | simp only [sound_other]
    | split)

theorem State.releaseHold_keeps (s : State) (die : Nat) (t : Trig) (h_s : Sound fuse s) :
    Sound fuse (State.releaseHold s die t) := by
  unfold State.releaseHold
  repeat' (first
    | (intro _ _ _)
    | (with_reducible first
      | assumption
      | apply State.setDie_keeps))

theorem State.retryChunk_keeps (s : State) (die : Nat) (t : Trig) (undelivered : Bool) (h_s : Sound fuse s) :
    Sound fuse (State.retryChunk s die t undelivered) := by
  unfold State.retryChunk
  repeat' (first
    | (intro _ _ _)
    | (with_reducible first
      | assumption
      | apply State.bump_keeps
      | apply State.sendChunk_keeps
      | apply State.releaseHold_keeps
      | apply State.failColl_keeps)
    | dsimp only
    | simp only [sound_other]
    | split)

theorem execTrigPost_keeps (die : Nat) (n : Nat) (d : List Byte) (s : State) (h_s : Kept fuse s) :
    AnsKept fuse (execTrigPost die n d s) := by
  unfold execTrigPost
  first
    | (refine ansInv_inRange (by assumption) fun _ => Sound.inv ?_)
  repeat' (first
    | (intro _ _ _)
    | (with_reducible first
      | assumption
      | apply State.postTrig_keeps
      | apply sound_onlyIf))

theorem execChunkArrive_keeps (die : Nat) (l : ChunkLine) (dst : Nat) (data : List Byte) (s : State) (asker : Nat)
    (h_s : Kept fuse s) :
    AnsKept fuse (execChunkArrive die l dst data s asker) := by
  unfold execChunkArrive
  first
    | (refine ansInv_inRange (by assumption) fun _ => Sound.inv ?_)
  repeat' (first
    | (intro _ _ _)
    | (with_reducible first
      | assumption
      | apply State.takeChunk_keeps
      | apply State.landWaiting_keeps))

theorem execChunkAck_keeps (die : Nat) (l : ChunkLine) (s : State) (h_s : Kept fuse s) :
    AnsKept fuse (execChunkAck die l s) := by
  unfold execChunkAck
  first
    | (refine ansInv_inRange (by assumption) fun _ => Sound.inv ?_)
  repeat' (first
    | (intro _ _ _)
    | (with_reducible first
      | assumption
      | apply State.emit_keeps
      | apply State.bumpTrig_keeps
      | apply State.releaseHold_keeps
      | (refine sound_snd (by assumption) ?_)
      | (refine sound_fst (by assumption) ?_))
    | dsimp only
    | split)

theorem execChunkRetry_keeps (die : Nat) (l : ChunkLine) (undelivered : Bool) (s : State) (h_s : Kept fuse s) :
    AnsKept fuse (execChunkRetry die l undelivered s) := by
  unfold execChunkRetry
  first
    | (refine ansInv_inRange (by assumption) fun _ => Sound.inv ?_)
  repeat' (first
    | (intro _ _ _)
    | (with_reducible first
      | assumption
      | apply State.emit_keeps
      | apply State.retryChunk_keeps
      | (refine sound_snd (by assumption) ?_)
      | (refine sound_fst (by assumption) ?_))
    | dsimp only
    | split)

theorem execCollFail_keeps (n : Nat) (coll : Nat) (_status : Nat) (_opId : Nat) (s : State) (line : (Option ChunkLine))
    (h_s : Kept fuse s) :
    AnsKept fuse (execCollFail n coll _status _opId s line) := by
  unfold execCollFail
  first
    | (refine ansInv_inRange (by assumption) fun _ => Sound.inv ?_)
  repeat' (first
    | (intro _ _ _)
    | (with_reducible first
      | assumption
      | apply State.emit_keeps
      | apply State.dropColl_keeps
      | apply sound_onlyIf
      | (refine sound_snd (by assumption) ?_)
      | (refine sound_fst (by assumption) ?_))
    | dsimp only
    | split)

theorem execCollTimeout_keeps (n : Nat) (coll : Nat) (s : State) (missing : (Option Nat)) (h_s : Kept fuse s) :
    AnsKept fuse (execCollTimeout n coll s missing) := by
  unfold execCollTimeout
  first
    | (refine ansInv_inRange (by assumption) fun _ => Sound.inv ?_)
  repeat' (first
    | (intro _ _ _)
    | (with_reducible first
      | assumption
      | apply State.failColl_keeps
      | apply sound_onlyIf))

theorem execBlockCopied_keeps (ch : Nat) (s : State) (h_s : Kept fuse s) :
    AnsKept fuse (execBlockCopied ch s) := by
  unfold execBlockCopied
  first
    | (refine ansInv_inRange (by assumption) fun _ => Sound.inv ?_)
  repeat' (first
    | (intro _ _ _)
    | (with_reducible first
      | assumption
      | apply State.landWaiting_keeps
      | apply State.copyBlock_keeps
      | apply State.endSnapshot_keeps
      | (refine sound_snd (by assumption) ?_)
      | (refine sound_fst (by assumption) ?_))
    | dsimp only
    | split)

theorem execSnapshotFailed_keeps (ch : Nat) (cause : SnapCause) (s : State) (h_s : Kept fuse s) :
    AnsKept fuse (execSnapshotFailed ch cause s) := by
  unfold execSnapshotFailed
  first
    | (refine ansInv_inRange (by assumption) fun _ => Sound.inv ?_)
  repeat' (first
    | (intro _ _ _)
    | (with_reducible first
      | assumption
      | apply State.postMemoryLost_keeps
      | apply State.loseLine_keeps
      | apply State.landWaiting_keeps
      | apply State.failSnapshot_keeps
      | (refine sound_snd (by assumption) ?_)
      | (refine sound_fst (by assumption) ?_))
    | dsimp only
    | split)

end Sys2Proof.Machine
end

