-- ==== Sys2Proof/Laws/KeepsLinks.lean ====
section
/-! SUPPORT. The operations of Machine/Links.lean keep a state sound. -/

namespace Sys2Proof.Machine

open State

variable {fuse : Otp}

theorem State.setCable_keeps (s : State) (p : Nat) (c : Cable) (h_s : Sound fuse s) :
    Sound fuse (State.setCable s p c) := by
  unfold State.setCable
  repeat' (first
    | (intro _ _ _)
    | (with_reducible first
      | assumption
      | apply State.wrBlob_keeps
      | apply State.wr_keeps
      | apply State.setPort_keeps))

theorem State.freshPort_keeps (s : State) (p : Nat) (h_s : Sound fuse s) :
    Sound fuse (State.freshPort s p) := by
  unfold State.freshPort
  repeat' (first
    | (intro _ _ _)
    | (with_reducible first
      | assumption
      | apply State.setPort_keeps))

theorem State.spareIn_keeps (s : State) (p : Nat) (lane : Nat) (h_s : Sound fuse s) :
    Sound fuse (State.spareIn s p lane) := by
  unfold State.spareIn
  repeat' (first
    | (intro _ _ _)
    | (with_reducible first
      | assumption
      | apply State.setPort_keeps
      | apply State.wr_keeps
      | apply State.emit_keeps
      | apply State.postAll_keeps))

theorem State.spareLane_keeps (s : State) (p : Nat) (lane : Nat) (h_s : Sound fuse s) :
    Sound fuse (State.spareLane s p lane) := by
  unfold State.spareLane
  repeat' (first
    | (intro _ _ _)
    | (with_reducible first
      | assumption
      | apply State.emit_keeps
      | apply State.spareIn_keeps))

theorem State.sendIdent_keeps (s : State) (p : Nat) (h_s : Sound fuse s) :
    Sound fuse (State.sendIdent s p) := by
  unfold State.sendIdent
  repeat' (first
    | (intro _ _ _)
    | (with_reducible first
      | assumption
      | apply State.drbg_keeps
      | apply State.setPort_keeps
      | apply State.emit_keeps))

theorem State.bringUp_keeps (s : State) (p : Nat) (e : PortEnv) (h_s : Sound fuse s) :
    Sound fuse (State.bringUp s p e) := by
  unfold State.bringUp
  repeat' (first
    | (intro _ _ _)
    | (with_reducible first
      | assumption
      | apply State.wr_keeps
      | apply State.freshPort_keeps
      | apply State.setPort_keeps
      | apply State.setPortState_keeps
      | apply State.postAll_keeps
      | apply State.setCable_keeps
      | apply State.shiftQueue_keeps
      | apply State.spareIn_keeps
      | apply State.sendIdent_keeps
      | (refine sound_snd (by assumption) ?_)
      | (refine sound_fst (by assumption) ?_))
    | dsimp only
    | simp only [sound_other]
    | split)

theorem State.reportLost_keeps (s : State) (f : Flit) (h_s : Sound fuse s) :
    Sound fuse (State.reportLost s f) := by
  unfold State.reportLost
  repeat' (first
    | (intro _ _ _)
    | (with_reducible first
      | assumption
      | apply State.retryChunk_keeps
      | apply State.emit_keeps
      | (refine sound_snd (by assumption) ?_)
      | (refine sound_fst (by assumption) ?_))
    | dsimp only
    | split)

theorem State.retrain_keeps (s : State) (p : Nat) (h_s : Sound fuse s) :
    Sound fuse (State.retrain s p) := by
  unfold State.retrain
  repeat' (first
    | (intro _ _ _)
    | (with_reducible first
      | assumption
      | apply State.reportLost_keeps
      | apply State.setPortState_keeps
      | apply State.freshPort_keeps
      | apply State.bump_keeps
      | apply sound_foldl))

theorem State.portUp_keeps (s : State) (p : Nat) (h_s : Sound fuse s) :
    Sound fuse (State.portUp s p) := by
  unfold State.portUp
  repeat' (first
    | (intro _ _ _)
    | (with_reducible first
      | assumption
      | apply State.pumpPort_keeps
      | apply State.setPortState_keeps))

theorem State.acceptPeer_keeps (s : State) (p : Nat) (hash : List Byte) (h_s : Sound fuse s) :
    Sound fuse (State.acceptPeer s p hash) := by
  unfold State.acceptPeer
  repeat' (first
    | (intro _ _ _)
    | (with_reducible first
      | assumption
      | apply State.portUp_keeps
      | apply State.wrBlob_keeps
      | apply State.postAll_keeps)
    | dsimp only
    | split)

theorem State.expectPeer_keeps (s : State) (p : Nat) (h_s : Sound fuse s) :
    Sound fuse (State.expectPeer s p) := by
  unfold State.expectPeer
  repeat' (first
    | (intro _ _ _)
    | (with_reducible first
      | assumption
      | apply State.acceptPeer_keeps
      | (refine sound_snd (by assumption) ?_)
      | (refine sound_fst (by assumption) ?_))
    | dsimp only
    | split)

theorem State.judgePeer_keeps (s : State) (p : Nat) (x : Ident) (h_s : Sound fuse s) :
    Sound fuse (State.judgePeer s p x) := by
  unfold State.judgePeer
  repeat' (first
    | (intro _ _ _)
    | (with_reducible first
      | assumption
      | apply State.emit_keeps
      | apply State.wr_keeps
      | apply State.setPort_keeps
      | apply State.postAll_keeps
      | apply State.setPortState_keeps
      | apply State.acceptPeer_keeps)
    | dsimp only
    | simp only [sound_other]
    | split)

theorem State.laneFails_keeps (s : State) (p : Nat) (lane : Nat) (h_s : Sound fuse s) :
    Sound fuse (State.laneFails s p lane) := by
  unfold State.laneFails
  repeat' (first
    | (intro _ _ _)
    | (with_reducible first
      | assumption
      | apply State.shiftQueue_keeps
      | apply State.setPortState_keeps
      | apply State.retrain_keeps
      | apply State.spareLane_keeps
      | apply State.setPort_keeps)
    | dsimp only
    | simp only [sound_other]
    | split)

theorem State.takeLink_keeps (s : State) (p : Nat) (f : Flit) (h_s : Sound fuse s) :
    Sound fuse (State.takeLink s p f) := by
  unfold State.takeLink
  repeat' (first
    | (intro _ _ _)
    | (with_reducible first
      | assumption
      | apply State.setPort_keeps))

theorem State.returnCredits_keeps (s : State) (p : Nat) (h_s : Sound fuse s) :
    Sound fuse (State.returnCredits s p) := by
  unfold State.returnCredits
  repeat' (first
    | (intro _ _ _)
    | (with_reducible first
      | assumption
      | apply State.emit_keeps
      | apply State.setPort_keeps)
    | dsimp only
    | simp only [sound_other]
    | split)

theorem State.replayFrom_keeps (s : State) (p : Nat) (h_s : Sound fuse s) :
    Sound fuse (State.replayFrom s p) := by
  unfold State.replayFrom
  repeat' (first
    | (intro _ _ _)
    | (with_reducible first
      | assumption
      | apply State.retrain_keeps
      | apply State.bump_keeps
      | apply State.setPort_keeps
      | apply State.emit_keeps
      | apply sound_foldl)
    | dsimp only
    | simp only [sound_other]
    | split)

theorem State.leaveBuffer_keeps (s : State) (p : Nat) (vc : Nat) (h_s : Sound fuse s) :
    Sound fuse (State.leaveBuffer s p vc) := by
  unfold State.leaveBuffer
  repeat' (first
    | (intro _ _ _)
    | (with_reducible first
      | assumption
      | apply State.setPort_keeps)
    | dsimp only
    | simp only [sound_other]
    | split)

theorem State.enterBuffer_keeps (s : State) (p : Nat) (f : Flit) (h_s : Sound fuse s) :
    Sound fuse (State.enterBuffer s p f) := by
  unfold State.enterBuffer
  repeat' (first
    | (intro _ _ _)
    | (with_reducible first
      | assumption
      | apply State.setPort_keeps
      | apply State.emit_keeps
      | apply State.leaveBuffer_keeps
      | apply State.bump_keeps)
    | dsimp only
    | simp only [sound_other]
    | split)

theorem State.takeFlit_keeps (s : State) (p : Nat) (f : Flit) (h_s : Sound fuse s) :
    Sound fuse (State.takeFlit s p f) := by
  unfold State.takeFlit
  repeat' (first
    | (intro _ _ _)
    | (with_reducible first
      | assumption
      | apply State.emit_keeps
      | apply State.replayFrom_keeps
      | apply State.takeLink_keeps
      | apply State.pumpPort_keeps
      | apply State.returnCredits_keeps
      | apply State.enterBuffer_keeps
      | apply State.setPort_keeps)
    | dsimp only
    | simp only [sound_other]
    | split)

theorem State.forward_keeps (s : State) (p : Nat) (f : Flit) (h_s : Sound fuse s) :
    Sound fuse (State.forward s p f) := by
  unfold State.forward
  repeat' (first
    | (intro _ _ _)
    | (with_reducible first
      | assumption
      | apply State.leaveBuffer_keeps
      | apply State.bump_keeps
      | apply State.emit_keeps
      | apply State.returnCredits_keeps
      | apply State.sendFlit_keeps
      | (refine sound_snd (by assumption) ?_)
      | (refine sound_fst (by assumption) ?_))
    | dsimp only
    | simp only [sound_other]
    | split)

theorem State.sendDatagrams_keeps (s : State) (p : Nat) (sess : Nat) (transfer : Nat) (n : Nat) (off : Nat) (len : Nat)
    (h_s : Sound fuse s) :
    Sound fuse (State.sendDatagrams s p sess transfer n off len) := by
  unfold State.sendDatagrams
  repeat' (first
    | (intro _ _ _)
    | (with_reducible first
      | assumption
      | apply State.charge_keeps
      | apply State.chargeRange_keeps
      | apply sound_foldl
      | apply sound_foldl_fst
      | apply sound_foldl_snd
      | (refine sound_snd (by assumption) ?_)
      | (refine sound_fst (by assumption) ?_))
    | dsimp only
    | simp only [sound_other]
    | split)

theorem State.startDrain_keeps (s : State) (p : Nat) (n : Nat) (off : Nat) (gen : Nat) (d : Nat × Nat) (h_s : Sound fuse s) :
    Sound fuse (State.startDrain s p n off gen d) := by
  unfold State.startDrain
  repeat' (first
    | (intro _ _ _)
    | (with_reducible first
      | assumption
      | apply State.emit_keeps
      | apply State.tellMembers_keeps
      | apply State.setCkpt_keeps
      | apply State.sendDatagrams_keeps)
    | dsimp only
    | simp only [sound_other]
    | split)

theorem State.takeDatagram_keeps (s : State) (p : Nat) (d : GwDatagram) (h_s : Sound fuse s) :
    Sound fuse (State.takeDatagram s p d) := by
  unfold State.takeDatagram
  repeat' (first
    | (intro _ _ _)
    | (with_reducible first
      | assumption
      | apply State.bump_keeps
      | apply State.startDrain_keeps
      | apply State.writeRegion_keeps
      | apply State.charge_keeps
      | apply sound_foldl
      | (refine sound_snd (by assumption) ?_)
      | (refine sound_fst (by assumption) ?_))
    | dsimp only
    | simp only [sound_other]
    | split)

theorem execPortBringup_keeps (p : Nat) (env : PortEnv) (s : State) (h_s : Kept fuse s) :
    AnsKept fuse (execPortBringup p env s) := by
  unfold execPortBringup
  first
    | (refine ansInv_inRange (by assumption) fun _ => Sound.inv ?_)
  repeat' (first
    | (intro _ _ _)
    | (with_reducible first
      | assumption
      | apply State.bringUp_keeps))

theorem execIdentReceive_keeps (p : Nat) (id : Ident) (s : State) (h_s : Kept fuse s) :
    AnsKept fuse (execIdentReceive p id s) := by
  unfold execIdentReceive
  first
    | (refine ansInv_inRange (by assumption) fun _ => Sound.inv ?_)
  repeat' (first
    | (intro _ _ _)
    | (with_reducible first
      | assumption
      | apply State.judgePeer_keeps
      | apply sound_onlyIf))

theorem execLaneFailure_keeps (p : Nat) (lane : Nat) (s : State) (h_s : Kept fuse s) :
    AnsKept fuse (execLaneFailure p lane s) := by
  unfold execLaneFailure
  first
    | (refine ansInv_inRange (by assumption) fun _ => Sound.inv ?_)
  repeat' (first
    | (intro _ _ _)
    | (with_reducible first
      | assumption
      | apply State.laneFails_keeps
      | apply sound_onlyIf))

theorem execFlitReceive_keeps (p : Nat) (f : Flit) (s : State) (h_s : Kept fuse s) :
    AnsKept fuse (execFlitReceive p f s) := by
  unfold execFlitReceive
  first
    | (refine ansInv_inRange (by assumption) fun _ => Sound.inv ?_)
  repeat' (first
    | (intro _ _ _)
    | (with_reducible first
      | assumption
      | apply State.bump_keeps
      | apply State.takeFlit_keeps
      | apply sound_onlyIf))

theorem execTransitForward_keeps (p : Nat) (f : Flit) (s : State) (h_s : Kept fuse s) :
    AnsKept fuse (execTransitForward p f s) := by
  unfold execTransitForward
  first
    | (refine ansInv_inRange (by assumption) fun _ => Sound.inv ?_)
  repeat' (first
    | (intro _ _ _)
    | (with_reducible first
      | assumption
      | apply State.forward_keeps
      | apply sound_onlyIf))

theorem execGwDatagram_keeps (port : Nat) (d : GwDatagram) (s : State) (h_s : Kept fuse s) :
    AnsKept fuse (execGwDatagram port d s) := by
  unfold execGwDatagram
  first
    | (refine ansInv_inRange (by assumption) fun _ => Sound.inv ?_)
  repeat' (first
    | (intro _ _ _)
    | (with_reducible first
      | assumption
      | apply State.takeDatagram_keeps
      | apply sound_onlyIf))

theorem execGatewayFrame_keeps (p : Nat) (f : GwFrame) (s : State) (h_s : Kept fuse s) :
    AnsKept fuse (execGatewayFrame p f s) := by
  unfold execGatewayFrame
  first
    | (refine ansInv_inRange (by assumption) fun _ => Sound.inv ?_)
  repeat' (first
    | (intro _ _ _)
    | (with_reducible first
      | assumption
      | apply State.emit_keeps
      | apply State.bump_keeps
      | apply sound_onlyIf
      | (refine sound_snd (by assumption) ?_)
      | (refine sound_fst (by assumption) ?_))
    | dsimp only
    | split)

end Sys2Proof.Machine
end

