-- ==== Sys2Proof/Laws/KeepsRecover.lean ====
section
/-! SUPPORT. The operations of Machine/Recover.lean keep a state sound. -/

namespace Sys2Proof.Machine

open State

variable {fuse : Otp}

theorem State.setRecState_keeps (s : State) (n : Nat) (v : Nat) (h_s : Sound fuse s) :
    Sound fuse (State.setRecState s n v) := by
  unfold State.setRecState
  repeat' (first
    | (intro _ _ _)
    | (with_reducible first
      | assumption
      | apply State.wr_keeps))

theorem State.setEpoch_keeps (s : State) (n : Nat) (v : Nat) (h_s : Sound fuse s) :
    Sound fuse (State.setEpoch s n v) := by
  unfold State.setEpoch
  repeat' (first
    | (intro _ _ _)
    | (with_reducible first
      | assumption
      | apply State.wr_keeps))

theorem State.publishMembers_keeps (s : State) (n : Nat) (h_s : Sound fuse s) :
    Sound fuse (State.publishMembers s n) := by
  unfold State.publishMembers
  repeat' (first
    | (intro _ _ _)
    | (with_reducible first
      | assumption
      | apply State.wrBlob_keeps
      | apply State.wr_keeps
      | (refine sound_snd (by assumption) ?_)
      | (refine sound_fst (by assumption) ?_))
    | dsimp only
    | split)

theorem State.joinJob_keeps (s : State) (n : Nat) (p : PlanClearing) (h_s : Sound fuse s) :
    Sound fuse (State.joinJob s n p) := by
  unfold State.joinJob
  repeat' (first
    | (intro _ _ _)
    | (with_reducible first
      | assumption
      | apply State.setRecov_keeps
      | apply State.publishMembers_keeps
      | apply State.wr_keeps))

theorem State.restoreNone_keeps (s : State) (n : Nat) (h_s : Sound fuse s) :
    Sound fuse (State.restoreNone s n) := by
  unfold State.restoreNone
  repeat' (first
    | (intro _ _ _)
    | (with_reducible first
      | assumption
      | apply State.post_keeps
      | apply State.setRecState_keeps))

theorem State.restoring_keeps (g : GenCheck) (back : Option GenCheck) (s : State) (m : Nat) (h_s : Sound fuse s) :
    Sound fuse (State.restoring g back s m) := by
  unfold State.restoring
  repeat' (first
    | (intro _ _ _)
    | (with_reducible first
      | assumption
      | apply State.setRecov_keeps
      | apply State.setCkptState_keeps
      | apply State.setRecState_keeps))

theorem State.beginRestore_keeps (s : State) (n : Nat) (g : GenCheck) (back : Option GenCheck) (h_s : Sound fuse s) :
    Sound fuse (State.beginRestore s n g back) := by
  unfold State.beginRestore
  repeat' (first
    | (intro _ _ _)
    | (with_reducible first
      | assumption
      | apply State.cancelAll_keeps
      | apply State.failOpen_keeps
      | apply State.restoring_keeps
      | apply State.tellMembers_keeps
      | apply sound_foldl)
    | dsimp only
    | split)

theorem State.restoreCmd_keeps (s : State) (n : Nat) (older : Bool) (a : GenCheck) (b : GenCheck) (h_s : Sound fuse s) :
    Sound fuse (State.restoreCmd s n older a b) := by
  unfold State.restoreCmd
  repeat' (first
    | (intro _ _ _)
    | (with_reducible first
      | assumption
      | apply State.post_keeps
      | apply State.restoreNone_keeps
      | apply State.beginRestore_keeps
      | (refine sound_snd (by assumption) ?_)
      | (refine sound_fst (by assumption) ?_))
    | dsimp only
    | split)

theorem State.chargeLoad_keeps (s : State) (n : Nat) (gen : Nat) (bytes : Nat) (h_s : Sound fuse s) :
    Sound fuse (State.chargeLoad s n gen bytes) := by
  unfold State.chargeLoad
  repeat' (first
    | (intro _ _ _)
    | (with_reducible first
      | assumption
      | apply State.charge_keeps
      | (refine sound_snd (by assumption) ?_)
      | (refine sound_fst (by assumption) ?_))
    | dsimp only
    | split)

theorem State.loadBlocks_keeps (s : State) (n : Nat) (gen : Nat) (blocks : List (Nat × List Byte)) (h_s : Sound fuse s) :
    Sound fuse (State.loadBlocks s n gen blocks) := by
  unfold State.loadBlocks
  repeat' (first
    | (intro _ _ _)
    | (with_reducible first
      | assumption
      | apply State.charge_keeps
      | apply State.chargeLoad_keeps
      | apply State.pokeRegion_keeps
      | apply sound_foldl
      | apply sound_foldl_fst
      | apply sound_foldl_snd
      | (refine sound_snd (by assumption) ?_)
      | (refine sound_fst (by assumption) ?_))
    | dsimp only
    | split)

theorem State.regenerate_keeps (s : State) (n : Nat) (x : ShardLoad) (h_s : Sound fuse s) :
    Sound fuse (State.regenerate s n x) := by
  unfold State.regenerate
  repeat' (first
    | (intro _ _ _)
    | (with_reducible first
      | assumption
      | apply State.chargeRange_keeps
      | apply State.pokeRegion_keeps
      | apply sound_foldl
      | apply sound_foldl_fst
      | apply sound_foldl_snd)
    | dsimp only
    | split)

theorem State.loadShards_keeps (s : State) (n : Nat) (gen : Nat) (l : List ShardLoad) (h_s : Sound fuse s) :
    Sound fuse (State.loadShards s n gen l) := by
  unfold State.loadShards
  repeat' (first
    | (intro _ _ _)
    | (with_reducible first
      | assumption
      | apply State.regenerate_keeps
      | apply State.loadBlocks_keeps
      | apply sound_foldl))

theorem State.setStep_keeps (s0 : State) (n : Nat) (g : GenCheck) (h_s0 : Sound fuse s0) :
    Sound fuse (State.setStep s0 n g) := by
  unfold State.setStep
  repeat' (first
    | (intro _ _ _)
    | (with_reducible first
      | assumption
      | apply State.dropTiles_keeps
      | apply State.closePages_keeps
      | apply State.setClr_keeps
      | apply State.wr_keeps
      | apply sound_foldl))

theorem State.fallBack_keeps (s : State) (n : Nat) (shard : Nat) (h_s : Sound fuse s) :
    Sound fuse (State.fallBack s n shard) := by
  unfold State.fallBack
  repeat' (first
    | (intro _ _ _)
    | (with_reducible first
      | assumption
      | apply State.post_keeps
      | apply State.beginRestore_keeps
      | apply State.restoreNone_keeps
      | (refine sound_snd (by assumption) ?_)
      | (refine sound_fst (by assumption) ?_))
    | dsimp only
    | split)

theorem State.restored_keeps (g : GenCheck) (s : State) (m : Nat) (h_s : Sound fuse s) :
    Sound fuse (State.restored g s m) := by
  unfold State.restored
  repeat' (first
    | (intro _ _ _)
    | (with_reducible first
      | assumption
      | apply State.startMonitors_keeps
      | apply State.setStep_keeps
      | apply State.setRecov_keeps
      | apply State.setEpoch_keeps
      | apply State.setCkpt_keeps
      | apply State.wr_keeps
      | apply State.setCkptState_keeps
      | apply State.setRecState_keeps
      | apply State.publishMembers_keeps
      | apply State.bump_keeps))

theorem State.restoreVats_keeps (s : State) (n : Nat) (g : GenCheck) (h_s : Sound fuse s) :
    Sound fuse (State.restoreVats s n g) := by
  unfold State.restoreVats
  repeat' (first
    | (intro _ _ _)
    | (with_reducible first
      | assumption
      | apply State.startLoad_keeps
      | apply State.startMonitors_keeps
      | apply State.setClr_keeps
      | apply sound_foldl))

theorem State.endRestore_keeps (s : State) (n : Nat) (g : GenCheck) (l : List ShardLoad) (h_s : Sound fuse s) :
    Sound fuse (State.endRestore s n g l) := by
  unfold State.endRestore
  repeat' (first
    | (intro _ _ _)
    | (with_reducible first
      | assumption
      | apply State.loadShards_keeps
      | apply State.restoreVats_keeps
      | apply State.restored_keeps
      | apply sound_foldl))

theorem State.fillPosition_keeps (s : State) (n : Nat) (usable : List Nat) (modNo : Nat)
    (h_s : Sound fuse s) {t : State} (e : State.fillPosition s n usable modNo = some t) :
    Sound fuse t := by
  unfold State.fillPosition at e
  try dsimp only at e
  repeat' (first
    | (simp only [Option.some.injEq, reduceCtorEq] at e)
    | (simp only [Option.map_eq_some_iff, Prod.mk.injEq] at e)
    | (obtain ⟨rfl, _⟩ := e)
    | (obtain ⟨_, _, _, rfl⟩ := e)
    | (obtain ⟨_, _, rfl⟩ := e)
    | (subst e)
    | (split at e))
  repeat' (first
    | (intro _ _ _)
    | (with_reducible first
      | assumption
      | apply State.setRecov_keeps))

theorem State.fillAll_keeps (s : State) (n : Nat) (usable l : List Nat) (h : Sound fuse s) :
    Sound fuse (State.fillAll s n usable l).1 := by
  induction l generalizing s with
  | nil => exact h
  | cons m l ih =>
    unfold State.fillAll
    split
    · exact ih _ h
    · split
      · rename_i e
        exact ih _ (State.fillPosition_keeps _ _ _ _ h e)
      · exact ih _ h

theorem State.beginRejoin_keeps (s : State) (n : Nat) (usable : List Nat) (h_s : Sound fuse s) :
    Sound fuse (State.beginRejoin s n usable) := by
  unfold State.beginRejoin
  repeat' (first
    | (intro _ _ _)
    | (with_reducible first
      | assumption
      | apply State.fillAll_keeps
      | apply State.post_keeps
      | apply State.setRecov_keeps)
    | dsimp only
    | simp only [sound_other]
    | split)

theorem State.restoreInstead_keeps (s : State) (n : Nat) (env : LeadEnv) (h_s : Sound fuse s) :
    Sound fuse (State.restoreInstead s n env) := by
  unfold State.restoreInstead
  repeat' (first
    | (intro _ _ _)
    | (with_reducible first
      | assumption
      | apply State.fillAll_keeps
      | apply State.post_keeps
      | apply State.setRecState_keeps
      | apply State.restoreCmd_keeps
      | apply State.setRecov_keeps)
    | dsimp only
    | simp only [sound_other]
    | split)

theorem State.freeColls_keeps (s : State) (n : Nat) (h_s : Sound fuse s) :
    Sound fuse (State.freeColls s n) := by
  unfold State.freeColls
  repeat' (first
    | (intro _ _ _)
    | (with_reducible first
      | assumption
      | apply State.setColl_keeps
      | apply sound_foldl
      | apply sound_foldl_fst
      | apply sound_foldl_snd)
    | dsimp only
    | simp only [sound_other])

theorem State.takeShrink_keeps (s : State) (n : Nat) (drop : List Nat) (failed : (List Nat)) (h_s : Sound fuse s) :
    Sound fuse (State.takeShrink s n drop failed) := by
  unfold State.takeShrink
  repeat' (first
    | (intro _ _ _)
    | (with_reducible first
      | assumption
      | apply State.setCkpt_keeps
      | apply State.setRecov_keeps
      | apply State.freeColls_keeps
      | apply State.setRecState_keeps
      | apply State.cancelAll_keeps
      | apply State.failOpen_keeps
      | apply State.emit_keeps
      | apply State.publishMembers_keeps
      | apply sound_foldl
      | (refine sound_snd (by assumption) ?_)
      | (refine sound_fst (by assumption) ?_))
    | dsimp only
    | simp only [sound_other]
    | split)

theorem State.noteFault_keeps (s : State) (n : Nat) (h_s : Sound fuse s) :
    Sound fuse (State.noteFault s n) := by
  unfold State.noteFault
  repeat' (first
    | (intro _ _ _)
    | (with_reducible first
      | assumption
      | apply State.wr_keeps))

theorem State.leadShrink_keeps (s : State) (n : Nat) (nested : Nat) (env : LeadEnv) (h_s : Sound fuse s) :
    Sound fuse (State.leadShrink s n nested env) := by
  unfold State.leadShrink
  repeat' (first
    | (intro _ _ _)
    | (with_reducible first
      | assumption
      | apply State.wr_keeps
      | apply State.restoreInstead_keeps
      | apply State.setEpoch_keeps
      | apply State.takeShrink_keeps
      | apply State.tellMembers_keeps)
    | dsimp only
    | split)

theorem State.leadFailure_keeps (s : State) (n : Nat) (modNo : Nat) (env : LeadEnv) (h_s : Sound fuse s) :
    Sound fuse (State.leadFailure s n modNo env) := by
  unfold State.leadFailure
  repeat' (first
    | (intro _ _ _)
    | (with_reducible first
      | assumption
      | apply State.setRecov_keeps
      | apply State.beginRejoin_keeps
      | apply State.leadShrink_keeps
      | apply State.restoreInstead_keeps
      | apply State.wr_keeps)
    | dsimp only
    | simp only [sound_other]
    | split)

theorem State.findFailure_keeps (s : State) (n : Nat) (modNo : Nat) (env : LeadEnv) (h_s : Sound fuse s) :
    Sound fuse (State.findFailure s n modNo env) := by
  unfold State.findFailure
  repeat' (first
    | (intro _ _ _)
    | (with_reducible first
      | assumption
      | apply State.leadFailure_keeps
      | apply State.wr_keeps
      | apply State.emit_keeps
      | (refine sound_snd (by assumption) ?_)
      | (refine sound_fst (by assumption) ?_))
    | dsimp only
    | split)

theorem State.noteTotals_keeps (s : State) (n : Nat) (reports : List (Nat × Bool)) (h_s : Sound fuse s) :
    Sound fuse (State.noteTotals s n reports) := by
  unfold State.noteTotals
  repeat' (first
    | (intro _ _ _)
    | (with_reducible first
      | assumption
      | apply State.setRecov_keeps)
    | dsimp only
    | simp only [sound_other]
    | split)

theorem State.resumeJob_keeps (s0 : State) (n : Nat) (held : Bool) (usable : List Nat) (sent : List (Nat × List Byte))
    (h_s0 : Sound fuse s0) :
    Sound fuse (State.resumeJob s0 n held usable sent) := by
  unfold State.resumeJob
  repeat' (first
    | (intro _ _ _)
    | (with_reducible first
      | assumption
      | apply State.setClr_keeps
      | apply State.dropTiles_keeps
      | apply State.openPages_keeps
      | apply State.chargeRange_keeps
      | apply State.pokeRegion_keeps
      | apply State.setRecov_keeps
      | apply State.bump_keeps
      | apply State.wr_keeps
      | apply State.setRecState_keeps
      | apply State.tellMembers_keeps
      | apply State.beginRejoin_keeps
      | apply State.post_keeps
      | apply State.startPress_keeps
      | apply sound_foldl
      | apply sound_foldl_fst
      | apply sound_foldl_snd)
    | dsimp only
    | simp only [sound_other]
    | split)

theorem State.reportFindings_keeps (s : State) (n : Nat) (h_s : Sound fuse s) :
    Sound fuse (State.reportFindings s n) := by
  unfold State.reportFindings
  repeat' (first
    | (intro _ _ _)
    | (with_reducible first
      | assumption
      | apply State.emit_keeps
      | apply State.setRecov_keeps
      | apply sound_foldl))

theorem State.sweepFindings_keeps (s : State) (h_s : Sound fuse s) :
    Sound fuse (State.sweepFindings s) := by
  unfold State.sweepFindings
  repeat' (first
    | (intro _ _ _)
    | (with_reducible first
      | assumption
      | apply State.reportFindings_keeps
      | apply sound_foldl))

theorem State.judgeTimes_keeps (s : State) (n : Nat) (reports : List (Nat × Nat)) (env : LeadEnv) (h_s : Sound fuse s) :
    Sound fuse (State.judgeTimes s n reports env) := by
  unfold State.judgeTimes
  repeat' (first
    | (intro _ _ _)
    | (with_reducible first
      | assumption
      | apply State.setRecov_keeps
      | apply State.findFailure_keeps
      | apply State.post_keeps
      | apply sound_foldl))

theorem State.bringForward_keeps (s : State) (n : Nat) (h_s : Sound fuse s) :
    Sound fuse (State.bringForward s n) := by
  unfold State.bringForward
  repeat' (first
    | (intro _ _ _)
    | (with_reducible first
      | assumption
      | apply State.setRecState_keeps
      | apply State.setCkpt_keeps))

theorem State.modReady_keeps (s : State) (n : Nat) (modNo : Nat) (h_s : Sound fuse s) :
    Sound fuse (State.modReady s n modNo) := by
  unfold State.modReady
  repeat' (first
    | (intro _ _ _)
    | (with_reducible first
      | assumption
      | apply State.setRecov_keeps
      | apply State.tellMembers_keeps
      | apply State.bringForward_keeps)
    | dsimp only
    | simp only [sound_other]
    | split)

theorem State.takeRejoin_keeps (s : State) (n : Nat) (l : List Member) (h_s : Sound fuse s) :
    Sound fuse (State.takeRejoin s n l) := by
  unfold State.takeRejoin
  repeat' (first
    | (intro _ _ _)
    | (with_reducible first
      | assumption
      | apply State.bringForward_keeps
      | apply State.setRecov_keeps))

theorem State.endRejoin_keeps (s : State) (n : Nat) (l : List ShardLoad) (h_s : Sound fuse s) :
    Sound fuse (State.endRejoin s n l) := by
  unfold State.endRejoin
  repeat' (first
    | (intro _ _ _)
    | (with_reducible first
      | assumption
      | apply State.setStep_keeps
      | apply State.loadShards_keeps
      | apply State.setRecov_keeps
      | apply State.bump_keeps
      | apply State.setRecState_keeps
      | apply State.setEpoch_keeps
      | apply State.tellMembers_keeps
      | apply State.startPress_keeps
      | apply State.post_keeps
      | apply State.publishMembers_keeps
      | (refine sound_snd (by assumption) ?_)
      | (refine sound_fst (by assumption) ?_))
    | dsimp only
    | simp only [sound_other]
    | split)

theorem execRestoreDone_keeps (n : Nat) (blocks : List (Nat × List Byte)) (s : State) (bad : (Option Nat))
    (told : (Option GenCheck)) (more : (List ShardLoad)) (epoch : (Option Nat)) (h_s : Kept fuse s) :
    AnsKept fuse (execRestoreDone n blocks s bad told more epoch) := by
  unfold execRestoreDone
  first
    | (refine ansInv_inRange (by assumption) fun _ => Sound.inv ?_)
  repeat' (first
    | (intro _ _ _)
    | (with_reducible first
      | assumption
      | apply State.fallBack_keeps
      | apply State.emit_keeps
      | apply State.endRestore_keeps
      | apply State.beginRestore_keeps
      | apply State.restoreVats_keeps
      | apply State.cancelAll_keeps
      | apply sound_foldl
      | apply sound_onlyIf
      | (refine sound_snd (by assumption) ?_)
      | (refine sound_fst (by assumption) ?_))
    | dsimp only
    | simp only [sound_other]
    | split)

theorem execHeartbeat_keeps (n : Nat) (src : Nat) (epoch : Nat) (s : State) (h_s : Kept fuse s) :
    AnsKept fuse (execHeartbeat n src epoch s) := by
  unfold execHeartbeat
  first
    | (refine ansInv_inRange (by assumption) fun _ => Sound.inv ?_)
  repeat' (first
    | (intro _ _ _)
    | (with_reducible first
      | assumption
      | apply State.tellMembers_keeps
      | apply State.setRecov_keeps
      | apply sound_onlyIf)
    | dsimp only
    | simp only [sound_other]
    | split)

theorem execHeartbeatMiss_keeps (n : Nat) (modNo : Nat) (s : State) (env : LeadEnv) (h_s : Kept fuse s) :
    AnsKept fuse (execHeartbeatMiss n modNo s env) := by
  unfold execHeartbeatMiss
  first
    | (refine ansInv_inRange (by assumption) fun _ => Sound.inv ?_)
  repeat' (first
    | (intro _ _ _)
    | (with_reducible first
      | assumption
      | apply State.setRecov_keeps
      | apply State.findFailure_keeps
      | apply sound_onlyIf)
    | dsimp only
    | simp only [sound_other]
    | split)

theorem execFailureReport_keeps (n : Nat) (modNo : Nat) (epoch : Nat) (s : State) (env : LeadEnv) (h_s : Kept fuse s) :
    AnsKept fuse (execFailureReport n modNo epoch s env) := by
  unfold execFailureReport
  first
    | (refine ansInv_inRange (by assumption) fun _ => Sound.inv ?_)
  repeat' (first
    | (intro _ _ _)
    | (with_reducible first
      | assumption
      | apply State.findFailure_keeps
      | apply sound_onlyIf))

theorem execShrink_keeps (n : Nat) (epoch : Nat) (drop : List Nat) (s : State) (failed : (List Nat)) (h_s : Kept fuse s) :
    AnsKept fuse (execShrink n epoch drop s failed) := by
  unfold execShrink
  first
    | (refine ansInv_inRange (by assumption) fun _ => Sound.inv ?_)
  repeat' (first
    | (intro _ _ _)
    | (with_reducible first
      | assumption
      | apply State.takeShrink_keeps
      | apply State.noteFault_keeps
      | apply State.setEpoch_keeps
      | apply sound_onlyIf))

theorem execShrinkResume_keeps (n : Nat) (s : State) (totals : Bool) (usable : (List Nat))
    (reports : (List (Nat × Bool))) (sent : (List (Nat × List Byte))) (epoch : (Option Nat)) (h_s : Kept fuse s) :
    AnsKept fuse (execShrinkResume n s totals usable reports sent epoch) := by
  unfold execShrinkResume
  first
    | (refine ansInv_inRange (by assumption) fun _ => Sound.inv ?_)
  repeat' (first
    | (intro _ _ _)
    | (with_reducible first
      | assumption
      | apply State.noteTotals_keeps
      | apply State.resumeJob_keeps
      | apply sound_onlyIf))

theorem execShrinkLimit_keeps (n : Nat) (s : State) (env : LeadEnv) (h_s : Kept fuse s) :
    AnsKept fuse (execShrinkLimit n s env) := by
  unfold execShrinkLimit
  first
    | (refine ansInv_inRange (by assumption) fun _ => Sound.inv ?_)
  repeat' (first
    | (intro _ _ _)
    | (with_reducible first
      | assumption
      | apply State.restoreInstead_keeps
      | apply sound_onlyIf))

theorem execStepTimeReport_keeps (n : Nat) (reports : List (Nat × Nat)) (s : State) (env : LeadEnv)
    (epoch : (Option Nat)) (h_s : Kept fuse s) :
    AnsKept fuse (execStepTimeReport n reports s env epoch) := by
  unfold execStepTimeReport
  first
    | (refine ansInv_inRange (by assumption) fun _ => Sound.inv ?_)
  repeat' (first
    | (intro _ _ _)
    | (with_reducible first
      | assumption
      | apply State.judgeTimes_keeps
      | apply sound_onlyIf))

theorem execRejoinReady_keeps (n : Nat) (modNo : Nat) (s : State) (rejoin : (List Member)) (epoch : (Option Nat))
    (h_s : Kept fuse s) :
    AnsKept fuse (execRejoinReady n modNo s rejoin epoch) := by
  unfold execRejoinReady
  first
    | (refine ansInv_inRange (by assumption) fun _ => Sound.inv ?_)
  repeat' (first
    | (intro _ _ _)
    | (with_reducible first
      | assumption
      | apply State.modReady_keeps
      | apply State.takeRejoin_keeps
      | apply sound_onlyIf)
    | dsimp only
    | split)

theorem execRejoinDone_keeps (n : Nat) (blocks : List (Nat × List Byte)) (s : State) (more : (List ShardLoad))
    (epoch : (Option Nat)) (h_s : Kept fuse s) :
    AnsKept fuse (execRejoinDone n blocks s more epoch) := by
  unfold execRejoinDone
  first
    | (refine ansInv_inRange (by assumption) fun _ => Sound.inv ?_)
  repeat' (first
    | (intro _ _ _)
    | (with_reducible first
      | assumption
      | apply State.endRejoin_keeps
      | apply sound_onlyIf))

end Sys2Proof.Machine
end

