-- ==== Sys2Proof/Laws/KeepsOperands.lean ====
section
/-! SUPPORT. The operations of Machine/Operands.lean keep a state sound. -/

namespace Sys2Proof.Machine

open State

variable {fuse : Otp}

theorem State.setScr_keeps (s : State) (g : Nat) (c : Nat) (off : Nat) (b : List Byte) (h_s : Sound fuse s) :
    Sound fuse (State.setScr s g c off b) := by
  unfold State.setScr
  repeat' (first
    | (intro _ _ _)
    | (with_reducible first
      | assumption
      | apply State.putCell_keeps))

end Sys2Proof.Machine
end

