-- ==== Sys2Proof/Laws/KeepsFlags.lean ====
section
/-! SUPPORT. The operations of Machine/Flags.lean keep a state sound. -/

namespace Sys2Proof.Machine

open State

variable {fuse : Otp}

theorem State.countValue_keeps (s : State) (n : Nat) (cls : Nat) (v : Nat × ConvClass) (h_s : Sound fuse s) :
    Sound fuse (State.countValue s n cls v) := by
  unfold State.countValue
  repeat' (first
    | (intro _ _ _)
    | (with_reducible first
      | assumption
      | apply State.bumpLive_keeps
      | apply sound_foldl))

theorem State.countTally_keeps (s : State) (n : Nat) (cls : Nat) (t : Tally) (h_s : Sound fuse s) :
    Sound fuse (State.countTally s n cls t) := by
  unfold State.countTally
  repeat' (first
    | (intro _ _ _)
    | (with_reducible first
      | assumption
      | apply State.countValue_keeps
      | apply State.bumpLive_keeps
      | apply sound_foldl)
    | dsimp only
    | split)

end Sys2Proof.Machine
end

