-- ==== Sys2Proof/Laws/KeepsWarden.lean ====
section
/-! SUPPORT. The operations of Machine/Warden.lean keep a state sound. -/

namespace Sys2Proof.Machine

open State

variable {fuse : Otp}

theorem State.collect_keeps (s : State) (g : Nat) (c : Nat) (h_s : Sound fuse s) :
    Sound fuse (State.collect s g c) := by
  unfold State.collect
  repeat' (first
    | (intro _ _ _)
    | (with_reducible first
      | assumption
      | apply State.setCell_keeps))

theorem State.loadTile_keeps (s : State) (g : Nat) (c : Nat) (d : TileDesc) (h_s : Sound fuse s) :
    Sound fuse (State.loadTile s g c d) := by
  unfold State.loadTile
  repeat' (first
    | (intro _ _ _)
    | (with_reducible first
      | assumption
      | apply State.refresh_keeps
      | apply State.setCell_keeps
      | apply State.stopPlan_keeps
      | (refine sound_snd (by assumption) ?_)
      | (refine sound_fst (by assumption) ?_))
    | dsimp only
    | simp only [sound_other]
    | split)

theorem State.fillSlots_keeps (g c : Nat) (l : List TileDesc) (back : List Nat) (s : State) (h : Sound fuse s) :
    Sound fuse (State.fillSlots g c l back s).2 := by
  induction l generalizing s back with
  | nil => exact h
  | cons d l ih =>
    unfold State.fillSlots
    dsimp only
    split
    · exact ih _ _ h
    · split
      · exact ih _ _ (State.loadTile_keeps _ _ _ _ h)
      · exact ih _ _ h

theorem State.fill_keeps (s : State) (g : Nat) (c : Nat) (h_s : Sound fuse s) :
    Sound fuse (State.fill s g c) := by
  unfold State.fill
  repeat' (first
    | (intro _ _ _)
    | (with_reducible first
      | assumption
      | apply State.collect_keeps
      | apply State.fillSlots_keeps
      | apply State.setCell_keeps))

theorem State.takeRole_keeps (s : State) (g : Nat) (c : Nat) (d : TileDesc) (h_s : Sound fuse s) :
    Sound fuse (State.takeRole s g c d) := by
  unfold State.takeRole
  repeat' (first
    | (intro _ _ _)
    | (with_reducible first
      | assumption
      | apply State.chargeBeats_keeps
      | apply State.setCell_keeps)
    | dsimp only
    | simp only [sound_other]
    | split)

theorem State.pick_keeps (s : State) (g : Nat) (c : Nat) (cls : TileClass) (h_s : Sound fuse s) :
    Sound fuse (State.pick s g c cls) := by
  unfold State.pick
  repeat' (first
    | (intro _ _ _)
    | (with_reducible first
      | assumption
      | apply State.setCell_keeps
      | apply State.takeRole_keeps
      | (refine sound_snd (by assumption) ?_)
      | (refine sound_fst (by assumption) ?_))
    | dsimp only
    | simp only [sound_other]
    | split)

theorem execTileLoad_keeps (g : Nat) (c : Nat) (desc : List Byte) (s : State) (h_s : Kept fuse s) :
    AnsKept fuse (execTileLoad g c desc s) := by
  unfold execTileLoad
  first
    | (refine ansInv_inRange (by assumption) fun _ => Sound.inv ?_)
  repeat' (first
    | (intro _ _ _)
    | (with_reducible first
      | assumption
      | apply State.fill_keeps
      | apply State.setCell_keeps
      | apply sound_onlyIf))

theorem execTilePick_keeps (g : Nat) (c : Nat) (cls : TileClass) (s : State) (h_s : Kept fuse s) :
    AnsKept fuse (execTilePick g c cls s) := by
  unfold execTilePick
  first
    | (refine ansInv_inRange (by assumption) fun _ => Sound.inv ?_)
  repeat' (first
    | (intro _ _ _)
    | (with_reducible first
      | assumption
      | apply State.fill_keeps
      | apply State.pick_keeps
      | apply sound_onlyIf))

end Sys2Proof.Machine
end

