-- ==== Sys2Proof/Laws/KeepsRun.lean ====
section
/-! SUPPORT. The operations of Machine/Run.lean keep a state sound. -/

namespace Sys2Proof.Machine

open State

variable {fuse : Otp}

theorem State.writeScr_keeps (s : State) (g : Nat) (c : Nat) (l : List (Nat × List Byte)) (h_s : Sound fuse s) :
    Sound fuse (State.writeScr s g c l) := by
  unfold State.writeScr
  repeat' (first
    | (intro _ _ _)
    | (with_reducible first
      | assumption
      | apply State.setScr_keeps
      | apply sound_foldl))

theorem State.writeSide_keeps (s : State) (g : Nat) (c : Nat) (l : List (Nat × List Byte)) (h_s : Sound fuse s) :
    Sound fuse (State.writeSide s g c l) := by
  unfold State.writeSide
  repeat' (first
    | (intro _ _ _)
    | (with_reducible first
      | assumption
      | apply State.putCell_keeps
      | apply sound_foldl))

theorem State.clearArray_keeps (s : State) (g : Nat) (c : Nat) (cls : TileClass) (h_s : Sound fuse s) :
    Sound fuse (State.clearArray s g c cls) := by
  unfold State.clearArray
  repeat' (first
    | (intro _ _ _)
    | (with_reducible first
      | assumption
      | apply State.setCell_keeps)
    | dsimp only
    | simp only [sound_other]
    | split)

theorem State.proveSpare_keeps (s : State) (g : Nat) (c : Nat) (h_s : Sound fuse s) :
    Sound fuse (State.proveSpare s g c) := by
  unfold State.proveSpare
  repeat' (first
    | (intro _ _ _)
    | (with_reducible first
      | assumption
      | apply State.setGrove_keeps)
    | dsimp only
    | simp only [sound_other]
    | split)

theorem State.finish_keeps (s : State) (g : Nat) (c : Nat) (cls : TileClass) (h_s : Sound fuse s) :
    Sound fuse (State.finish s g c cls) := by
  unfold State.finish
  repeat' (first
    | (intro _ _ _)
    | (with_reducible first
      | assumption
      | apply State.clearArray_keeps
      | apply State.setCell_keeps
      | apply State.signalCtr_keeps
      | apply sound_foldl))

theorem State.abandon_keeps (s : State) (g : Nat) (c : Nat) (cls : TileClass) (h_s : Sound fuse s) :
    Sound fuse (State.abandon s g c cls) := by
  unfold State.abandon
  repeat' (first
    | (intro _ _ _)
    | (with_reducible first
      | assumption
      | apply State.clearArray_keeps
      | apply State.setCell_keeps))

theorem State.settleRun_keeps (s : State) (g : Nat) (c : Nat) (d : TileDesc) (r : RunRes) (times : Nat) (h_s : Sound fuse s) :
    Sound fuse (State.settleRun s g c d r times) := by
  unfold State.settleRun
  repeat' (first
    | (intro _ _ _)
    | (with_reducible first
      | assumption
      | apply State.countTally_keeps
      | apply State.bumpLive_keeps
      | apply State.setPress_keeps
      | apply State.setRecov_keeps
      | apply State.finish_keeps
      | apply State.chargeBeats_keeps
      | apply State.bumpTrig_keeps
      | apply sound_foldl
      | apply sound_foldl_fst
      | apply sound_foldl_snd
      | (refine sound_snd (by assumption) ?_)
      | (refine sound_fst (by assumption) ?_))
    | dsimp only
    | simp only [sound_other]
    | split)

theorem State.complete_keeps (s : State) (g : Nat) (c : Nat) (d : TileDesc) (r : RunRes) (times : Nat) (h_s : Sound fuse s) :
    Sound fuse (State.complete s g c d r times) := by
  unfold State.complete
  repeat' (first
    | (intro _ _ _)
    | (with_reducible first
      | assumption
      | apply State.proveSpare_keeps
      | apply State.settleRun_keeps
      | apply State.writeSide_keeps
      | apply State.writeScr_keeps))

theorem State.loseWord_keeps (s : State) (g : Nat) (c : Nat) (d : TileDesc) (cls : TileClass) (off : Nat) (h_s : Sound fuse s) :
    Sound fuse (State.loseWord s g c d cls off) := by
  unfold State.loseWord
  repeat' (first
    | (intro _ _ _)
    | (with_reducible first
      | assumption
      | apply State.wordLost_keeps
      | apply State.abandon_keeps))

theorem State.runTable_keeps (s : State) (g : Nat) (c : Nat) (d : TileDesc) (r : RunRes) (w : Nat) (twice : Bool)
    (h_s : Sound fuse s) :
    Sound fuse (State.runTable s g c d r w twice) := by
  unfold State.runTable
  repeat' (first
    | (intro _ _ _)
    | (with_reducible first
      | assumption
      | apply State.bump_keeps
      | apply State.tableError_keeps
      | apply State.chargeBeats_keeps
      | apply State.complete_keeps)
    | dsimp only
    | split)

theorem State.runCompute_keeps (s0 : State) (g : Nat) (c : Nat) (k : Nat) (o : RunEnv)
    (f : State → List TileDesc → RunRes) (h_s0 : Sound fuse s0) :
    Sound fuse (State.runCompute s0 g c k o f) := by
  unfold State.runCompute
  repeat' (first
    | (intro _ _ _)
    | (with_reducible first
      | assumption
      | apply State.arbitrateAll_keeps
      | apply State.loseWord_keeps
      | apply State.chargeBeats_keeps
      | apply State.stopPlan_keeps
      | apply State.abandon_keeps
      | apply State.complete_keeps
      | apply State.bump_keeps
      | apply State.retireCell_keeps
      | apply State.writeScr_keeps
      | apply State.runTable_keeps
      | (refine sound_snd (by assumption) ?_)
      | (refine sound_fst (by assumption) ?_))
    | dsimp only
    | simp only [sound_other]
    | split)

end Sys2Proof.Machine
end

