-- ==== Sys2Proof/Laws/KeepsMatrix.lean ====
section
/-! SUPPORT. The operations of Machine/Matrix.lean keep a state sound. -/

namespace Sys2Proof.Machine

open State

variable {fuse : Otp}

theorem execMatmul_keeps (g : Nat) (c : Nat) (o : RunEnv) (s : State) (h_s : Kept fuse s) :
    AnsKept fuse (execMatmul g c o s) := by
  unfold execMatmul
  first
    | (refine ansInv_inRange (by assumption) fun _ => Sound.inv ?_)
  repeat' (first
    | (intro _ _ _)
    | (with_reducible first
      | assumption
      | apply State.runCompute_keeps))

theorem execSplitSum_keeps (g : Nat) (c : Nat) (o : RunEnv) (s : State) (h_s : Kept fuse s) :
    AnsKept fuse (execSplitSum g c o s) := by
  unfold execSplitSum
  first
    | (refine ansInv_inRange (by assumption) fun _ => Sound.inv ?_)
  repeat' (first
    | (intro _ _ _)
    | (with_reducible first
      | assumption
      | apply State.runCompute_keeps))

theorem execConvert_keeps (g : Nat) (c : Nat) (o : RunEnv) (s : State) (h_s : Kept fuse s) :
    AnsKept fuse (execConvert g c o s) := by
  unfold execConvert
  first
    | (refine ansInv_inRange (by assumption) fun _ => Sound.inv ?_)
  repeat' (first
    | (intro _ _ _)
    | (with_reducible first
      | assumption
      | apply State.runCompute_keeps))

end Sys2Proof.Machine
end

