-- ==== Sys2Proof/Laws/KeepsRow.lean ====
section
/-! SUPPORT. The operations of Machine/Row.lean keep a state sound. -/

namespace Sys2Proof.Machine

open State

variable {fuse : Otp}

theorem execRmsNorm_keeps (g : Nat) (c : Nat) (o : RunEnv) (s : State) (h_s : Kept fuse s) :
    AnsKept fuse (execRmsNorm g c o s) := by
  unfold execRmsNorm
  first
    | (refine ansInv_inRange (by assumption) fun _ => Sound.inv ?_)
  repeat' (first
    | (intro _ _ _)
    | (with_reducible first
      | assumption
      | apply State.runCompute_keeps))

theorem execRmsNormBwd_keeps (g : Nat) (c : Nat) (o : RunEnv) (s : State) (h_s : Kept fuse s) :
    AnsKept fuse (execRmsNormBwd g c o s) := by
  unfold execRmsNormBwd
  first
    | (refine ansInv_inRange (by assumption) fun _ => Sound.inv ?_)
  repeat' (first
    | (intro _ _ _)
    | (with_reducible first
      | assumption
      | apply State.runCompute_keeps))

theorem execSoftmax_keeps (g : Nat) (c : Nat) (o : RunEnv) (s : State) (h_s : Kept fuse s) :
    AnsKept fuse (execSoftmax g c o s) := by
  unfold execSoftmax
  first
    | (refine ansInv_inRange (by assumption) fun _ => Sound.inv ?_)
  repeat' (first
    | (intro _ _ _)
    | (with_reducible first
      | assumption
      | apply State.runCompute_keeps))

theorem execSoftmaxBwd_keeps (g : Nat) (c : Nat) (o : RunEnv) (s : State) (h_s : Kept fuse s) :
    AnsKept fuse (execSoftmaxBwd g c o s) := by
  unfold execSoftmaxBwd
  first
    | (refine ansInv_inRange (by assumption) fun _ => Sound.inv ?_)
  repeat' (first
    | (intro _ _ _)
    | (with_reducible first
      | assumption
      | apply State.runCompute_keeps))

theorem execRowVariance_keeps (g : Nat) (c : Nat) (o : RunEnv) (s : State) (h_s : Kept fuse s) :
    AnsKept fuse (execRowVariance g c o s) := by
  unfold execRowVariance
  first
    | (refine ansInv_inRange (by assumption) fun _ => Sound.inv ?_)
  repeat' (first
    | (intro _ _ _)
    | (with_reducible first
      | assumption
      | apply State.runCompute_keeps))

theorem execFuncApply_keeps (g : Nat) (c : Nat) (o : RunEnv) (s : State) (h_s : Kept fuse s) :
    AnsKept fuse (execFuncApply g c o s) := by
  unfold execFuncApply
  first
    | (refine ansInv_inRange (by assumption) fun _ => Sound.inv ?_)
  repeat' (first
    | (intro _ _ _)
    | (with_reducible first
      | assumption
      | apply State.runCompute_keeps))

theorem execMask_keeps (g : Nat) (c : Nat) (o : RunEnv) (s : State) (h_s : Kept fuse s) :
    AnsKept fuse (execMask g c o s) := by
  unfold execMask
  first
    | (refine ansInv_inRange (by assumption) fun _ => Sound.inv ?_)
  repeat' (first
    | (intro _ _ _)
    | (with_reducible first
      | assumption
      | apply State.runCompute_keeps))

theorem execRawWords_keeps (g : Nat) (c : Nat) (o : RunEnv) (s : State) (h_s : Kept fuse s) :
    AnsKept fuse (execRawWords g c o s) := by
  unfold execRawWords
  first
    | (refine ansInv_inRange (by assumption) fun _ => Sound.inv ?_)
  repeat' (first
    | (intro _ _ _)
    | (with_reducible first
      | assumption
      | apply State.runCompute_keeps))

end Sys2Proof.Machine
end

