-- ==== Sys2Proof/Laws/KeepsPress.lean ====
section
/-! SUPPORT. The operations of Machine/Press.lean keep a state sound. -/

namespace Sys2Proof.Machine

open State

variable {fuse : Otp}

theorem execUpdateP1_keeps (g : Nat) (c : Nat) (o : RunEnv) (s : State) (h_s : Kept fuse s) :
    AnsKept fuse (execUpdateP1 g c o s) := by
  unfold execUpdateP1
  first
    | (refine ansInv_inRange (by assumption) fun _ => Sound.inv ?_)
  repeat' (first
    | (intro _ _ _)
    | (with_reducible first
      | assumption
      | apply State.runCompute_keeps))

theorem execUpdateP2_keeps (g : Nat) (c : Nat) (o : RunEnv) (s : State) (h_s : Kept fuse s) :
    AnsKept fuse (execUpdateP2 g c o s) := by
  unfold execUpdateP2
  first
    | (refine ansInv_inRange (by assumption) fun _ => Sound.inv ?_)
  repeat' (first
    | (intro _ _ _)
    | (with_reducible first
      | assumption
      | apply State.runCompute_keeps))

theorem execUpdateScalars_keeps (g : Nat) (c : Nat) (o : RunEnv) (s : State) (h_s : Kept fuse s) :
    AnsKept fuse (execUpdateScalars g c o s) := by
  unfold execUpdateScalars
  first
    | (refine ansInv_inRange (by assumption) fun _ => Sound.inv ?_)
  repeat' (first
    | (intro _ _ _)
    | (with_reducible first
      | assumption
      | apply State.runCompute_keeps))

theorem execPrecondPrep_keeps (g : Nat) (c : Nat) (o : RunEnv) (s : State) (h_s : Kept fuse s) :
    AnsKept fuse (execPrecondPrep g c o s) := by
  unfold execPrecondPrep
  first
    | (refine ansInv_inRange (by assumption) fun _ => Sound.inv ?_)
  repeat' (first
    | (intro _ _ _)
    | (with_reducible first
      | assumption
      | apply State.runCompute_keeps))

theorem execPrecondChol_keeps (g : Nat) (c : Nat) (o : RunEnv) (s : State) (h_s : Kept fuse s) :
    AnsKept fuse (execPrecondChol g c o s) := by
  unfold execPrecondChol
  first
    | (refine ansInv_inRange (by assumption) fun _ => Sound.inv ?_)
  repeat' (first
    | (intro _ _ _)
    | (with_reducible first
      | assumption
      | apply State.runCompute_keeps))

theorem execPrecondMm_keeps (g : Nat) (c : Nat) (o : RunEnv) (s : State) (h_s : Kept fuse s) :
    AnsKept fuse (execPrecondMm g c o s) := by
  unfold execPrecondMm
  first
    | (refine ansInv_inRange (by assumption) fun _ => Sound.inv ?_)
  repeat' (first
    | (intro _ _ _)
    | (with_reducible first
      | assumption
      | apply State.runCompute_keeps))

theorem execPrecondAffine_keeps (g : Nat) (c : Nat) (o : RunEnv) (s : State) (h_s : Kept fuse s) :
    AnsKept fuse (execPrecondAffine g c o s) := by
  unfold execPrecondAffine
  first
    | (refine ansInv_inRange (by assumption) fun _ => Sound.inv ?_)
  repeat' (first
    | (intro _ _ _)
    | (with_reducible first
      | assumption
      | apply State.runCompute_keeps))

end Sys2Proof.Machine
end

