-- ==== Sys2Proof/Laws/KeepsMoves.lean ====
section
/-! SUPPORT. The operations of Machine/Moves.lean keep a state sound. -/

namespace Sys2Proof.Machine

open State

variable {fuse : Otp}

theorem State.mapMove_keeps (s : State) (g : Nat) (c : Nat) (f : TileSlot → TileSlot) (h_s : Sound fuse s) :
    Sound fuse (State.mapMove s g c f) := by
  unfold State.mapMove
  repeat' (first
    | (intro _ _ _)
    | (with_reducible first
      | assumption
      | apply State.setCell_keeps))

theorem State.chargeMove_keeps (s : State) (g : Nat) (c : Nat) (d : TileDesc) (h_s : Sound fuse s) :
    Sound fuse (State.chargeMove s g c d) := by
  unfold State.chargeMove
  repeat' (first
    | (intro _ _ _)
    | (with_reducible first
      | assumption
      | apply State.chargeBeats_keeps))

theorem State.moveDone_keeps (s : State) (g : Nat) (c : Nat) (d : TileDesc) (h_s : Sound fuse s) :
    Sound fuse (State.moveDone s g c d) := by
  unfold State.moveDone
  repeat' (first
    | (intro _ _ _)
    | (with_reducible first
      | assumption
      | apply State.finish_keeps
      | apply State.chargeMove_keeps))

theorem State.againOrStop_keeps (s : State) (g : Nat) (c : Nat) (t : TileSlot) (why : Name) (h_s : Sound fuse s) :
    Sound fuse (State.againOrStop s g c t why) := by
  unfold State.againOrStop
  repeat' (first
    | (intro _ _ _)
    | (with_reducible first
      | assumption
      | apply State.mapMove_keeps
      | apply State.chargeMove_keeps
      | apply State.stopPlan_keeps
      | apply State.abandon_keeps)
    | dsimp only
    | simp only [sound_other]
    | split)

theorem State.runMove_keeps (s0 : State) (g c k : Nat) (o : RunEnv) (lines : TileDesc → Nat)
    (place : TileDesc → Nat → Option Place) (done : State → TileSlot → State)
    (lost : State → TileSlot → List Nat → Bool → State) (h0 : Sound fuse s0)
    (hd : ∀ s t, Sound fuse s → Sound fuse (done s t)) (hl : ∀ s t l b, Sound fuse s → Sound fuse (lost s t l b)) :
    Sound fuse (State.runMove s0 g c k o lines place done lost) := by
  unfold State.runMove
  split
  · exact h0
  extract_lets t d s at_
  have h : Sound fuse s := State.mapMove_keeps _ _ _ _ (State.arbitrateAll_keeps _ _ h0)
  split
  · exact h0
  split
  · split
    · exact State.loseWord_keeps _ _ _ _ _ _ (State.chargeMove_keeps _ _ _ _ h)
    · exact h
  · extract_lets more known bad
    split
    · exact hl _ _ _ _ (sound_foldl h fun _ _ hs => State.loseLine_keeps _ _ hs)
    split
    · exact hd _ _ h
    · exact State.bump_keeps _ _ _ _ (hd _ _ h)
    · split
      · exact hd _ _ (State.correctLine_keeps _ _ h)
      · exact h
    · split
      · split
        · exact hl _ _ _ _ h
        · exact h
      · exact h
    · exact h

theorem State.memoryLost_keeps (s : State) (g : Nat) (c : Nat) (d : TileDesc) (m : Nat) (off : Nat) (len : Nat)
    (bad : List Nat) (h_s : Sound fuse s) :
    Sound fuse (State.memoryLost s g c d m off len bad) := by
  unfold State.memoryLost
  repeat' (first
    | (intro _ _ _)
    | (with_reducible first
      | assumption
      | apply State.chargeRange_keeps
      | apply State.abandon_keeps
      | apply State.chargeMove_keeps
      | apply State.stopPlan_keeps
      | apply State.postMemoryLost_keeps))

theorem State.countMissed_keeps (s : State) (m : Nat) (k : Nat) (late : Bool) (h_s : Sound fuse s) :
    Sound fuse (State.countMissed s m k late) := by
  unfold State.countMissed
  repeat' (first
    | (intro _ _ _)
    | (with_reducible first
      | assumption
      | apply State.bump_keeps))

theorem State.landMove_keeps (s : State) (g : Nat) (c : Nat) (d : TileDesc) (bad : List Nat) (h_s : Sound fuse s) :
    Sound fuse (State.landMove s g c d bad) := by
  unfold State.landMove
  repeat' (first
    | (intro _ _ _)
    | (with_reducible first
      | assumption
      | apply State.chargeRange_keeps
      | apply State.putCell_keeps))

theorem State.askRemote_keeps (s : State) (g : Nat) (c : Nat) (d : TileDesc) (dst : Nat) (clearing : Nat) (tier : Nat)
    (off : Nat) (count : Nat) (landing : Nat) (h_s : Sound fuse s) :
    Sound fuse (State.askRemote s g c d dst clearing tier off count landing) := by
  unfold State.askRemote
  repeat' (first
    | (intro _ _ _)
    | (with_reducible first
      | assumption
      | apply State.carryRead_keeps)
    | dsimp only
    | simp only [sound_other])

theorem State.park_keeps (s : State) (g : Nat) (c : Nat) (d : TileDesc) (h_s : Sound fuse s) :
    Sound fuse (State.park s g c d) := by
  unfold State.park
  repeat' (first
    | (intro _ _ _)
    | (with_reducible first
      | assumption
      | apply State.bumpLive_keeps
      | apply State.mapMove_keeps
      | apply State.chargeMove_keeps))

theorem State.moveInto_keeps (s : State) (g : Nat) (c : Nat) (d : TileDesc) (m : Nat) (tier : Nat) (off : Nat)
    (data : List Byte) (h_s : Sound fuse s) :
    Sound fuse (State.moveInto s g c d m tier off data) := by
  unfold State.moveInto
  repeat' (first
    | (intro _ _ _)
    | (with_reducible first
      | assumption
      | apply State.stallWrite_keeps
      | apply State.moveDone_keeps
      | apply State.writeRegion_keeps)
    | dsimp only
    | split)

theorem State.sendLines_keeps (s : State) (g : Nat) (c : Nat) (d : TileDesc) (dst : Nat) (m : Nat) (tier : Nat)
    (off : Nat) (data : List Byte) (h_s : Sound fuse s) :
    Sound fuse (State.sendLines s g c d dst m tier off data) := by
  unfold State.sendLines
  repeat' (first
    | (intro _ _ _)
    | (with_reducible first
      | assumption
      | apply State.carryLines_keeps)
    | dsimp only
    | simp only [sound_other])

theorem State.cellarMiss_keeps (s : State) (g : Nat) (c : Nat) (t : TileSlot) (late : Bool) (h_s : Sound fuse s) :
    Sound fuse (State.cellarMiss s g c t late) := by
  unfold State.cellarMiss
  repeat' (first
    | (intro _ _ _)
    | (with_reducible first
      | assumption
      | apply State.moveDone_keeps
      | apply State.faultSeq_keeps
      | apply State.againOrStop_keeps
      | (refine sound_snd (by assumption) ?_)
      | (refine sound_fst (by assumption) ?_))
    | dsimp only
    | split)

theorem State.moveOk_keeps (g : Nat) (c : Nat) (s : State) (t : TileSlot) (h_s : Sound fuse s) :
    Sound fuse (State.moveOk g c s t) := by
  unfold State.moveOk
  repeat' (first
    | (intro _ _ _)
    | (with_reducible first
      | assumption
      | apply State.stopPlan_keeps
      | apply State.abandon_keeps
      | apply State.chargeMove_keeps
      | apply State.cellarMiss_keeps
      | apply State.writeRegion_keeps
      | apply State.countMissed_keeps
      | apply State.moveInto_keeps
      | apply State.moveDone_keeps
      | apply State.sendLines_keeps
      | apply State.landMove_keeps
      | apply State.park_keeps
      | apply State.askRemote_keeps)
    | dsimp only
    | split)

theorem State.moveLost_keeps (g : Nat) (c : Nat) (s : State) (t : TileSlot) (bad : List Nat) (late : Bool)
    (h_s : Sound fuse s) :
    Sound fuse (State.moveLost g c s t bad late) := by
  unfold State.moveLost
  repeat' (first
    | (intro _ _ _)
    | (with_reducible first
      | assumption
      | apply State.memoryLost_keeps
      | apply State.cellarMiss_keeps
      | apply State.landMove_keeps
      | apply State.countMissed_keeps)
    | dsimp only
    | split)

theorem State.feedPages_keeps (s : State) (g : Nat) (c : Nat) (l : List PageDesc) (h_s : Sound fuse s) :
    Sound fuse (State.feedPages s g c l) := by
  unfold State.feedPages
  repeat' (first
    | (intro _ _ _)
    | (with_reducible first
      | assumption
      | apply State.setCell_keeps))

theorem State.landKeys_keeps (s : State) (g : Nat) (c : Nat) (d : TileDesc) (keys : List Byte) (h_s : Sound fuse s) :
    Sound fuse (State.landKeys s g c d keys) := by
  unfold State.landKeys
  repeat' (first
    | (intro _ _ _)
    | (with_reducible first
      | assumption
      | apply State.putCell_keeps
      | apply sound_foldl))

theorem State.landValues_keeps (s : State) (g : Nat) (c : Nat) (d : TileDesc) (vals : List Byte) (h_s : Sound fuse s) :
    Sound fuse (State.landValues s g c d vals) := by
  unfold State.landValues
  repeat' (first
    | (intro _ _ _)
    | (with_reducible first
      | assumption
      | apply State.putCell_keeps
      | apply sound_foldl))

theorem State.chargePage_keeps (s : State) (d : TileDesc) (q : PageDesc) (h_s : Sound fuse s) :
    Sound fuse (State.chargePage s d q) := by
  unfold State.chargePage
  repeat' (first
    | (intro _ _ _)
    | (with_reducible first
      | assumption
      | apply State.chargeRange_keeps
      | apply sound_foldl))

theorem State.askPage_keeps (s : State) (g : Nat) (c : Nat) (d : TileDesc) (q : PageDesc) (h_s : Sound fuse s) :
    Sound fuse (State.askPage s g c d q) := by
  unfold State.askPage
  repeat' (first
    | (intro _ _ _)
    | (with_reducible first
      | assumption
      | apply State.askRemote_keeps
      | apply sound_foldl))

theorem State.landGather_keeps (s : State) (g : Nat) (c : Nat) (d : TileDesc) (gone : List Nat) (h_s : Sound fuse s) :
    Sound fuse (State.landGather s g c d gone) := by
  unfold State.landGather
  repeat' (first
    | (intro _ _ _)
    | (with_reducible first
      | assumption
      | apply State.landKeys_keeps
      | apply State.landValues_keeps
      | apply State.chargePage_keeps
      | apply State.putCell_keeps
      | apply sound_foldl)
    | dsimp only
    | split)

theorem State.gatherEnd_keeps (s : State) (g : Nat) (c : Nat) (d : TileDesc) (h_s : Sound fuse s) :
    Sound fuse (State.gatherEnd s g c d) := by
  unfold State.gatherEnd
  repeat' (first
    | (intro _ _ _)
    | (with_reducible first
      | assumption
      | apply State.feedPages_keeps
      | apply State.moveDone_keeps
      | apply State.park_keeps
      | apply State.askPage_keeps
      | apply sound_foldl
      | (refine sound_snd (by assumption) ?_)
      | (refine sound_fst (by assumption) ?_))
    | dsimp only
    | split)

theorem State.gatherOk_keeps (g : Nat) (c : Nat) (s : State) (t : TileSlot) (h_s : Sound fuse s) :
    Sound fuse (State.gatherOk g c s t) := by
  unfold State.gatherOk
  repeat' (first
    | (intro _ _ _)
    | (with_reducible first
      | assumption
      | apply State.feedPages_keeps
      | apply State.gatherEnd_keeps
      | apply State.landGather_keeps))

theorem State.gatherLost_keeps (g : Nat) (c : Nat) (s : State) (t : TileSlot) (bad : List Nat) (_late : Bool)
    (h_s : Sound fuse s) :
    Sound fuse (State.gatherLost g c s t bad _late) := by
  unfold State.gatherLost
  repeat' (first
    | (intro _ _ _)
    | (with_reducible first
      | assumption
      | apply State.feedPages_keeps
      | apply State.gatherEnd_keeps
      | apply State.landGather_keeps
      | apply State.losePage_keeps
      | apply sound_foldl))

theorem State.appendAt_keeps (s : State) (g : Nat) (c : Nat) (d : TileDesc) (w : PageDesc × Nat × List Byte)
    (h_s : Sound fuse s) :
    Sound fuse (State.appendAt s g c d w) := by
  unfold State.appendAt
  repeat' (first
    | (intro _ _ _)
    | (with_reducible first
      | assumption
      | apply State.writeRegion_keeps
      | apply State.sendLines_keeps)
    | dsimp only
    | split)

theorem State.appendToken_keeps (s : State) (d : TileDesc) (x : Seqn) (w : PageDesc × Nat × List Byte) (h_s : Sound fuse s) :
    Sound fuse (State.appendToken s d x w) := by
  unfold State.appendToken
  repeat' (first
    | (intro _ _ _)
    | (with_reducible first
      | assumption
      | apply State.chargeRecord_keeps
      | apply State.putTokens_keeps)
    | dsimp only
    | split)

theorem State.noteAppended_keeps (s : State) (d : TileDesc) (part : Nat) (h_s : Sound fuse s) :
    Sound fuse (State.noteAppended s d part) := by
  unfold State.noteAppended
  repeat' (first
    | (intro _ _ _)
    | (with_reducible first
      | assumption
      | apply State.setSeq_keeps
      | (refine sound_snd (by assumption) ?_)
      | (refine sound_fst (by assumption) ?_))
    | dsimp only
    | simp only [sound_other]
    | split)

theorem State.appendOk_keeps (g : Nat) (c : Nat) (s : State) (t : TileSlot) (h_s : Sound fuse s) :
    Sound fuse (State.appendOk g c s t) := by
  unfold State.appendOk
  repeat' (first
    | (intro _ _ _)
    | (with_reducible first
      | assumption
      | apply State.moveDone_keeps
      | apply State.feedPages_keeps
      | apply State.appendAt_keeps
      | apply State.appendToken_keeps
      | apply State.noteAppended_keeps
      | apply State.stallWrite_keeps
      | apply sound_foldl
      | apply sound_foldl_fst
      | apply sound_foldl_snd
      | (refine sound_snd (by assumption) ?_)
      | (refine sound_fst (by assumption) ?_))
    | dsimp only
    | split)

theorem State.weightOk_keeps (g : Nat) (c : Nat) (s : State) (t : TileSlot) (h_s : Sound fuse s) :
    Sound fuse (State.weightOk g c s t) := by
  unfold State.weightOk
  repeat' (first
    | (intro _ _ _)
    | (with_reducible first
      | assumption
      | apply State.putCell_keeps
      | apply State.moveDone_keeps
      | apply State.countRead_keeps
      | apply State.chargeImage_keeps))

theorem State.weightLost_keeps (g : Nat) (c : Nat) (s : State) (t : TileSlot) (bad : List Nat) (_late : Bool)
    (h_s : Sound fuse s) :
    Sound fuse (State.weightLost g c s t bad _late) := by
  unfold State.weightLost
  repeat' (first
    | (intro _ _ _)
    | (with_reducible first
      | assumption
      | apply State.chargeMove_keeps
      | apply State.chargeImage_keeps
      | apply State.shardLost_keeps
      | apply sound_foldl))

theorem State.saveOk_keeps (g : Nat) (c : Nat) (s : State) (t : TileSlot) (h_s : Sound fuse s) :
    Sound fuse (State.saveOk g c s t) := by
  unfold State.saveOk
  repeat' (first
    | (intro _ _ _)
    | (with_reducible first
      | assumption
      | apply State.moveInto_keeps))

theorem State.loadOk_keeps (g : Nat) (c : Nat) (s : State) (t : TileSlot) (h_s : Sound fuse s) :
    Sound fuse (State.loadOk g c s t) := by
  unfold State.loadOk
  repeat' (first
    | (intro _ _ _)
    | (with_reducible first
      | assumption
      | apply State.readRegion_keeps
      | apply State.moveDone_keeps
      | apply State.putCell_keeps))

theorem State.loadLost_keeps (g : Nat) (c : Nat) (s : State) (t : TileSlot) (bad : List Nat) (_late : Bool)
    (h_s : Sound fuse s) :
    Sound fuse (State.loadLost g c s t bad _late) := by
  unfold State.loadLost
  repeat' (first
    | (intro _ _ _)
    | (with_reducible first
      | assumption
      | apply State.memoryLost_keeps))

theorem State.tierOk_keeps (g : Nat) (c : Nat) (s : State) (t : TileSlot) (h_s : Sound fuse s) :
    Sound fuse (State.tierOk g c s t) := by
  unfold State.tierOk
  repeat' (first
    | (intro _ _ _)
    | (with_reducible first
      | assumption
      | apply State.stopPlan_keeps
      | apply State.abandon_keeps
      | apply State.chargeMove_keeps
      | apply State.stallWrite_keeps
      | apply State.readRegion_keeps
      | apply State.againOrStop_keeps
      | apply State.writeRegion_keeps
      | apply State.countMissed_keeps
      | apply State.moveInto_keeps)
    | dsimp only
    | split)

theorem State.tierLost_keeps (g : Nat) (c : Nat) (s : State) (t : TileSlot) (bad : List Nat) (late : Bool)
    (h_s : Sound fuse s) :
    Sound fuse (State.tierLost g c s t bad late) := by
  unfold State.tierLost
  repeat' (first
    | (intro _ _ _)
    | (with_reducible first
      | assumption
      | apply State.memoryLost_keeps
      | apply State.readRegion_keeps
      | apply State.countMissed_keeps
      | apply State.againOrStop_keeps
      | apply State.writeRegion_keeps)
    | dsimp only
    | split)

theorem noLoss_keeps (s : State) (_t : TileSlot) (_bad : List Nat) (_late : Bool) (h_s : Sound fuse s) :
    Sound fuse (noLoss s _t _bad _late) := by
  unfold noLoss
  repeat' (first
    | (intro _ _ _)
    | (with_reducible first
      | assumption))

theorem execMove_keeps (g : Nat) (c : Nat) (o : RunEnv) (s : State) (h_s : Kept fuse s) :
    AnsKept fuse (execMove g c o s) := by
  unfold execMove
  first
    | (refine ansInv_inRange (by assumption) fun _ => Sound.inv ?_)
  repeat' (first
    | (intro _ _ _)
    | (with_reducible first
      | assumption
      | apply State.runMove_keeps
      | apply State.moveOk_keeps
      | apply State.moveLost_keeps))

theorem execPageGather_keeps (g : Nat) (c : Nat) (o : RunEnv) (s : State) (h_s : Kept fuse s) :
    AnsKept fuse (execPageGather g c o s) := by
  unfold execPageGather
  first
    | (refine ansInv_inRange (by assumption) fun _ => Sound.inv ?_)
  repeat' (first
    | (intro _ _ _)
    | (with_reducible first
      | assumption
      | apply State.runMove_keeps
      | apply State.gatherOk_keeps
      | apply State.gatherLost_keeps))

theorem execPageAppend_keeps (g : Nat) (c : Nat) (o : RunEnv) (s : State) (h_s : Kept fuse s) :
    AnsKept fuse (execPageAppend g c o s) := by
  unfold execPageAppend
  first
    | (refine ansInv_inRange (by assumption) fun _ => Sound.inv ?_)
  repeat' (first
    | (intro _ _ _)
    | (with_reducible first
      | assumption
      | apply State.runMove_keeps
      | apply State.appendOk_keeps
      | apply noLoss_keeps))

theorem execWeightRead_keeps (g : Nat) (c : Nat) (o : RunEnv) (s : State) (h_s : Kept fuse s) :
    AnsKept fuse (execWeightRead g c o s) := by
  unfold execWeightRead
  first
    | (refine ansInv_inRange (by assumption) fun _ => Sound.inv ?_)
  repeat' (first
    | (intro _ _ _)
    | (with_reducible first
      | assumption
      | apply State.runMove_keeps
      | apply State.weightOk_keeps
      | apply State.weightLost_keeps))

theorem execSideSave_keeps (g : Nat) (c : Nat) (o : RunEnv) (s : State) (h_s : Kept fuse s) :
    AnsKept fuse (execSideSave g c o s) := by
  unfold execSideSave
  first
    | (refine ansInv_inRange (by assumption) fun _ => Sound.inv ?_)
  repeat' (first
    | (intro _ _ _)
    | (with_reducible first
      | assumption
      | apply State.runMove_keeps
      | apply State.saveOk_keeps
      | apply noLoss_keeps))

theorem execSideLoad_keeps (g : Nat) (c : Nat) (o : RunEnv) (s : State) (h_s : Kept fuse s) :
    AnsKept fuse (execSideLoad g c o s) := by
  unfold execSideLoad
  first
    | (refine ansInv_inRange (by assumption) fun _ => Sound.inv ?_)
  repeat' (first
    | (intro _ _ _)
    | (with_reducible first
      | assumption
      | apply State.runMove_keeps
      | apply State.loadOk_keeps
      | apply State.loadLost_keeps))

theorem execTierMove_keeps (g : Nat) (c : Nat) (o : RunEnv) (s : State) (h_s : Kept fuse s) :
    AnsKept fuse (execTierMove g c o s) := by
  unfold execTierMove
  first
    | (refine ansInv_inRange (by assumption) fun _ => Sound.inv ?_)
  repeat' (first
    | (intro _ _ _)
    | (with_reducible first
      | assumption
      | apply State.runMove_keeps
      | apply State.tierOk_keeps
      | apply State.tierLost_keeps))

theorem execCellarLate_keeps (n : Nat) (slot : Nat) (line : Nat) (s : State) (h_s : Kept fuse s) :
    AnsKept fuse (execCellarLate n slot line s) := by
  unfold execCellarLate
  first
    | (refine ansInv_inRange (by assumption) fun _ => Sound.inv ?_)
  repeat' (first
    | (intro _ _ _)
    | (with_reducible first
      | assumption
      | apply State.moveLost_keeps
      | apply State.faultSeq_keeps
      | apply State.countMissed_keeps
      | apply sound_onlyIf
      | (refine sound_snd (by assumption) ?_)
      | (refine sound_fst (by assumption) ?_))
    | dsimp only
    | split)

theorem execTriggerPost_keeps (g : Nat) (c : Nat) (o : RunEnv) (s : State) (h_s : Kept fuse s) :
    AnsKept fuse (execTriggerPost g c o s) := by
  unfold execTriggerPost
  first
    | (refine ansInv_inRange (by assumption) fun _ => Sound.inv ?_)
  repeat' (first
    | (intro _ _ _)
    | (with_reducible first
      | assumption
      | apply State.runCompute_keeps))

end Sys2Proof.Machine
end

