-- ==== Sys2Proof/Laws/KeepsRemote.lean ====
section
/-! SUPPORT. The operations of Machine/Remote.lean keep a state sound. -/

namespace Sys2Proof.Machine

open State

variable {fuse : Otp}

theorem State.dropRemote_keeps (s : State) (tag : Nat) (h_s : Sound fuse s) :
    Sound fuse (State.dropRemote s tag) := by
  unfold State.dropRemote
  repeat' (first
    | (intro _ _ _)
    | (with_reducible first
      | assumption)
    | dsimp only
    | simp only [sound_other])

theorem State.dropAsked_keeps (s : State) (r : Remote) (h_s : Sound fuse s) :
    Sound fuse (State.dropAsked s r) := by
  unfold State.dropAsked
  repeat' (first
    | (intro _ _ _)
    | (with_reducible first
      | assumption)
    | dsimp only
    | simp only [sound_other])

theorem State.mapAsker_keeps (s : State) (r : Remote) (f : TileSlot → Option TileSlot) (h_s : Sound fuse s) :
    Sound fuse (State.mapAsker s r f) := by
  unfold State.mapAsker
  repeat' (first
    | (intro _ _ _)
    | (with_reducible first
      | assumption
      | apply State.setCell_keeps))

theorem State.endAsker_keeps (s : State) (r : Remote) (h_s : Sound fuse s) :
    Sound fuse (State.endAsker s r) := by
  unfold State.endAsker
  repeat' (first
    | (intro _ _ _)
    | (with_reducible first
      | assumption
      | apply State.signalCtr_keeps
      | apply State.mapAsker_keeps
      | (refine sound_snd (by assumption) ?_)
      | (refine sound_fst (by assumption) ?_))
    | dsimp only
    | simp only [sound_other]
    | split)

theorem State.stopAsker_keeps (s : State) (r : Remote) (why : Name) (h_s : Sound fuse s) :
    Sound fuse (State.stopAsker s r why) := by
  unfold State.stopAsker
  repeat' (first
    | (intro _ _ _)
    | (with_reducible first
      | assumption
      | apply State.stopPlan_keeps
      | apply State.mapAsker_keeps
      | apply State.dropAsked_keeps))

theorem State.landPageLine_keeps (s : State) (r : Remote) (d : TileDesc) (i : Nat) (data : List Byte) (h_s : Sound fuse s) :
    Sound fuse (State.landPageLine s r d i data) := by
  unfold State.landPageLine
  repeat' (first
    | (intro _ _ _)
    | (with_reducible first
      | assumption
      | apply State.landCell_keeps
      | apply sound_foldl
      | (refine sound_snd (by assumption) ?_)
      | (refine sound_fst (by assumption) ?_))
    | dsimp only
    | split)

theorem State.landLine_keeps (s : State) (r : Remote) (p : Nat × List Byte) (h_s : Sound fuse s) :
    Sound fuse (State.landLine s r p) := by
  unfold State.landLine
  repeat' (first
    | (intro _ _ _)
    | (with_reducible first
      | assumption
      | apply State.locWrite_keeps
      | apply State.landPageLine_keeps
      | apply State.landCell_keeps
      | (refine sound_snd (by assumption) ?_)
      | (refine sound_fst (by assumption) ?_))
    | dsimp only
    | split)

theorem State.takeReply_keeps (s : State) (r : Remote) (lines : List (Nat × List Byte)) (src : Nat) (h_s : Sound fuse s) :
    Sound fuse (State.takeReply s r lines src) := by
  unfold State.takeReply
  repeat' (first
    | (intro _ _ _)
    | (with_reducible first
      | assumption
      | apply State.chargeIngress_keeps
      | apply State.landLine_keeps
      | apply State.dropRemote_keeps
      | apply State.endAsker_keeps
      | apply sound_foldl
      | apply sound_foldl_fst
      | apply sound_foldl_snd)
    | dsimp only
    | simp only [sound_other]
    | split)

theorem State.againAsker_keeps (s : State) (r : Remote) (h_s : Sound fuse s) :
    Sound fuse (State.againAsker s r) := by
  unfold State.againAsker
  repeat' (first
    | (intro _ _ _)
    | (with_reducible first
      | assumption
      | apply State.mapAsker_keeps
      | apply State.dropAsked_keeps))

theorem State.takeLost_keeps (s : State) (r : Remote) (lines : List (Nat × List Byte)) (lost : List Nat) (src : Nat)
    (h_s : Sound fuse s) :
    Sound fuse (State.takeLost s r lines lost src) := by
  unfold State.takeLost
  repeat' (first
    | (intro _ _ _)
    | (with_reducible first
      | assumption
      | apply State.dropRemote_keeps
      | apply State.takeReply_keeps
      | apply State.faultSeq_keeps
      | apply State.againAsker_keeps
      | apply State.stopAsker_keeps
      | (refine sound_snd (by assumption) ?_)
      | (refine sound_fst (by assumption) ?_))
    | dsimp only
    | split)

theorem State.timeoutRemote_keeps (s : State) (r : Remote) (h_s : Sound fuse s) :
    Sound fuse (State.timeoutRemote s r) := by
  unfold State.timeoutRemote
  repeat' (first
    | (intro _ _ _)
    | (with_reducible first
      | assumption
      | apply State.bumpLive_keeps
      | apply State.dropRemote_keeps
      | apply State.endAsker_keeps
      | apply State.faultSeq_keeps
      | apply State.dropAsked_keeps
      | apply State.againAsker_keeps
      | apply State.stopAsker_keeps
      | (refine sound_snd (by assumption) ?_)
      | (refine sound_fst (by assumption) ?_))
    | dsimp only
    | split)

theorem State.readName_keeps (s : State) (n : Nat) (v : Nat) (len : Nat) (h_s : Sound fuse s) :
    Sound fuse (State.readName s n v len).2 := by
  unfold State.readName
  repeat' (first
    | (intro _ _ _)
    | (with_reducible first
      | assumption
      | apply State.readRegion_keeps))

theorem State.serveRead_keeps (s : State) (f : Flit) (len : Nat) (h_s : Sound fuse s) :
    Sound fuse (State.serveRead s f len).2 := by
  unfold State.serveRead
  repeat' (first
    | (intro _ _ _)
    | (with_reducible first
      | assumption
      | apply State.readName_keeps
      | apply State.locRead_keeps)
    | dsimp only
    | split)

theorem State.serveLost_keeps (s : State) (f : Flit) (bad : List Nat) (h_s : Sound fuse s) :
    Sound fuse (State.serveLost s f bad) := by
  unfold State.serveLost
  repeat' (first
    | (intro _ _ _)
    | (with_reducible first
      | assumption
      | apply State.losePage_keeps
      | apply State.loseLine_keeps
      | apply State.emit_keeps
      | apply State.locLost_keeps
      | apply sound_foldl)
    | dsimp only
    | split)

theorem State.writeName_keeps (s : State) (n : Nat) (v : Nat) (data : List Byte) (h_s : Sound fuse s) :
    Sound fuse (State.writeName s n v data) := by
  unfold State.writeName
  repeat' (first
    | (intro _ _ _)
    | (with_reducible first
      | assumption
      | apply State.writeRegion_keeps)
    | dsimp only
    | split)

theorem State.serveWrite_keeps (s : State) (f : Flit) (data : List Byte) (h_s : Sound fuse s) :
    Sound fuse (State.serveWrite s f data) := by
  unfold State.serveWrite
  repeat' (first
    | (intro _ _ _)
    | (with_reducible first
      | assumption
      | apply State.writeName_keeps
      | apply State.locWrite_keeps
      | apply State.adoptCurd_keeps)
    | dsimp only
    | split)

theorem State.answerRead_keeps (s : State) (f : Flit) (foreign : Bool) (data : List Byte) (h_s : Sound fuse s) :
    Sound fuse (State.answerRead s f foreign data) := by
  unfold State.answerRead
  repeat' (first
    | (intro _ _ _)
    | (with_reducible first
      | assumption
      | apply State.carry_keeps
      | apply State.emit_keeps))

theorem State.refuseRemote_keeps (s : State) (f : Flit) (asker : Nat) (h_s : Sound fuse s) :
    Sound fuse (State.refuseRemote s f asker) := by
  unfold State.refuseRemote
  repeat' (first
    | (intro _ _ _)
    | (with_reducible first
      | assumption
      | apply State.postAll_keeps))

theorem execRemoteReply_keeps (tag : Nat) (lines : List (Nat × List Byte)) (foreign : Bool) (s : State)
    (lost : (List Nat)) (h_s : Kept fuse s) :
    AnsKept fuse (execRemoteReply tag lines foreign s lost) := by
  unfold execRemoteReply
  first
    | (refine ansInv_inRange (by assumption) fun _ => Sound.inv ?_)
    | (refine ansInv_whenOn (by assumption) fun _ => Sound.inv ?_)
  repeat' (first
    | (intro _ _ _)
    | (with_reducible first
      | assumption
      | apply State.takeLost_keeps
      | apply State.takeReply_keeps
      | apply State.dropRemote_keeps
      | apply State.stopAsker_keeps
      | (refine sound_snd (by assumption) ?_)
      | (refine sound_fst (by assumption) ?_))
    | dsimp only
    | split)

theorem execRemoteTimeout_keeps (tag : Nat) (s : State) (h_s : Kept fuse s) :
    AnsKept fuse (execRemoteTimeout tag s) := by
  unfold execRemoteTimeout
  first
    | (refine ansInv_inRange (by assumption) fun _ => Sound.inv ?_)
    | (refine ansInv_whenOn (by assumption) fun _ => Sound.inv ?_)
  repeat' (first
    | (intro _ _ _)
    | (with_reducible first
      | assumption
      | apply State.timeoutRemote_keeps
      | apply sound_onlyIf
      | (refine sound_snd (by assumption) ?_)
      | (refine sound_fst (by assumption) ?_))
    | dsimp only
    | split)

theorem execRemoteReadServe_keeps (f : Flit) (s : State) (asker : Nat) (h_s : Kept fuse s) :
    AnsKept fuse (execRemoteReadServe f s asker) := by
  unfold execRemoteReadServe
  first
    | (refine ansInv_inRange (by assumption) fun _ => Sound.inv ?_)
  repeat' (first
    | (intro _ _ _)
    | (with_reducible first
      | assumption
      | apply State.serveRead_keeps
      | apply State.emit_keeps
      | apply State.answerRead_keeps
      | apply State.serveLost_keeps
      | apply State.refuseRemote_keeps)
    | dsimp only
    | split)

theorem execRemoteWriteServe_keeps (f : Flit) (s : State) (asker : Nat) (h_s : Kept fuse s) :
    AnsKept fuse (execRemoteWriteServe f s asker) := by
  unfold execRemoteWriteServe
  first
    | (refine ansInv_inRange (by assumption) fun _ => Sound.inv ?_)
  repeat' (first
    | (intro _ _ _)
    | (with_reducible first
      | assumption
      | apply State.emit_keeps
      | apply State.serveWrite_keeps
      | apply State.chargeIngress_keeps
      | apply State.answerRead_keeps
      | apply State.refuseRemote_keeps)
    | dsimp only
    | split)

end Sys2Proof.Machine
end

