-- ==== Sys2Proof/Laws/KeepsWrite.lean ====
section
/-! SUPPORT. The operations of Machine/Write.lean keep a state sound. -/

namespace Sys2Proof.Machine

open State

variable {fuse : Otp}

theorem State.store_keeps (s : State) (e : Entry) (idx : Nat) (sub : Nat) (v : List Byte) (h_s : Sound fuse s) :
    Sound fuse (State.store s e idx sub v) := by
  unfold State.store
  repeat' (first
    | (intro _ _ _)
    | (with_reducible first
      | assumption
      | apply State.wr_keeps
      | apply State.wrBlob_keeps)
    | dsimp only
    | split)

theorem State.answer_keeps (s : State) (why : Name) (k : State) (h_s : Sound fuse s) (h_k : Sound fuse k) :
    Sound fuse (State.answer s why k).2 := by
  unfold State.answer
  repeat' (first
    | (intro _ _ _)
    | (with_reducible first
      | assumption)
    | dsimp only
    | split)

theorem State.answerCmd_keeps (s : State) (idx sub v : Nat) (r : Except Name State) (h : Sound fuse s)
    (hr : ∀ k, r = .ok k → Sound fuse k) : Sound fuse (State.answerCmd s idx sub v r).2 := by
  cases r with
  | ok k => exact State.wr_keeps _ _ _ _ (hr k rfl)
  | error e => exact h

theorem State.writeBlock_keeps (s : State) (t : State) (idx : Nat) (sub : Nat) (x : Nat) (h_s : Sound fuse s)
    (h_t : Sound fuse t) :
    Sound fuse (State.writeBlock s t idx sub x).2 := by
  unfold State.writeBlock
  repeat' (first
    | (intro _ _ _)
    | (intro _ e)
    | (split at e)
    | (with_reducible first
      | assumption
      | apply State.answer_keeps
      | apply State.answerCmd_keeps
      | (refine State.createCmd_keeps _ _ ?_ (by assumption))
      | (refine State.resizeCmd_keeps _ _ ?_ (by assumption))
      | (refine State.destroyCmd_keeps _ _ ?_ (by assumption))
      | apply State.closeKeyless_keeps
      | (refine sound_snd (by assumption) ?_)
      | (refine sound_fst (by assumption) ?_))
    | dsimp only
    | split)

theorem State.writeShare_keeps (s : State) (t : State) (n : Nat) (res : Nat) (x : Nat) (h_s : Sound fuse s)
    (h_t : Sound fuse t) :
    Sound fuse (State.writeShare s t n res x).2 := by
  unfold State.writeShare
  repeat' (first
    | (intro _ _ _)
    | (with_reducible first
      | assumption
      | apply State.answer_keeps))

theorem State.writeQuota_keeps (s : State) (t : State) (n : Nat) (sub : Nat) (x : Nat) (h_s : Sound fuse s)
    (h_t : Sound fuse t) :
    Sound fuse (State.writeQuota s t n sub x).2 := by
  unfold State.writeQuota
  repeat' (first
    | (intro _ _ _)
    | (with_reducible first
      | assumption
      | apply State.answer_keeps
      | apply State.setClr_keeps)
    | dsimp only
    | simp only [sound_other]
    | split)

theorem State.writeCkpt_keeps (s : State) (t : State) (n : Nat) (sub : Nat) (x : Nat) (h_s : Sound fuse s)
    (h_t : Sound fuse t) :
    Sound fuse (State.writeCkpt s t n sub x).2 := by
  unfold State.writeCkpt
  repeat' (first
    | (intro _ _ _)
    | (with_reducible first
      | assumption
      | apply State.unreserve_keeps
      | (refine State.reserveChannel_keeps _ _ ?_ (by assumption))
      | apply State.answer_keeps
      | (refine sound_snd (by assumption) ?_)
      | (refine sound_fst (by assumption) ?_))
    | dsimp only
    | split)

theorem State.writePool_keeps (s : State) (t : State) (n : Nat) (sub : Nat) (h_s : Sound fuse s) (h_t : Sound fuse t) :
    Sound fuse (State.writePool s t n sub).2 := by
  unfold State.writePool
  repeat' (first
    | (intro _ _ _)
    | (with_reducible first
      | assumption
      | apply State.answer_keeps))

theorem State.writeTurn_keeps (s : State) (t : State) (n : Nat) (sub : Nat) (x : Nat) (h_s : Sound fuse s)
    (h_t : Sound fuse t) :
    Sound fuse (State.writeTurn s t n sub x).2 := by
  unfold State.writeTurn
  repeat' (first
    | (intro _ _ _)
    | (with_reducible first
      | assumption
      | apply State.answer_keeps)
    | dsimp only
    | split)

theorem State.writeHealth_keeps (s : State) (t : State) (n : Nat) (sub : Nat) (x : Nat) (h_s : Sound fuse s)
    (h_t : Sound fuse t) :
    Sound fuse (State.writeHealth s t n sub x).2 := by
  unfold State.writeHealth
  repeat' (first
    | (intro _ _ _)
    | (with_reducible first
      | assumption
      | apply State.setClr_keeps
      | apply State.answer_keeps)
    | dsimp only
    | simp only [sound_other]
    | split)

theorem State.writeTrigQuota_keeps (s : State) (t : State) (sub : Nat) (h_s : Sound fuse s) (h_t : Sound fuse t) :
    Sound fuse (State.writeTrigQuota s t sub).2 := by
  unfold State.writeTrigQuota
  repeat' (first
    | (intro _ _ _)
    | (with_reducible first
      | assumption
      | apply State.answer_keeps))

theorem State.writePort_keeps (s : State) (t : State) (idx : Nat) (sub : Nat) (x : Nat) (h_s : Sound fuse s)
    (h_t : Sound fuse t) :
    Sound fuse (State.writePort s t idx sub x).2 := by
  unfold State.writePort
  repeat' (first
    | (intro _ _ _)
    | (with_reducible first
      | assumption
      | apply State.freshPort_keeps
      | apply State.setPortState_keeps
      | apply State.answer_keeps
      | apply State.expectPeer_keeps)
    | dsimp only
    | split)

theorem State.writeMicro_keeps (s : State) (t : State) (e : Nat) (h_s : Sound fuse s) (h_t : Sound fuse t) :
    Sound fuse (State.writeMicro s t e).2 := by
  unfold State.writeMicro
  repeat' (first
    | (intro _ _ _)
    | (with_reducible first
      | assumption
      | apply State.validateMp_keeps)
    | dsimp only
    | split)

theorem State.writeRecovery_keeps (s : State) (t : State) (n : Nat) (x : Nat) (newer : GenCheck) (older : GenCheck)
    (h_s : Sound fuse s) (h_t : Sound fuse t) :
    Sound fuse (State.writeRecovery s t n x newer older).2 := by
  unfold State.writeRecovery
  repeat' (first
    | (intro _ _ _)
    | (with_reducible first
      | assumption
      | apply State.restoreCmd_keeps)
    | dsimp only
    | split)

theorem State.writePower_keeps (s : State) (t : State) (x : Nat) (h_s : Sound fuse s) (h_t : Sound fuse t) :
    Sound fuse (State.writePower s t x).2 := by
  unfold State.writePower
  repeat' (first
    | (intro _ _ _)
    | (with_reducible first
      | assumption
      | apply State.doHold_keeps
      | apply State.checkPlans_keeps
      | apply State.doResume_keeps)
    | dsimp only
    | split)

theorem State.clearArbiters_keeps (s : State) (h_s : Sound fuse s) :
    Sound fuse (State.clearArbiters s) := by
  unfold State.clearArbiters
  repeat' (first
    | (intro _ _ _)
    | (with_reducible first
      | assumption)
    | dsimp only
    | simp only [sound_other])

theorem State.writeOwn_keeps (s : State) (sess : Nat) (idx : Nat) (v : List Byte) (h_s : Sound fuse s) :
    Sound fuse (State.writeOwn s sess idx v) := by
  unfold State.writeOwn
  repeat' (first
    | (intro _ _ _)
    | (with_reducible first
      | assumption
      | apply State.setSession_keeps
      | (refine sound_snd (by assumption) ?_)
      | (refine sound_fst (by assumption) ?_))
    | dsimp only
    | simp only [sound_other]
    | split)

theorem State.writeClearing_keeps (s : State) (t : State) (idx : Nat) (sub : Nat) (n : Nat) (x : Nat)
    (gens : GenCheck × GenCheck) (h_s : Sound fuse s) (h_t : Sound fuse t) :
    Sound fuse (State.writeClearing s t idx sub n x gens).2 := by
  unfold State.writeClearing
  repeat' (first
    | (intro _ _ _)
    | (with_reducible first
      | assumption
      | apply State.writeBlock_keeps
      | apply State.writeShare_keeps
      | apply State.answer_keeps
      | apply State.writeQuota_keeps
      | apply State.writeCkpt_keeps
      | apply State.writePool_keeps
      | apply State.writeTrigQuota_keeps
      | apply State.writeTurn_keeps
      | apply State.writeHealth_keeps
      | apply State.writeRecovery_keeps)
    | dsimp only
    | split)

theorem State.writeModule_keeps (s : State) (t : State) (sess : Nat) (idx : Nat) (sub : Nat) (x : Nat) (v : List Byte)
    (h_s : Sound fuse s) (h_t : Sound fuse t) :
    Sound fuse (State.writeModule s t sess idx sub x v).2 := by
  unfold State.writeModule
  repeat' (first
    | (intro _ _ _)
    | (intro _ e)
    | (split at e)
    | (with_reducible first
      | assumption
      | apply State.writePower_keeps
      | apply State.stageData_keeps
      | apply State.answerCmd_keeps
      | (refine State.stageCmd_keeps _ _ ?_ (by assumption))
      | (refine State.storeCmd_keeps _ _ ?_ (by assumption))
      | apply State.writeMpTable_keeps
      | apply State.answer_keeps
      | apply State.clearArbiters_keeps
      | apply State.writeOwn_keeps
      | apply State.sessionOpen_keeps
      | apply State.writeMicro_keeps
      | apply State.writePort_keeps
      | (refine sound_snd (by assumption) ?_)
      | (refine sound_fst (by assumption) ?_))
    | dsimp only
    | simp only [sound_other]
    | simp only [sound_power]
    | split)

theorem State.effect_keeps (s : State) (sess : Nat) (e : Entry) (idx : Nat) (sub : Nat) (v : List Byte)
    (gens : GenCheck × GenCheck) (h_s : Sound fuse s) :
    Sound fuse (State.effect s sess e idx sub v gens).2 := by
  unfold State.effect
  repeat' (first
    | (intro _ _ _)
    | (with_reducible first
      | assumption
      | apply State.store_keeps
      | apply State.answer_keeps
      | apply State.deliverKey_keeps
      | apply State.writeModule_keeps
      | apply State.writeClearing_keeps
      | apply State.settle_keeps
      | (refine sound_snd (by assumption) ?_)
      | (refine sound_fst (by assumption) ?_))
    | dsimp only
    | split)

theorem State.writeAs_keeps (s : State) (r : Role) (sess : Nat) (bank : Bool) (idx : Nat) (sub : Nat) (v : List Byte)
    (kind : Kind) (gens : GenCheck × GenCheck) (h_s : Sound fuse s) :
    Sound fuse (State.writeAs s r sess bank idx sub v kind gens).2 := by
  unfold State.writeAs
  repeat' (first
    | (intro _ _ _)
    | (with_reducible first
      | assumption
      | apply State.effect_keeps
      | (refine sound_snd (by assumption) ?_)
      | (refine sound_fst (by assumption) ?_))
    | dsimp only
    | split)

theorem State.apertureLoad_keeps (s : State) (h_s : Sound fuse s) :
    Sound fuse (State.apertureLoad s).2 := by
  unfold State.apertureLoad
  repeat' (first
    | (intro _ _ _)
    | (with_reducible first
      | assumption
      | apply State.wr_keeps
      | (refine sound_snd (by assumption) ?_)
      | (refine sound_fst (by assumption) ?_))
    | dsimp only
    | simp only [sound_other]
    | split)

theorem State.apertureCommit_keeps (s : State) (h_s : Sound fuse s) :
    Sound fuse (State.apertureCommit s).2 := by
  unfold State.apertureCommit
  repeat' (first
    | (intro _ _ _)
    | (with_reducible first
      | assumption
      | apply State.writeAs_keeps))

theorem State.apertureCmd_keeps (s : State) (x : Nat) (h_s : Sound fuse s) :
    Sound fuse (State.apertureCmd s x) := by
  unfold State.apertureCmd
  repeat' (first
    | (intro _ _ _)
    | (with_reducible first
      | assumption
      | apply State.wr_keeps
      | apply State.apertureLoad_keeps
      | apply State.apertureCommit_keeps)
    | dsimp only
    | split)

theorem State.writeWith_keeps (s : State) (sess : Nat) (idx : Nat) (sub : Nat) (v : List Byte) (kind : Kind)
    (gens : GenCheck × GenCheck) (h_s : Sound fuse s) :
    Sound fuse (State.writeWith s sess idx sub v kind gens).2 := by
  unfold State.writeWith
  repeat' (first
    | (intro _ _ _)
    | (with_reducible first
      | assumption
      | apply State.writeAs_keeps
      | apply State.apertureCmd_keeps
      | (refine sound_snd (by assumption) ?_)
      | (refine sound_fst (by assumption) ?_))
    | dsimp only
    | split)

theorem State.applyWrite_keeps (s : State) (sess : Nat) (idx : Nat) (sub : Nat) (v : List Byte) (kind : Kind)
    (h_s : Sound fuse s) :
    Sound fuse (State.applyWrite s sess idx sub v kind).2 := by
  unfold State.applyWrite
  repeat' (first
    | (intro _ _ _)
    | (with_reducible first
      | assumption
      | apply State.writeWith_keeps))

theorem State.applyRecord_keeps (s : State) (idx : Nat) (sub : Nat) (v : List Byte) (h_s : Sound fuse s) :
    Sound fuse (State.applyRecord s idx sub v).2 := by
  unfold State.applyRecord
  repeat' (first
    | (intro _ _ _)
    | (with_reducible first
      | assumption
      | apply State.writeAs_keeps
      | apply State.setFrc_keeps
      | (refine sound_snd (by assumption) ?_)
      | (refine sound_fst (by assumption) ?_))
    | dsimp only
    | split)

theorem State.touch_keeps (s : State) (sess : Nat) (h_s : Sound fuse s) :
    Sound fuse (State.touch s sess) := by
  unfold State.touch
  repeat' (first
    | (intro _ _ _)
    | (with_reducible first
      | assumption
      | apply State.setSession_keeps
      | (refine sound_snd (by assumption) ?_)
      | (refine sound_fst (by assumption) ?_))
    | dsimp only
    | simp only [sound_other]
    | split)

theorem State.command_keeps (s : State) (sess : Nat) (idx : Nat) (sub : Nat) (v : List Byte) (h_s : Sound fuse s) :
    Sound fuse (State.command s sess idx sub v) := by
  unfold State.command
  repeat' (first
    | (intro _ _ _)
    | (with_reducible first
      | assumption
      | apply State.applyWrite_keeps
      | apply State.emit_keeps
      | apply State.touch_keeps
      | apply sound_onlyIf)
    | dsimp only
    | split)

theorem execRegisterWrite_keeps (sess : Nat) (idx : Nat) (sub : Nat) (v : List Byte) (s : State) (h_s : Kept fuse s) :
    AnsKept fuse (execRegisterWrite sess idx sub v s) := by
  unfold execRegisterWrite
  first
    | (refine ansInv_inRange (by assumption) fun _ => Sound.inv ?_)
    | (refine ansInv_whenOn (by assumption) fun _ => Sound.inv ?_)
  repeat' (first
    | (intro _ _ _)
    | (with_reducible first
      | assumption
      | apply State.command_keeps))

theorem execHold_keeps (sess : Nat) (s : State) (h_s : Kept fuse s) :
    AnsKept fuse (execHold sess s) := by
  unfold execHold
  first
    | (refine ansInv_inRange (by assumption) fun _ => Sound.inv ?_)
    | (refine ansInv_whenOn (by assumption) fun _ => Sound.inv ?_)
  repeat' (first
    | (intro _ _ _)
    | (with_reducible first
      | assumption
      | apply State.command_keeps))

theorem execResume_keeps (sess : Nat) (s : State) (h_s : Kept fuse s) :
    AnsKept fuse (execResume sess s) := by
  unfold execResume
  first
    | (refine ansInv_inRange (by assumption) fun _ => Sound.inv ?_)
    | (refine ansInv_whenOn (by assumption) fun _ => Sound.inv ?_)
  repeat' (first
    | (intro _ _ _)
    | (with_reducible first
      | assumption
      | apply State.command_keeps))

theorem execModuleReset_keeps (sess : Nat) (s : State) (h_s : Kept fuse s) :
    AnsKept fuse (execModuleReset sess s) := by
  unfold execModuleReset
  first
    | (refine ansInv_inRange (by assumption) fun _ => Sound.inv ?_)
    | (refine ansInv_whenOn (by assumption) fun _ => Sound.inv ?_)
  repeat' (first
    | (intro _ _ _)
    | (with_reducible first
      | assumption
      | apply State.command_keeps))

theorem execStore_keeps (sess : Nat) (s : State) (h_s : Kept fuse s) :
    AnsKept fuse (execStore sess s) := by
  unfold execStore
  first
    | (refine ansInv_inRange (by assumption) fun _ => Sound.inv ?_)
    | (refine ansInv_whenOn (by assumption) fun _ => Sound.inv ?_)
  repeat' (first
    | (intro _ _ _)
    | (with_reducible first
      | assumption
      | apply State.command_keeps))

theorem execResetDefaults_keeps (sess : Nat) (s : State) (h_s : Kept fuse s) :
    AnsKept fuse (execResetDefaults sess s) := by
  unfold execResetDefaults
  first
    | (refine ansInv_inRange (by assumption) fun _ => Sound.inv ?_)
    | (refine ansInv_whenOn (by assumption) fun _ => Sound.inv ?_)
  repeat' (first
    | (intro _ _ _)
    | (with_reducible first
      | assumption
      | apply State.command_keeps))

theorem execFwStageDataWrite_keeps (sess : Nat) (v : List Byte) (s : State) (h_s : Kept fuse s) :
    AnsKept fuse (execFwStageDataWrite sess v s) := by
  unfold execFwStageDataWrite
  first
    | (refine ansInv_inRange (by assumption) fun _ => Sound.inv ?_)
    | (refine ansInv_whenOn (by assumption) fun _ => Sound.inv ?_)
  repeat' (first
    | (intro _ _ _)
    | (with_reducible first
      | assumption
      | apply State.command_keeps))

theorem execErase_keeps (sess : Nat) (s : State) (h_s : Kept fuse s) :
    AnsKept fuse (execErase sess s) := by
  unfold execErase
  first
    | (refine ansInv_inRange (by assumption) fun _ => Sound.inv ?_)
    | (refine ansInv_whenOn (by assumption) fun _ => Sound.inv ?_)
  repeat' (first
    | (intro _ _ _)
    | (with_reducible first
      | assumption
      | apply State.command_keeps))

theorem execVerify_keeps (sess : Nat) (s : State) (h_s : Kept fuse s) :
    AnsKept fuse (execVerify sess s) := by
  unfold execVerify
  first
    | (refine ansInv_inRange (by assumption) fun _ => Sound.inv ?_)
    | (refine ansInv_whenOn (by assumption) fun _ => Sound.inv ?_)
  repeat' (first
    | (intro _ _ _)
    | (with_reducible first
      | assumption
      | apply State.command_keeps))

theorem execSelect_keeps (sess : Nat) (s : State) (h_s : Kept fuse s) :
    AnsKept fuse (execSelect sess s) := by
  unfold execSelect
  first
    | (refine ansInv_inRange (by assumption) fun _ => Sound.inv ?_)
    | (refine ansInv_whenOn (by assumption) fun _ => Sound.inv ?_)
  repeat' (first
    | (intro _ _ _)
    | (with_reducible first
      | assumption
      | apply State.command_keeps))

theorem execRestore_keeps (sess : Nat) (n : Nat) (newer : GenCheck) (older : GenCheck) (s : State) (h_s : Kept fuse s) :
    AnsKept fuse (execRestore sess n newer older s) := by
  unfold execRestore
  first
    | (refine ansInv_inRange (by assumption) fun _ => Sound.inv ?_)
  repeat' (first
    | (intro _ _ _)
    | (with_reducible first
      | assumption
      | apply State.writeWith_keeps
      | apply State.emit_keeps
      | apply sound_onlyIf))

theorem execRestoreOlder_keeps (sess : Nat) (n : Nat) (newer : GenCheck) (older : GenCheck) (s : State) (h_s : Kept fuse s) :
    AnsKept fuse (execRestoreOlder sess n newer older s) := by
  unfold execRestoreOlder
  first
    | (refine ansInv_inRange (by assumption) fun _ => Sound.inv ?_)
  repeat' (first
    | (intro _ _ _)
    | (with_reducible first
      | assumption
      | apply State.writeWith_keeps
      | apply State.emit_keeps
      | apply sound_onlyIf))

theorem execArbClear_keeps (sess : Nat) (s : State) (h_s : Kept fuse s) :
    AnsKept fuse (execArbClear sess s) := by
  unfold execArbClear
  first
    | (refine ansInv_inRange (by assumption) fun _ => Sound.inv ?_)
    | (refine ansInv_whenOn (by assumption) fun _ => Sound.inv ?_)
  repeat' (first
    | (intro _ _ _)
    | (with_reducible first
      | assumption
      | apply State.command_keeps))

theorem execHealthClear_keeps (sess : Nat) (n : Nat) (s : State) (h_s : Kept fuse s) :
    AnsKept fuse (execHealthClear sess n s) := by
  unfold execHealthClear
  first
    | (refine ansInv_inRange (by assumption) fun _ => Sound.inv ?_)
  repeat' (first
    | (intro _ _ _)
    | (with_reducible first
      | assumption
      | apply State.command_keeps))

theorem execCellarTtlEnableWrite_keeps (sess : Nat) (v : Nat) (s : State) (h_s : Kept fuse s) :
    AnsKept fuse (execCellarTtlEnableWrite sess v s) := by
  unfold execCellarTtlEnableWrite
  first
    | (refine ansInv_inRange (by assumption) fun _ => Sound.inv ?_)
    | (refine ansInv_whenOn (by assumption) fun _ => Sound.inv ?_)
  repeat' (first
    | (intro _ _ _)
    | (with_reducible first
      | assumption
      | apply State.command_keeps))

theorem execAttestReportRead_keeps (sess : Nat) (s : State) (h_s : Kept fuse s) :
    AnsKept fuse (execAttestReportRead sess s) := by
  unfold execAttestReportRead
  first
    | (refine ansInv_inRange (by assumption) fun _ => Sound.inv ?_)
    | (refine ansInv_whenOn (by assumption) fun _ => Sound.inv ?_)
  repeat' (first
    | (intro _ _ _)
    | (with_reducible first
      | assumption
      | apply State.emit_keeps
      | apply sound_onlyIf
      | (refine sound_snd (by assumption) ?_)
      | (refine sound_fst (by assumption) ?_))
    | dsimp only
    | split)

theorem execSessionOpenManager_keeps (sess : Nat) (v : List Byte) (s : State) (h_s : Kept fuse s) :
    AnsKept fuse (execSessionOpenManager sess v s) := by
  unfold execSessionOpenManager
  first
    | (refine ansInv_inRange (by assumption) fun _ => Sound.inv ?_)
    | (refine ansInv_whenOn (by assumption) fun _ => Sound.inv ?_)
  repeat' (first
    | (intro _ _ _)
    | (with_reducible first
      | assumption
      | apply State.command_keeps
      | apply sound_onlyIf))

theorem execSessionOpenTenant_keeps (sess : Nat) (v : List Byte) (s : State) (h_s : Kept fuse s) :
    AnsKept fuse (execSessionOpenTenant sess v s) := by
  unfold execSessionOpenTenant
  first
    | (refine ansInv_inRange (by assumption) fun _ => Sound.inv ?_)
    | (refine ansInv_whenOn (by assumption) fun _ => Sound.inv ?_)
  repeat' (first
    | (intro _ _ _)
    | (with_reducible first
      | assumption
      | apply State.command_keeps
      | apply sound_onlyIf))

theorem execCommission_keeps (sess : Nat) (v : List Byte) (s : State) (h_s : Kept fuse s) :
    AnsKept fuse (execCommission sess v s) := by
  unfold execCommission
  first
    | (refine ansInv_inRange (by assumption) fun _ => Sound.inv ?_)
    | (refine ansInv_whenOn (by assumption) fun _ => Sound.inv ?_)
  repeat' (first
    | (intro _ _ _)
    | (with_reducible first
      | assumption
      | apply State.command_keeps
      | apply sound_onlyIf))

theorem execClose_keeps (sess : Nat) (v : List Byte) (s : State) (h_s : Kept fuse s) :
    AnsKept fuse (execClose sess v s) := by
  unfold execClose
  first
    | (refine ansInv_inRange (by assumption) fun _ => Sound.inv ?_)
    | (refine ansInv_whenOn (by assumption) fun _ => Sound.inv ?_)
  repeat' (first
    | (intro _ _ _)
    | (with_reducible first
      | assumption
      | apply State.command_keeps
      | apply sound_onlyIf))

theorem execKeyWrappedWrite_keeps (sess : Nat) (n : Nat) (v : List Byte) (s : State) (h_s : Kept fuse s) :
    AnsKept fuse (execKeyWrappedWrite sess n v s) := by
  unfold execKeyWrappedWrite
  first
    | (refine ansInv_inRange (by assumption) fun _ => Sound.inv ?_)
  repeat' (first
    | (intro _ _ _)
    | (with_reducible first
      | assumption
      | apply State.command_keeps))

theorem execCreate_keeps (sess : Nat) (n : Nat) (s : State) (h_s : Kept fuse s) :
    AnsKept fuse (execCreate sess n s) := by
  unfold execCreate
  first
    | (refine ansInv_inRange (by assumption) fun _ => Sound.inv ?_)
  repeat' (first
    | (intro _ _ _)
    | (with_reducible first
      | assumption
      | apply State.command_keeps))

theorem execResize_keeps (sess : Nat) (n : Nat) (s : State) (h_s : Kept fuse s) :
    AnsKept fuse (execResize sess n s) := by
  unfold execResize
  first
    | (refine ansInv_inRange (by assumption) fun _ => Sound.inv ?_)
  repeat' (first
    | (intro _ _ _)
    | (with_reducible first
      | assumption
      | apply State.command_keeps))

theorem execDestroy_keeps (sess : Nat) (n : Nat) (s : State) (h_s : Kept fuse s) :
    AnsKept fuse (execDestroy sess n s) := by
  unfold execDestroy
  first
    | (refine ansInv_inRange (by assumption) fun _ => Sound.inv ?_)
  repeat' (first
    | (intro _ _ _)
    | (with_reducible first
      | assumption
      | apply State.command_keeps))

theorem execMicroprogWrite_keeps (sess : Nat) (entry : Nat) (sub : Nat) (v : List Byte) (s : State) (h_s : Kept fuse s) :
    AnsKept fuse (execMicroprogWrite sess entry sub v s) := by
  unfold execMicroprogWrite
  first
    | (refine ansInv_inRange (by assumption) fun _ => Sound.inv ?_)
  repeat' (first
    | (intro _ _ _)
    | (with_reducible first
      | assumption
      | apply State.command_keeps))

theorem execMpTableWrite_keeps (sess : Nat) (v : List Byte) (s : State) (h_s : Kept fuse s) :
    AnsKept fuse (execMpTableWrite sess v s) := by
  unfold execMpTableWrite
  first
    | (refine ansInv_inRange (by assumption) fun _ => Sound.inv ?_)
    | (refine ansInv_whenOn (by assumption) fun _ => Sound.inv ?_)
  repeat' (first
    | (intro _ _ _)
    | (with_reducible first
      | assumption
      | apply State.command_keeps))

theorem execApertureLoad_keeps (sess : Nat) (s : State) (h_s : Kept fuse s) :
    AnsKept fuse (execApertureLoad sess s) := by
  unfold execApertureLoad
  first
    | (refine ansInv_inRange (by assumption) fun _ => Sound.inv ?_)
    | (refine ansInv_whenOn (by assumption) fun _ => Sound.inv ?_)
  repeat' (first
    | (intro _ _ _)
    | (with_reducible first
      | assumption
      | apply State.command_keeps))

theorem execApertureCommit_keeps (sess : Nat) (s : State) (h_s : Kept fuse s) :
    AnsKept fuse (execApertureCommit sess s) := by
  unfold execApertureCommit
  first
    | (refine ansInv_inRange (by assumption) fun _ => Sound.inv ?_)
    | (refine ansInv_whenOn (by assumption) fun _ => Sound.inv ?_)
  repeat' (first
    | (intro _ _ _)
    | (with_reducible first
      | assumption
      | apply State.command_keeps))

end Sys2Proof.Machine
end

