-- ==== Sys2Proof/Laws/KeepsPlan.lean ====
section
/-! SUPPORT. The operations of Machine/Plan.lean keep a state sound. -/

namespace Sys2Proof.Machine

open State

variable {fuse : Otp}

theorem State.installPrograms_keeps (s : State) (img : PlanImage) (n : Nat) (h_s : Sound fuse s) :
    Sound fuse (State.installPrograms s img n) := by
  unfold State.installPrograms
  repeat' (first
    | (intro _ _ _)
    | (with_reducible first
      | assumption
      | apply State.installProgram_keeps
      | apply sound_foldl))

theorem State.setGeometry_keeps (s : State) (n : Nat) (p : PlanClearing) (h_s : Sound fuse s) :
    Sound fuse (State.setGeometry s n p) := by
  unfold State.setGeometry
  repeat' (first
    | (intro _ _ _)
    | (with_reducible first
      | assumption
      | apply State.wr_keeps))

theorem State.firstBoundary_keeps (s : State) (n : Nat) (h_s : Sound fuse s) :
    Sound fuse (State.firstBoundary s n) := by
  unfold State.firstBoundary
  repeat' (first
    | (intro _ _ _)
    | (with_reducible first
      | assumption
      | apply State.checkPlan_keeps
      | apply State.publish_keeps
      | apply State.computeWcst_keeps
      | apply State.startFills_keeps))

theorem State.activate_keeps (s : State) (planId : Nat) (img : PlanImage) (p : PlanClearing) (h_s : Sound fuse s) :
    Sound fuse (State.activate s planId img p) := by
  unfold State.activate
  repeat' (first
    | (intro _ _ _)
    | (with_reducible first
      | assumption
      | apply State.setClr_keeps
      | apply State.setGeometry_keeps
      | apply State.installPrograms_keeps
      | apply State.setClearState_keeps
      | apply State.installCtrs_keeps
      | apply State.joinJob_keeps
      | apply State.firstBoundary_keeps
      | apply State.restFront_keeps
      | apply sound_foldl
      | apply sound_foldl_fst
      | apply sound_foldl_snd
      | (refine sound_snd (by assumption) ?_)
      | (refine sound_fst (by assumption) ?_))
    | dsimp only
    | simp only [sound_other]
    | split)

theorem State.useMicro_keeps (s : State) (l : List Nat) (h_s : Sound fuse s) :
    Sound fuse (State.useMicro s l) := by
  unfold State.useMicro
  repeat' (first
    | (intro _ _ _)
    | (with_reducible first
      | assumption
      | apply State.wr_keeps
      | apply sound_foldl))

theorem State.acceptPlan_keeps (s : State) (n : Nat) (planId : Nat) (img : PlanImage) (h_s : Sound fuse s) :
    Sound fuse (State.acceptPlan s n planId img) := by
  unfold State.acceptPlan
  repeat' (first
    | (intro _ _ _)
    | (with_reducible first
      | assumption
      | apply State.activate_keeps
      | apply State.useMicro_keeps
      | apply State.startMonitors_keeps
      | apply sound_foldl))

theorem State.dropAsm_keeps (s : State) (planId : Nat) (n : Nat) (h_s : Sound fuse s) :
    Sound fuse (State.dropAsm s planId n) := by
  unfold State.dropAsm
  repeat' (first
    | (intro _ _ _)
    | (with_reducible first
      | assumption)
    | dsimp only
    | simp only [sound_other])

theorem State.planPart_keeps (s : State) (n : Nat) (v : List Byte) (img : PlanImage) (h_s : Sound fuse s) :
    Sound fuse (State.planPart s n v img).2.2 := by
  unfold State.planPart
  repeat' (first
    | (intro _ _ _)
    | (with_reducible first
      | assumption
      | apply State.dropAsm_keeps
      | apply State.writeRegion_keeps
      | apply State.acceptPlan_keeps
      | (refine sound_snd (by assumption) ?_)
      | (refine sound_fst (by assumption) ?_))
    | dsimp only
    | simp only [sound_other]
    | split)

theorem execPlanIncomplete_keeps (planId : Nat) (s : State) (h_s : Kept fuse s) :
    AnsKept fuse (execPlanIncomplete planId s) := by
  unfold execPlanIncomplete
  first
    | (refine ansInv_inRange (by assumption) fun _ => Sound.inv ?_)
    | (refine ansInv_whenOn (by assumption) fun _ => Sound.inv ?_)
  repeat' (first
    | (intro _ _ _)
    | (with_reducible first
      | assumption
      | apply State.post_keeps
      | apply State.dropAsm_keeps
      | apply sound_foldl))

end Sys2Proof.Machine
end

