-- ==== Sys2Proof/Laws/KeepsHost.lean ====
section
/-! SUPPORT. The operations of Machine/Host.lean keep a state sound. -/

namespace Sys2Proof.Machine

open State

variable {fuse : Otp}

theorem State.setSlot_keeps (s : State) (k : Nat) (b : List Byte) (h_s : Sound fuse s) :
    Sound fuse (State.setSlot s k b) := by
  unfold State.setSlot
  repeat' (first
    | (intro _ _ _)
    | (with_reducible first
      | assumption)
    | dsimp only
    | simp only [sound_other])

theorem State.setSstate_keeps (s : State) (k : Nat) (v : Nat) (h_s : Sound fuse s) :
    Sound fuse (State.setSstate s k v) := by
  unfold State.setSstate
  repeat' (first
    | (intro _ _ _)
    | (with_reducible first
      | assumption
      | apply State.setSlot_keeps))

theorem State.popTaken_keeps (s : State) (h_s : Sound fuse s) :
    Sound fuse (State.popTaken s) := by
  unfold State.popTaken
  repeat' (first
    | (intro _ _ _)
    | (with_reducible first
      | assumption)
    | dsimp only
    | simp only [sound_other])

theorem State.slotEvent_keeps (s : State) (t : Taken) (name : Name) (why : Name) (detail : List Byte)
    (reply : List Byte) (kept : Bool) (h_s : Sound fuse s) :
    Sound fuse (State.slotEvent s t name why detail reply kept) := by
  unfold State.slotEvent
  repeat' (first
    | (intro _ _ _)
    | (with_reducible first
      | assumption
      | apply State.postFull_keeps
      | apply State.recordReply_keeps)
    | dsimp only
    | split)

theorem State.refuseSlot_keeps (s : State) (t : Taken) (why : Name) (kept : Bool) (h_s : Sound fuse s) :
    Sound fuse (State.refuseSlot s t why kept) := by
  unfold State.refuseSlot
  repeat' (first
    | (intro _ _ _)
    | (with_reducible first
      | assumption
      | apply State.popTaken_keeps
      | apply State.setSstate_keeps
      | apply State.bump_keeps
      | apply State.slotEvent_keeps))

theorem State.endSlot_keeps (s : State) (t : Taken) (name : Name) (detail : List Byte) (h_s : Sound fuse s) :
    Sound fuse (State.endSlot s t name detail) := by
  unfold State.endSlot
  repeat' (first
    | (intro _ _ _)
    | (with_reducible first
      | assumption
      | apply State.popTaken_keeps
      | apply State.setSstate_keeps
      | apply State.slotEvent_keeps))

theorem State.answerDict_keeps (s : State) (key : State) (t : Taken) (why : Name) (v : List Byte) (h_s : Sound fuse s) :
    Sound fuse (State.answerDict s key t why v) := by
  unfold State.answerDict
  repeat' (first
    | (intro _ _ _)
    | (with_reducible first
      | assumption
      | apply State.popTaken_keeps
      | apply State.slotEvent_keeps
      | apply State.setSlot_keeps))

theorem State.answerAgain_keeps (s : State) (t : Taken) (h_s : Sound fuse s) :
    Sound fuse (State.answerAgain s t) := by
  unfold State.answerAgain
  repeat' (first
    | (intro _ _ _)
    | (with_reducible first
      | assumption
      | apply State.popTaken_keeps
      | apply State.postFull_keeps
      | apply State.setSstate_keeps
      | apply State.setSlot_keeps
      | (refine sound_snd (by assumption) ?_)
      | (refine sound_fst (by assumption) ?_))
    | dsimp only
    | split)

theorem State.behindPlan_keeps (s : State) (t : Taken) (k : Nat) (h_s : Sound fuse s) {out : State}
    (e : State.behindPlan s t k = some out) :
    Sound fuse out := by
  unfold State.behindPlan at e
  try dsimp only at e
  repeat' (first
    | (simp only [Option.some.injEq, reduceCtorEq] at e)
    | (simp only [Option.map_eq_some_iff, Prod.mk.injEq] at e)
    | (obtain ⟨rfl, _⟩ := e)
    | (obtain ⟨_, _, _, rfl⟩ := e)
    | (obtain ⟨_, _, rfl⟩ := e)
    | (subst e)
    | (split at e))
  repeat' (first
    | (intro _ _ _)
    | (with_reducible first
      | assumption
      | (refine sound_snd (by assumption) ?_)
      | (refine sound_fst (by assumption) ?_))
    | dsimp only
    | simp only [sound_other])

theorem State.checkSlot_keeps (s : State) (t : Taken) (h_s : Sound fuse s) :
    Sound fuse (State.checkSlot s t) := by
  unfold State.checkSlot
  repeat' (first
    | (intro _ _ _)
    | (with_reducible first
      | assumption
      | apply State.refuseSlot_keeps
      | apply State.answerAgain_keeps
      | apply State.recordCounter_keeps
      | apply State.answerDict_keeps
      | (refine sound_snd (by assumption) ?_)
      | (refine sound_fst (by assumption) ?_))
    | dsimp only
    | simp only [sound_other]
    | split)

theorem State.advance_keeps (k : Nat) (s : State) (h : Sound fuse s) : Sound fuse (State.advance k s) := by
  induction k generalizing s with
  | zero => exact h
  | succ k ih =>
    unfold State.advance
    split
    · exact h
    · split
      · exact h
      · exact ih _ (State.checkSlot_keeps _ _ h)

theorem State.thenNext_keeps (s : State) (h_s : Sound fuse s) :
    Sound fuse (State.thenNext s) := by
  unfold State.thenNext
  repeat' (first
    | (intro _ _ _)
    | (with_reducible first
      | assumption
      | apply State.advance_keeps))

theorem State.blockedSweep_keeps (s : State) (n : Nat) (h_s : Sound fuse s) :
    Sound fuse (State.blockedSweep s n) := by
  unfold State.blockedSweep
  repeat' (first
    | (intro _ _ _)
    | (with_reducible first
      | assumption
      | apply State.setVat_keeps
      | apply State.freePages_keeps
      | apply State.dropReleased_keeps
      | apply State.endReleased_keeps
      | apply State.endLate_keeps)
    | dsimp only
    | simp only [sound_other]
    | split)

theorem State.hostStores_keeps (s : State) (l : List SlotWrite) (h_s : Sound fuse s) :
    Sound fuse (State.hostStores s l) := by
  unfold State.hostStores
  repeat' (first
    | (intro _ _ _)
    | (with_reducible first
      | assumption
      | apply State.setSlot_keeps
      | apply sound_foldl)
    | dsimp only
    | split)

theorem State.doSweep_keeps (s : State) (l : List SlotWrite) (h_s : Sound fuse s) :
    Sound fuse (State.doSweep s l) := by
  unfold State.doSweep
  repeat' (first
    | (intro _ _ _)
    | (with_reducible first
      | assumption
      | apply State.hostStores_keeps
      | apply State.bump_keeps
      | apply State.setSstate_keeps
      | apply State.thenNext_keeps
      | apply State.sweepFindings_keeps
      | apply State.blockedSweep_keeps
      | apply sound_foldl)
    | dsimp only
    | simp only [sound_other]
    | split)

theorem State.finishSlot_keeps (s : State) (t : Taken) (why : Name) (name : Name) (detail : List Byte) (h_s : Sound fuse s) :
    Sound fuse (State.finishSlot s t why name detail) := by
  unfold State.finishSlot
  repeat' (first
    | (intro _ _ _)
    | (with_reducible first
      | assumption
      | apply State.thenNext_keeps
      | apply State.endSlot_keeps
      | apply State.refuseSlot_keeps)
    | dsimp only
    | split)

theorem State.mapReq_keeps (s : State) (n : Nat) (tag : Nat) (f : Req → Req) (h_s : Sound fuse s) :
    Sound fuse (State.mapReq s n tag f) := by
  unfold State.mapReq
  repeat' (first
    | (intro _ _ _)
    | (with_reducible first
      | assumption
      | apply State.setVat_keeps
      | apply sound_foldl))

theorem State.cmdRequest_keeps (s : State) (t : Taken) (f : Req → Req) (h_s : Sound fuse s) :
    Sound fuse (State.cmdRequest s t f) := by
  unfold State.cmdRequest
  repeat' (first
    | (intro _ _ _)
    | (with_reducible first
      | assumption
      | apply State.finishSlot_keeps
      | apply State.mapReq_keeps)
    | dsimp only
    | simp only [sound_other]
    | split)

theorem State.cmdReward_keeps (s : State) (t : Taken) (h_s : Sound fuse s) :
    Sound fuse (State.cmdReward s t) := by
  unfold State.cmdReward
  repeat' (first
    | (intro _ _ _)
    | (with_reducible first
      | assumption
      | apply State.finishSlot_keeps
      | apply State.mapHead_keeps
      | (refine sound_snd (by assumption) ?_)
      | (refine sound_fst (by assumption) ?_))
    | dsimp only
    | split)

theorem State.cmdWithdraw_keeps (s : State) (t : Taken) (h_s : Sound fuse s) :
    Sound fuse (State.cmdWithdraw s t) := by
  unfold State.cmdWithdraw
  repeat' (first
    | (intro _ _ _)
    | (with_reducible first
      | assumption
      | apply State.finishSlot_keeps
      | apply State.setClr_keeps
      | apply sound_foldl)
    | dsimp only
    | simp only [sound_other]
    | split)

theorem State.dictRead_keeps (s : State) (t : Taken) (h_s : Sound fuse s) :
    Sound fuse (State.dictRead s t) := by
  unfold State.dictRead
  repeat' (first
    | (intro _ _ _)
    | (with_reducible first
      | assumption
      | apply State.thenNext_keeps
      | apply State.answerDict_keeps
      | (refine sound_snd (by assumption) ?_)
      | (refine sound_fst (by assumption) ?_))
    | dsimp only
    | split)

theorem State.dictWrite_keeps (s : State) (t : Taken) (h_s : Sound fuse s) :
    Sound fuse (State.dictWrite s t) := by
  unfold State.dictWrite
  repeat' (first
    | (intro _ _ _)
    | (with_reducible first
      | assumption
      | apply State.applyWrite_keeps
      | apply State.thenNext_keeps
      | apply State.answerDict_keeps))

theorem State.ackEvents_keeps (s : State) (v : Nat) (h_s : Sound fuse s) :
    Sound fuse (State.ackEvents s v) := by
  unfold State.ackEvents
  repeat' (first
    | (intro _ _ _)
    | (with_reducible first
      | assumption
      | apply State.updateRb_keeps)
    | dsimp only
    | simp only [sound_other])

theorem State.consumeRing_keeps (s : State) (off : Nat) (v : Nat) (h_s : Sound fuse s) :
    Sound fuse (State.consumeRing s off v) := by
  unfold State.consumeRing
  repeat' (first
    | (intro _ _ _)
    | (with_reducible first
      | assumption
      | apply State.setRing_keeps
      | apply State.setVat_keeps
      | (refine sound_snd (by assumption) ?_)
      | (refine sound_fst (by assumption) ?_))
    | dsimp only
    | simp only [sound_other]
    | split)

theorem State.barRefused_keeps (s : State) (why : Name) (h_s : Sound fuse s) :
    Sound fuse (State.barRefused s why) := by
  unfold State.barRefused
  repeat' (first
    | (intro _ _ _)
    | (with_reducible first
      | assumption
      | apply State.bump_keeps
      | apply State.wr_keeps))

theorem State.barWrite_keeps (s : State) (off : Nat) (v : List Byte) (h_s : Sound fuse s) :
    Sound fuse (State.barWrite s off v) := by
  unfold State.barWrite
  repeat' (first
    | (intro _ _ _)
    | (with_reducible first
      | assumption
      | apply State.barRefused_keeps
      | apply State.applyWrite_keeps
      | (refine sound_snd (by assumption) ?_)
      | (refine sound_fst (by assumption) ?_))
    | dsimp only
    | simp only [sound_other]
    | split)

theorem State.sendReply_keeps (s : State) (key : State) (fr : FieldFrame) (ftype : Nat) (why : Name) (total : Nat)
    (v : List Byte) (h_s : Sound fuse s) :
    Sound fuse (State.sendReply s key fr ftype why total v) := by
  unfold State.sendReply
  repeat' (first
    | (intro _ _ _)
    | (with_reducible first
      | assumption
      | apply State.emit_keeps
      | apply State.recordReply_keeps))

theorem State.renewTransfer_keeps (s : State) (p : List Byte) (h_s : Sound fuse s) :
    Sound fuse (State.renewTransfer s p) := by
  unfold State.renewTransfer
  repeat' (first
    | (intro _ _ _)
    | (with_reducible first
      | assumption)
    | dsimp only
    | simp only [sound_other])

theorem State.onFrame_keeps (s : State) (fr : FieldFrame) (ftype : Nat) (k : State → State) (h : Sound fuse s)
    (hk : ∀ s, Sound fuse s → Sound fuse (k s)) : Sound fuse (State.onFrame s fr ftype k) := by
  unfold State.onFrame
  extract_lets p len sess whole
  split
  · exact h
  split
  · exact State.emit_keeps _ _ h
  split
  · exact State.emit_keeps _ _ h
  · split
    · exact State.emit_keeps _ _ h
    · exact h
  · refine hk _ ?_
    split
    · exact h
    · exact State.recordCounter_keeps _ _ _ _ h

theorem State.closeTransfer_keeps (s : State) (key : Nat) (sess : Nat) (h_s : Sound fuse s) :
    Sound fuse (State.closeTransfer s key sess) := by
  unfold State.closeTransfer
  repeat' (first
    | (intro _ _ _)
    | (with_reducible first
      | assumption)
    | dsimp only
    | simp only [sound_other])

theorem State.keepTransfer_keeps (s : State) (t : Transfer) (h_s : Sound fuse s) :
    Sound fuse (State.keepTransfer s t) := by
  unfold State.keepTransfer
  repeat' (first
    | (intro _ _ _)
    | (with_reducible first
      | assumption
      | apply State.closeTransfer_keeps)
    | dsimp only
    | simp only [sound_other])

theorem State.frameRead_keeps (s : State) (fr : FieldFrame) (h_s : Sound fuse s) :
    Sound fuse (State.frameRead s fr) := by
  unfold State.frameRead
  repeat' (first
    | (intro _ _ _)
    | (with_reducible first
      | assumption
      | apply State.sendReply_keeps
      | (refine sound_snd (by assumption) ?_)
      | (refine sound_fst (by assumption) ?_))
    | dsimp only
    | split)

theorem State.frameWrite_keeps (s : State) (fr : FieldFrame) (h_s : Sound fuse s) :
    Sound fuse (State.frameWrite s fr) := by
  unfold State.frameWrite
  repeat' (first
    | (intro _ _ _)
    | (with_reducible first
      | assumption
      | apply State.applyWrite_keeps
      | apply State.sendReply_keeps))

theorem State.sendSegment_keeps (s : State) (fr : FieldFrame) (t : Transfer) (h_s : Sound fuse s) :
    Sound fuse (State.sendSegment s fr t) := by
  unfold State.sendSegment
  repeat' (first
    | (intro _ _ _)
    | (with_reducible first
      | assumption
      | apply State.closeTransfer_keeps
      | apply State.keepTransfer_keeps
      | apply State.sendReply_keeps)
    | dsimp only
    | simp only [sound_other]
    | split)

theorem State.frameSegRead_keeps (s : State) (fr : FieldFrame) (h_s : Sound fuse s) :
    Sound fuse (State.frameSegRead s fr) := by
  unfold State.frameSegRead
  repeat' (first
    | (intro _ _ _)
    | (with_reducible first
      | assumption
      | apply State.sendReply_keeps
      | apply State.renewTransfer_keeps
      | apply State.sendSegment_keeps
      | (refine sound_snd (by assumption) ?_)
      | (refine sound_fst (by assumption) ?_))
    | dsimp only
    | simp only [sound_other]
    | split)

theorem State.takeSegment_keeps (s : State) (fr : FieldFrame) (t : Transfer) (h_s : Sound fuse s) :
    Sound fuse (State.takeSegment s fr t) := by
  unfold State.takeSegment
  repeat' (first
    | (intro _ _ _)
    | (with_reducible first
      | assumption
      | apply State.sendReply_keeps
      | apply State.renewTransfer_keeps
      | apply State.keepTransfer_keeps
      | apply State.applyWrite_keeps
      | apply State.closeTransfer_keeps
      | (refine sound_snd (by assumption) ?_)
      | (refine sound_fst (by assumption) ?_))
    | dsimp only
    | simp only [sound_other]
    | split)

theorem State.frameSegWrite_keeps (s : State) (fr : FieldFrame) (h_s : Sound fuse s) :
    Sound fuse (State.frameSegWrite s fr) := by
  unfold State.frameSegWrite
  repeat' (first
    | (intro _ _ _)
    | (with_reducible first
      | assumption
      | apply State.sendReply_keeps
      | apply State.renewTransfer_keeps
      | apply State.takeSegment_keeps
      | (refine sound_snd (by assumption) ?_)
      | (refine sound_fst (by assumption) ?_))
    | dsimp only
    | simp only [sound_other]
    | split)

theorem State.frameAbort_keeps (s : State) (fr : FieldFrame) (h_s : Sound fuse s) :
    Sound fuse (State.frameAbort s fr) := by
  unfold State.frameAbort
  repeat' (first
    | (intro _ _ _)
    | (with_reducible first
      | assumption
      | apply State.sendReply_keeps
      | apply State.closeTransfer_keeps))

theorem execSweep_keeps (writes : List SlotWrite) (s : State) (h_s : Kept fuse s) :
    AnsKept fuse (execSweep writes s) := by
  unfold execSweep
  first
    | (refine ansInv_inRange (by assumption) fun _ => Sound.inv ?_)
    | (refine ansInv_whenOn (by assumption) fun _ => Sound.inv ?_)
  repeat' (first
    | (intro _ _ _)
    | (with_reducible first
      | assumption
      | apply State.doSweep_keeps
      | apply sound_onlyIf))

theorem execPlanPart_keeps (slot : Nat) (image : PlanImage) (s : State) (h_s : Kept fuse s) :
    AnsKept fuse (execPlanPart slot image s) := by
  unfold execPlanPart
  first
    | (refine ansInv_inRange (by assumption) fun _ => Sound.inv ?_)
  repeat' (first
    | (intro _ _ _)
    | (with_reducible first
      | assumption
      | apply State.planPart_keeps
      | apply State.finishSlot_keeps
      | (refine sound_snd (by assumption) ?_)
      | (refine sound_fst (by assumption) ?_))
    | dsimp only
    | split)

theorem execVatRequest_keeps (slot : Nat) (s : State) (h_s : Kept fuse s) :
    AnsKept fuse (execVatRequest slot s) := by
  unfold execVatRequest
  first
    | (refine ansInv_inRange (by assumption) fun _ => Sound.inv ?_)
  repeat' (first
    | (intro _ _ _)
    | (with_reducible first
      | assumption
      | (refine State.acceptRequest_keeps _ _ _ _ _ _ ?_ (by assumption))
      | apply State.finishSlot_keeps
      | apply State.bumpLive_keeps
      | (refine sound_snd (by assumption) ?_)
      | (refine sound_fst (by assumption) ?_))
    | dsimp only
    | split)

theorem execCancel_keeps (slot : Nat) (s : State) (h_s : Kept fuse s) :
    AnsKept fuse (execCancel slot s) := by
  unfold execCancel
  first
    | (refine ansInv_inRange (by assumption) fun _ => Sound.inv ?_)
  repeat' (first
    | (intro _ _ _)
    | (with_reducible first
      | assumption
      | apply State.cmdRequest_keeps
      | (refine sound_snd (by assumption) ?_)
      | (refine sound_fst (by assumption) ?_))
    | dsimp only
    | simp only [sound_other]
    | split)

theorem execPause_keeps (slot : Nat) (s : State) (h_s : Kept fuse s) :
    AnsKept fuse (execPause slot s) := by
  unfold execPause
  first
    | (refine ansInv_inRange (by assumption) fun _ => Sound.inv ?_)
  repeat' (first
    | (intro _ _ _)
    | (with_reducible first
      | assumption
      | apply State.cmdRequest_keeps
      | (refine sound_snd (by assumption) ?_)
      | (refine sound_fst (by assumption) ?_))
    | dsimp only
    | simp only [sound_other]
    | split)

theorem execReward_keeps (slot : Nat) (s : State) (h_s : Kept fuse s) :
    AnsKept fuse (execReward slot s) := by
  unfold execReward
  first
    | (refine ansInv_inRange (by assumption) fun _ => Sound.inv ?_)
  repeat' (first
    | (intro _ _ _)
    | (with_reducible first
      | assumption
      | apply State.cmdReward_keeps
      | (refine sound_snd (by assumption) ?_)
      | (refine sound_fst (by assumption) ?_))
    | dsimp only
    | split)

theorem execPlanWithdraw_keeps (slot : Nat) (s : State) (h_s : Kept fuse s) :
    AnsKept fuse (execPlanWithdraw slot s) := by
  unfold execPlanWithdraw
  first
    | (refine ansInv_inRange (by assumption) fun _ => Sound.inv ?_)
  repeat' (first
    | (intro _ _ _)
    | (with_reducible first
      | assumption
      | apply State.cmdWithdraw_keeps
      | (refine sound_snd (by assumption) ?_)
      | (refine sound_fst (by assumption) ?_))
    | dsimp only
    | split)

theorem execDictSlotRead_keeps (slot : Nat) (s : State) (h_s : Kept fuse s) :
    AnsKept fuse (execDictSlotRead slot s) := by
  unfold execDictSlotRead
  first
    | (refine ansInv_inRange (by assumption) fun _ => Sound.inv ?_)
  repeat' (first
    | (intro _ _ _)
    | (with_reducible first
      | assumption
      | apply State.dictRead_keeps
      | (refine sound_snd (by assumption) ?_)
      | (refine sound_fst (by assumption) ?_))
    | dsimp only
    | split)

theorem execDictSlotWrite_keeps (slot : Nat) (s : State) (plan : Option Nat) (h_s : Kept fuse s) :
    AnsKept fuse (execDictSlotWrite slot s plan) := by
  unfold execDictSlotWrite
  refine ansInv_inRange (by assumption) fun h => Sound.inv ?_
  split
  · split
    · rename_i e
      obtain ⟨_, _, e⟩ := Option.bind_eq_some_iff.mp e
      exact State.thenNext_keeps _ (State.behindPlan_keeps _ _ _ h e)
    · exact State.dictWrite_keeps _ _ h
  · exact h

theorem execRead_keeps (fr : FieldFrame) (s : State) (h_s : Kept fuse s) :
    AnsKept fuse (execRead fr s) := by
  unfold execRead
  first
    | (refine ansInv_inRange (by assumption) fun _ => Sound.inv ?_)
    | (refine ansInv_whenOn (by assumption) fun _ => Sound.inv ?_)
  repeat' (first
    | (intro _ _ _)
    | (intro _ _)
    | (with_reducible first
      | assumption
      | apply State.onFrame_keeps
      | apply State.frameRead_keeps))

theorem execWrite_keeps (fr : FieldFrame) (s : State) (h_s : Kept fuse s) :
    AnsKept fuse (execWrite fr s) := by
  unfold execWrite
  first
    | (refine ansInv_inRange (by assumption) fun _ => Sound.inv ?_)
    | (refine ansInv_whenOn (by assumption) fun _ => Sound.inv ?_)
  repeat' (first
    | (intro _ _ _)
    | (intro _ _)
    | (with_reducible first
      | assumption
      | apply State.onFrame_keeps
      | apply State.frameWrite_keeps))

theorem execSegRead_keeps (fr : FieldFrame) (s : State) (h_s : Kept fuse s) :
    AnsKept fuse (execSegRead fr s) := by
  unfold execSegRead
  first
    | (refine ansInv_inRange (by assumption) fun _ => Sound.inv ?_)
    | (refine ansInv_whenOn (by assumption) fun _ => Sound.inv ?_)
  repeat' (first
    | (intro _ _ _)
    | (intro _ _)
    | (with_reducible first
      | assumption
      | apply State.onFrame_keeps
      | apply State.frameSegRead_keeps))

theorem execSegWrite_keeps (fr : FieldFrame) (s : State) (h_s : Kept fuse s) :
    AnsKept fuse (execSegWrite fr s) := by
  unfold execSegWrite
  first
    | (refine ansInv_inRange (by assumption) fun _ => Sound.inv ?_)
    | (refine ansInv_whenOn (by assumption) fun _ => Sound.inv ?_)
  repeat' (first
    | (intro _ _ _)
    | (intro _ _)
    | (with_reducible first
      | assumption
      | apply State.onFrame_keeps
      | apply State.frameSegWrite_keeps))

theorem execAbort_keeps (fr : FieldFrame) (s : State) (h_s : Kept fuse s) :
    AnsKept fuse (execAbort fr s) := by
  unfold execAbort
  first
    | (refine ansInv_inRange (by assumption) fun _ => Sound.inv ?_)
    | (refine ansInv_whenOn (by assumption) fun _ => Sound.inv ?_)
  repeat' (first
    | (intro _ _ _)
    | (intro _ _)
    | (with_reducible first
      | assumption
      | apply State.onFrame_keeps
      | apply State.frameAbort_keeps))

theorem execTransferTimeout_keeps (idx : Nat) (sub : Nat) (sess : Nat) (s : State) (h_s : Kept fuse s) :
    AnsKept fuse (execTransferTimeout idx sub sess s) := by
  unfold execTransferTimeout
  first
    | (refine ansInv_inRange (by assumption) fun _ => Sound.inv ?_)
    | (refine ansInv_whenOn (by assumption) fun _ => Sound.inv ?_)
  repeat' (first
    | (intro _ _ _)
    | (with_reducible first
      | assumption
      | apply State.closeTransfer_keeps
      | apply sound_onlyIf))

theorem execBar0Write_keeps (off : Nat) (v : List Byte) (s : State) (h_s : Kept fuse s) :
    AnsKept fuse (execBar0Write off v s) := by
  unfold execBar0Write
  first
    | (refine ansInv_inRange (by assumption) fun _ => Sound.inv ?_)
    | (refine ansInv_whenOn (by assumption) fun _ => Sound.inv ?_)
  repeat' (first
    | (intro _ _ _)
    | (with_reducible first
      | assumption
      | apply State.barWrite_keeps
      | apply sound_onlyIf))

theorem execEvAckedWrite_keeps (v : Nat) (s : State) (h_s : Kept fuse s) :
    AnsKept fuse (execEvAckedWrite v s) := by
  unfold execEvAckedWrite
  first
    | (refine ansInv_inRange (by assumption) fun _ => Sound.inv ?_)
    | (refine ansInv_whenOn (by assumption) fun _ => Sound.inv ?_)
  repeat' (first
    | (intro _ _ _)
    | (with_reducible first
      | assumption
      | apply State.ackEvents_keeps
      | apply sound_onlyIf))

theorem execRingConsumedWrite_keeps (ring : Nat) (v : Nat) (s : State) (h_s : Kept fuse s) :
    AnsKept fuse (execRingConsumedWrite ring v s) := by
  unfold execRingConsumedWrite
  first
    | (refine ansInv_inRange (by assumption) fun _ => Sound.inv ?_)
    | (refine ansInv_whenOn (by assumption) fun _ => Sound.inv ?_)
  repeat' (first
    | (intro _ _ _)
    | (with_reducible first
      | assumption
      | apply State.consumeRing_keeps
      | apply sound_onlyIf))

end Sys2Proof.Machine
end

