-- ==== Sys2Proof/Laws/KeepsStart.lean ====
section
/-! SUPPORT. The operations of Machine/Start.lean keep a state sound. -/

namespace Sys2Proof.Machine

open State

variable {fuse : Otp}

theorem State.phase_keeps (s : State) (k : Nat) (h_s : Sound fuse s) :
    Sound fuse (State.phase s k) := by
  unfold State.phase
  repeat' (first
    | (intro _ _ _)
    | (with_reducible first
      | assumption
      | apply State.wr_keeps))

theorem State.startFails_keeps (s : State) (step : Nat) (device : Nat) (h_s : Sound fuse s) :
    Sound fuse (State.startFails s step device) := by
  unfold State.startFails
  repeat' (first
    | (intro _ _ _)
    | (with_reducible first
      | assumption
      | apply State.postAll_keeps))

theorem State.powerUp_keeps (s : State) (e : StartEnv) (h : Kept fuse s) : Sound fuse (State.powerUp s e) := by
  unfold State.powerUp
  extract_lets o1 o r s0 s1 s2
  have h0 : Sound fuse s0 := ⟨by simp [s0], ⟨rfl, h.1.1.2⟩, h.1.2.1, Otp.grows_start h.2⟩
  have h1 : Sound fuse s1 := sound_foldl h0 fun _ _ hs => State.wr_keeps _ _ _ _ (State.wr_keeps _ _ _ _ hs)
  have h2 : Sound fuse s2 := State.wr_keeps _ _ _ _ (State.wr_keeps _ _ _ _ (State.wr_keeps _ _ _ _
    (State.wr_keeps _ _ _ _ h1)))
  exact State.wrBlob_keeps _ _ _ _ (State.wrBlob_keeps _ _ _ _ h2)

theorem State.bootStep_keeps (s : State) (k : Nat) (h_s : Sound fuse s) :
    Sound fuse (State.bootStep s k) := by
  unfold State.bootStep
  repeat' (first
    | (intro _ _ _)
    | (with_reducible first
      | assumption
      | apply State.phase_keeps
      | apply State.wr_keeps))

theorem State.securityStep_keeps (s : State) (ok : Bool) (h_s : Sound fuse s) :
    Sound fuse (State.securityStep s ok) := by
  unfold State.securityStep
  repeat' (first
    | (intro _ _ _)
    | (with_reducible first
      | assumption
      | apply State.drbg_keeps
      | apply State.wr_keeps
      | apply State.wrBlob_keeps)
    | dsimp only
    | simp only [sound_other]
    | split)

theorem State.loadRecord_keeps (s : State) (r : Nat × List Byte) (h_s : Sound fuse s) :
    Sound fuse (State.loadRecord s r) := by
  unfold State.loadRecord
  repeat' (first
    | (intro _ _ _)
    | (with_reducible first
      | assumption
      | apply State.applyRecord_keeps
      | apply State.bump_keeps)
    | dsimp only
    | split)

theorem State.bankLoaded_keeps (s : State) (k : Option Nat) (h : Sound fuse s) :
    Sound fuse { s with flash := { s.flash with lastBank := k } } := h

theorem State.bankStep_keeps (s : State) (h : Sound fuse s) : Sound fuse (State.bankStep s) := by
  unfold State.bankStep
  extract_lets s1
  have h1 : Sound fuse s1 := by
    simp only [s1]
    cases hb : s.bankChoice with
    | none => exact h
    | some a =>
      exact State.bankLoaded_keeps _ _ (State.wr_keeps _ _ _ _ (State.wr_keeps _ _ _ _
        (sound_foldl h fun _ _ hs => State.loadRecord_keeps _ _ hs)))
  exact State.wr_keeps _ _ _ _ (sound_withPower _ h1 h1.1)

theorem State.pathStep_keeps (s : State) (fieldId : Nat) (h_s : Sound fuse s) :
    Sound fuse (State.pathStep s fieldId) := by
  unfold State.pathStep
  repeat' (first
    | (intro _ _ _)
    | (with_reducible first
      | assumption
      | apply State.phase_keeps
      | apply State.wr_keeps)
    | dsimp only
    | simp only [sound_other]
    | simp only [sound_power])

theorem State.mapRetired_keeps (s : State) (g : Nat) (p : Nat) (h_s : Sound fuse s) :
    Sound fuse (State.mapRetired s g p) := by
  unfold State.mapRetired
  repeat' (first
    | (intro _ _ _)
    | (with_reducible first
      | assumption
      | apply State.wr_keeps
      | apply State.setMap_keeps
      | apply State.multiplexOnto_keeps
      | apply sound_foldl
      | (refine sound_snd (by assumption) ?_)
      | (refine sound_fst (by assumption) ?_))
    | dsimp only
    | split)

theorem State.testGrove_keeps (s : State) (e : StartEnv) (g : Nat) (h_s : Sound fuse s) :
    Sound fuse (State.testGrove s e g) := by
  unfold State.testGrove
  repeat' (first
    | (intro _ _ _)
    | (with_reducible first
      | assumption
      | apply State.installProgram_keeps
      | apply State.setGrove_keeps
      | apply State.mapRetired_keeps
      | apply State.checkGrove_keeps
      | apply State.wr_keeps
      | apply State.measureMargin_keeps
      | apply sound_foldl))

theorem State.judgeTag_keeps (s : State) (kind : Nat) (t : Option (List Byte)) (h_s : Sound fuse s) :
    Sound fuse (State.judgeTag s kind t) := by
  unfold State.judgeTag
  repeat' (first
    | (intro _ _ _)
    | (with_reducible first
      | assumption
      | apply State.postAll_keeps
      | (refine sound_snd (by assumption) ?_)
      | (refine sound_fst (by assumption) ?_))
    | dsimp only
    | split)

theorem State.portStep_keeps (s : State) (e : StartEnv) (h_s : Sound fuse s) :
    Sound fuse (State.portStep s e) := by
  unfold State.portStep
  repeat' (first
    | (intro _ _ _)
    | (with_reducible first
      | assumption
      | apply State.bringUp_keeps
      | apply State.judgePeer_keeps
      | apply sound_foldl
      | apply sound_foldl_fst
      | apply sound_foldl_snd)
    | dsimp only
    | split)

theorem State.enteredRun_keeps (s : State) (k : Nat) (h : Hub) (p : Power) (hs : Sound fuse s) (hk : k ≤ 63)
    (hp : p.mode ≠ .off) : Sound fuse { s with
      power := p, otp := { s.otp with rollback := max s.otp.rollback k }, hub := h } :=
  ⟨hp, hs.2.1, ⟨hs.2.2.1.1, hs.2.2.1.2.1, Nat.max_le.mpr ⟨hs.2.2.1.2.2.1, hk⟩, hs.2.2.1.2.2.2⟩,
    Otp.grows_rollback hs.2.2.2 _⟩

theorem State.enterRun_keeps (s : State) (e : StartEnv) (found : List Name) (h : Sound fuse s) :
    Sound fuse (State.enterRun s e found) := by
  unfold State.enterRun
  extract_lets level old
  refine sound_foldl (sound_foldl (State.postAll_keeps _ _ _ _ (State.wr_keeps _ _ _ _ (State.phase_keeps _ _
    (State.enteredRun_keeps _ _ _ _ h (Nat.min_le_left ..) ?_)))) fun _ _ hs => State.postAll_keeps _ _ _ _ hs)
    fun _ _ hs => State.postFull_keeps _ _ _ _ _ _ _ hs
  simp

theorem State.lateSteps_keeps (s : State) (e : StartEnv) (found : List Name) (h_s : Sound fuse s) :
    Sound fuse (State.lateSteps s e found) := by
  unfold State.lateSteps
  repeat' (first
    | (intro _ _ _)
    | (with_reducible first
      | assumption
      | apply State.startFails_keeps
      | apply State.setSupply_keeps
      | apply State.enterRun_keeps
      | apply State.failGroup_keeps
      | apply State.testGrove_keeps
      | apply State.judgeTag_keeps
      | apply State.postAll_keeps
      | apply State.portStep_keeps
      | apply sound_foldl
      | (refine sound_snd (by assumption) ?_)
      | (refine sound_fst (by assumption) ?_))
    | dsimp only
    | simp only [sound_other]
    | split)

theorem State.startUp_keeps (s : State) (e : StartEnv) (h : Kept fuse s) : Sound fuse (State.startUp s e) := by
  unfold State.startUp
  extract_lets s0
  have h0 : Sound fuse s0 := State.powerUp_keeps _ _ h
  clear_value s0
  split
  · exact State.startFails_keeps _ _ _ h0
  cases bootImage s0.otp s0.flash with
  | none => exact State.startFails_keeps _ _ _ (State.phase_keeps _ _ h0)
  | some a =>
    exact State.lateSteps_keeps _ _ _ (State.pathStep_keeps _ _ (State.bankStep_keeps _
      (State.securityStep_keeps _ _ (State.bootStep_keeps _ _ h0))))

theorem execStart_keeps (e : StartEnv) (s : State) (h : Kept fuse s) : AnsKept fuse (execStart e s) := by
  unfold execStart
  refine ansInv_next ?_
  unfold onlyIf
  split
  · exact (State.startUp_keeps _ _ h).inv
  · exact h

end Sys2Proof.Machine
end

