-- ==== Sys2Proof/Laws/PerInstr.lean ====
section
/-! SUPPORT. Statements made per command: one lemma per constructor. -/

namespace Sys2Proof.Laws

open Machine

theorem inRange_total (ok : Bool) (s k : State) :
    (ok = false → inRange ok s k = .fault .numbering) ∧ (ok = true → ∃ t, inRange ok s k = .next t) := by
  cases ok with
  | false => exact ⟨fun _ => rfl, fun e => (nomatch e)⟩
  | true =>
    refine ⟨fun e => (nomatch e), fun _ => ?_⟩
    cases h : s.on with
    | false => exact ⟨s, by simp [inRange, whenOn, h]⟩
    | true => exact ⟨k, by simp [inRange, whenOn, h]⟩

theorem whenOn_total (s k : State) :
    (true = false → whenOn s k = .fault .numbering) ∧ (true = true → ∃ t, whenOn s k = .next t) := by
  refine ⟨fun e => (nomatch e), fun _ => ?_⟩
  cases h : s.on with
  | false => exact ⟨s, by simp [whenOn, h]⟩
  | true => exact ⟨k, by simp [whenOn, h]⟩

theorem next_total (t : State) :
    (true = false → (Host.Outcome.next t : Ans) = .fault .numbering) ∧ (true = true → ∃ u,
      (Host.Outcome.next t : Ans) = .next u) :=
  ⟨fun e => (nomatch e), fun _ => ⟨t, rfl⟩⟩

/-- A command stops exactly when a number it carries numbers no resource of the module (00 R10). -/
def Wf.Statement (i : Instr) : Prop :=
  ∀ s, (i.wf = false → exec i s = .fault .numbering) ∧ (i.wf = true → ∃ t, exec i s = .next t)

theorem Wf.start (env : StartEnv) : Wf.Statement (.start env) :=
  fun _ => next_total _
theorem Wf.powerOff (cause : OffCause) : Wf.Statement (.powerOff cause) :=
  fun _ => whenOn_total _ _
theorem Wf.moduleReset (sess : Nat) : Wf.Statement (.moduleReset sess) :=
  fun _ => whenOn_total _ _
theorem Wf.hold (sess : Nat) : Wf.Statement (.hold sess) :=
  fun _ => whenOn_total _ _
theorem Wf.holdDone : Wf.Statement (.holdDone) :=
  fun _ => whenOn_total _ _
theorem Wf.resume (sess : Nat) : Wf.Statement (.resume sess) :=
  fun _ => whenOn_total _ _
theorem Wf.capControlTick (mv ma w : Nat) : Wf.Statement (.capControlTick mv ma w) :=
  fun _ => whenOn_total _ _
theorem Wf.thermalWarn (g : Nat) (mC : Int) : Wf.Statement (.thermalWarn g mC) :=
  fun _ => inRange_total _ _ _
theorem Wf.thermalTrip (die : Nat) (mC : Int) : Wf.Statement (.thermalTrip die mC) :=
  fun _ => inRange_total _ _ _
theorem Wf.thermRelease (temps : List (Nat × Int)) : Wf.Statement (.thermRelease temps) :=
  fun _ => whenOn_total _ _
theorem Wf.thermalHotTimeout (die : Nat) (mC : Int) : Wf.Statement (.thermalHotTimeout die mC) :=
  fun _ => inRange_total _ _ _
theorem Wf.coolantLow (flow : Nat) (tin tout : Int) : Wf.Statement (.coolantLow flow tin tout) :=
  fun _ => whenOn_total _ _
theorem Wf.rateMeasure (die beats : Nat) : Wf.Statement (.rateMeasure die beats) :=
  fun _ => inRange_total _ _ _
theorem Wf.regRefill (n res dir : Nat) : Wf.Statement (.regRefill n res dir) :=
  fun _ => inRange_total _ _ _
theorem Wf.perstAssert : Wf.Statement (.perstAssert) :=
  fun _ => next_total _
theorem Wf.perstRelease : Wf.Statement (.perstRelease) :=
  fun _ => next_total _
theorem Wf.sweep (writes : List SlotWrite) : Wf.Statement (.sweep writes) :=
  fun _ => whenOn_total _ _
theorem Wf.planPart (slot : Nat) (image : PlanImage) : Wf.Statement (.planPart slot image) :=
  fun _ => inRange_total _ _ _
theorem Wf.planIncomplete (planId : Nat) : Wf.Statement (.planIncomplete planId) :=
  fun _ => whenOn_total _ _
theorem Wf.vatRequest (slot : Nat) : Wf.Statement (.vatRequest slot) :=
  fun _ => inRange_total _ _ _
theorem Wf.cancel (slot : Nat) : Wf.Statement (.cancel slot) :=
  fun _ => inRange_total _ _ _
theorem Wf.pause (slot : Nat) : Wf.Statement (.pause slot) :=
  fun _ => inRange_total _ _ _
theorem Wf.reward (slot : Nat) : Wf.Statement (.reward slot) :=
  fun _ => inRange_total _ _ _
theorem Wf.planWithdraw (slot : Nat) : Wf.Statement (.planWithdraw slot) :=
  fun _ => inRange_total _ _ _
theorem Wf.dictSlotRead (slot : Nat) : Wf.Statement (.dictSlotRead slot) :=
  fun _ => inRange_total _ _ _
theorem Wf.dictSlotWrite (slot : Nat) (plan : Option Nat) : Wf.Statement (.dictSlotWrite slot plan) :=
  fun _ => inRange_total _ _ _
theorem Wf.registerWrite (sess idx sub : Nat) (v : List Byte) : Wf.Statement (.registerWrite sess idx sub v) :=
  fun _ => whenOn_total _ _
theorem Wf.read (fr : FieldFrame) : Wf.Statement (.read fr) :=
  fun _ => whenOn_total _ _
theorem Wf.write (fr : FieldFrame) : Wf.Statement (.write fr) :=
  fun _ => whenOn_total _ _
theorem Wf.segRead (fr : FieldFrame) : Wf.Statement (.segRead fr) :=
  fun _ => whenOn_total _ _
theorem Wf.segWrite (fr : FieldFrame) : Wf.Statement (.segWrite fr) :=
  fun _ => whenOn_total _ _
theorem Wf.abort (fr : FieldFrame) : Wf.Statement (.abort fr) :=
  fun _ => whenOn_total _ _
theorem Wf.transferTimeout (idx sub sess : Nat) : Wf.Statement (.transferTimeout idx sub sess) :=
  fun _ => whenOn_total _ _
theorem Wf.bar0Write (off : Nat) (v : List Byte) : Wf.Statement (.bar0Write off v) :=
  fun _ => whenOn_total _ _
theorem Wf.apertureLoad (sess : Nat) : Wf.Statement (.apertureLoad sess) :=
  fun _ => whenOn_total _ _
theorem Wf.apertureCommit (sess : Nat) : Wf.Statement (.apertureCommit sess) :=
  fun _ => whenOn_total _ _
theorem Wf.evAckedWrite (v : Nat) : Wf.Statement (.evAckedWrite v) :=
  fun _ => whenOn_total _ _
theorem Wf.ringConsumedWrite (ring v : Nat) : Wf.Statement (.ringConsumedWrite ring v) :=
  fun _ => whenOn_total _ _
theorem Wf.store (sess : Nat) : Wf.Statement (.store sess) :=
  fun _ => whenOn_total _ _
theorem Wf.resetDefaults (sess : Nat) : Wf.Statement (.resetDefaults sess) :=
  fun _ => whenOn_total _ _
theorem Wf.storeDone : Wf.Statement (.storeDone) :=
  fun _ => whenOn_total _ _
theorem Wf.fwStageDataWrite (sess : Nat) (v : List Byte) : Wf.Statement (.fwStageDataWrite sess v) :=
  fun _ => whenOn_total _ _
theorem Wf.erase (sess : Nat) : Wf.Statement (.erase sess) :=
  fun _ => whenOn_total _ _
theorem Wf.verify (sess : Nat) : Wf.Statement (.verify sess) :=
  fun _ => whenOn_total _ _
theorem Wf.select (sess : Nat) : Wf.Statement (.select sess) :=
  fun _ => whenOn_total _ _
theorem Wf.restore (sess n : Nat) (newer older : GenCheck) : Wf.Statement (.restore sess n newer older) :=
  fun _ => inRange_total _ _ _
theorem Wf.restoreOlder (sess n : Nat) (newer older : GenCheck) : Wf.Statement (.restoreOlder sess n newer older) :=
  fun _ => inRange_total _ _ _
theorem Wf.restoreDone (n : Nat) (blocks : List (Nat × List Byte)) (bad : Option Nat) (told : Option GenCheck)
    (more : List ShardLoad) (epoch : Option Nat) :
    Wf.Statement (.restoreDone n blocks bad told more epoch) :=
  fun _ => inRange_total _ _ _
theorem Wf.arbClear (sess : Nat) : Wf.Statement (.arbClear sess) :=
  fun _ => whenOn_total _ _
theorem Wf.healthClear (sess n : Nat) : Wf.Statement (.healthClear sess n) :=
  fun _ => inRange_total _ _ _
theorem Wf.cellarTtlEnableWrite (sess v : Nat) : Wf.Statement (.cellarTtlEnableWrite sess v) :=
  fun _ => whenOn_total _ _
theorem Wf.attestReportRead (sess : Nat) : Wf.Statement (.attestReportRead sess) :=
  fun _ => whenOn_total _ _
theorem Wf.sessionOpenManager (sess : Nat) (v : List Byte) : Wf.Statement (.sessionOpenManager sess v) :=
  fun _ => whenOn_total _ _
theorem Wf.sessionOpenTenant (sess : Nat) (v : List Byte) : Wf.Statement (.sessionOpenTenant sess v) :=
  fun _ => whenOn_total _ _
theorem Wf.commission (sess : Nat) (v : List Byte) : Wf.Statement (.commission sess v) :=
  fun _ => whenOn_total _ _
theorem Wf.close (sess : Nat) (v : List Byte) : Wf.Statement (.close sess v) :=
  fun _ => whenOn_total _ _
theorem Wf.sessionTimeout (session : Nat) : Wf.Statement (.sessionTimeout session) :=
  fun _ => whenOn_total _ _
theorem Wf.keyWrappedWrite (sess n : Nat) (v : List Byte) : Wf.Statement (.keyWrappedWrite sess n v) :=
  fun _ => inRange_total _ _ _
theorem Wf.keyOpeningDone (n : Nat) : Wf.Statement (.keyOpeningDone n) :=
  fun _ => inRange_total _ _ _
theorem Wf.cryptoError : Wf.Statement (.cryptoError) :=
  fun _ => whenOn_total _ _
theorem Wf.create (sess n : Nat) : Wf.Statement (.create sess n) :=
  fun _ => inRange_total _ _ _
theorem Wf.clearingCreated (n : Nat) : Wf.Statement (.clearingCreated n) :=
  fun _ => inRange_total _ _ _
theorem Wf.resize (sess n : Nat) : Wf.Statement (.resize sess n) :=
  fun _ => inRange_total _ _ _
theorem Wf.destroy (sess n : Nat) : Wf.Statement (.destroy sess n) :=
  fun _ => inRange_total _ _ _
theorem Wf.clearingDestroyed (n : Nat) : Wf.Statement (.clearingDestroyed n) :=
  fun _ => inRange_total _ _ _
theorem Wf.microprogWrite (sess entry sub : Nat) (v : List Byte) :
    Wf.Statement (.microprogWrite sess entry sub v) :=
  fun _ => inRange_total _ _ _
theorem Wf.mpTableWrite (sess : Nat) (v : List Byte) : Wf.Statement (.mpTableWrite sess v) :=
  fun _ => whenOn_total _ _
theorem Wf.microprogLoaded (entry : Nat) : Wf.Statement (.microprogLoaded entry) :=
  fun _ => inRange_total _ _ _
theorem Wf.quotaScrubDone (n : Nat) : Wf.Statement (.quotaScrubDone n) :=
  fun _ => inRange_total _ _ _
theorem Wf.gwDatagram (port : Nat) (d : GwDatagram) : Wf.Statement (.gwDatagram port d) :=
  fun _ => inRange_total _ _ _
theorem Wf.tileLoad (g c : Nat) (desc : List Byte) : Wf.Statement (.tileLoad g c desc) :=
  fun _ => inRange_total _ _ _
theorem Wf.tilePick (g c : Nat) (cls : TileClass) : Wf.Statement (.tilePick g c cls) :=
  fun _ => inRange_total _ _ _
theorem Wf.matmul (g c : Nat) (o : RunEnv) : Wf.Statement (.matmul g c o) :=
  fun _ => inRange_total _ _ _
theorem Wf.splitSum (g c : Nat) (o : RunEnv) : Wf.Statement (.splitSum g c o) :=
  fun _ => inRange_total _ _ _
theorem Wf.convert (g c : Nat) (o : RunEnv) : Wf.Statement (.convert g c o) :=
  fun _ => inRange_total _ _ _
theorem Wf.rmsNorm (g c : Nat) (o : RunEnv) : Wf.Statement (.rmsNorm g c o) :=
  fun _ => inRange_total _ _ _
theorem Wf.rmsNormBwd (g c : Nat) (o : RunEnv) : Wf.Statement (.rmsNormBwd g c o) :=
  fun _ => inRange_total _ _ _
theorem Wf.softmax (g c : Nat) (o : RunEnv) : Wf.Statement (.softmax g c o) :=
  fun _ => inRange_total _ _ _
theorem Wf.softmaxBwd (g c : Nat) (o : RunEnv) : Wf.Statement (.softmaxBwd g c o) :=
  fun _ => inRange_total _ _ _
theorem Wf.rowVariance (g c : Nat) (o : RunEnv) : Wf.Statement (.rowVariance g c o) :=
  fun _ => inRange_total _ _ _
theorem Wf.funcApply (g c : Nat) (o : RunEnv) : Wf.Statement (.funcApply g c o) :=
  fun _ => inRange_total _ _ _
theorem Wf.mask (g c : Nat) (o : RunEnv) : Wf.Statement (.mask g c o) :=
  fun _ => inRange_total _ _ _
theorem Wf.rawWords (g c : Nat) (o : RunEnv) : Wf.Statement (.rawWords g c o) :=
  fun _ => inRange_total _ _ _
theorem Wf.updateP1 (g c : Nat) (o : RunEnv) : Wf.Statement (.updateP1 g c o) :=
  fun _ => inRange_total _ _ _
theorem Wf.updateP2 (g c : Nat) (o : RunEnv) : Wf.Statement (.updateP2 g c o) :=
  fun _ => inRange_total _ _ _
theorem Wf.updateScalars (g c : Nat) (o : RunEnv) : Wf.Statement (.updateScalars g c o) :=
  fun _ => inRange_total _ _ _
theorem Wf.precondPrep (g c : Nat) (o : RunEnv) : Wf.Statement (.precondPrep g c o) :=
  fun _ => inRange_total _ _ _
theorem Wf.precondChol (g c : Nat) (o : RunEnv) : Wf.Statement (.precondChol g c o) :=
  fun _ => inRange_total _ _ _
theorem Wf.precondMm (g c : Nat) (o : RunEnv) : Wf.Statement (.precondMm g c o) :=
  fun _ => inRange_total _ _ _
theorem Wf.precondAffine (g c : Nat) (o : RunEnv) : Wf.Statement (.precondAffine g c o) :=
  fun _ => inRange_total _ _ _
theorem Wf.move (g c : Nat) (o : RunEnv) : Wf.Statement (.move g c o) :=
  fun _ => inRange_total _ _ _
theorem Wf.pageGather (g c : Nat) (o : RunEnv) : Wf.Statement (.pageGather g c o) :=
  fun _ => inRange_total _ _ _
theorem Wf.pageAppend (g c : Nat) (o : RunEnv) : Wf.Statement (.pageAppend g c o) :=
  fun _ => inRange_total _ _ _
theorem Wf.weightRead (g c : Nat) (o : RunEnv) : Wf.Statement (.weightRead g c o) :=
  fun _ => inRange_total _ _ _
theorem Wf.sideSave (g c : Nat) (o : RunEnv) : Wf.Statement (.sideSave g c o) :=
  fun _ => inRange_total _ _ _
theorem Wf.sideLoad (g c : Nat) (o : RunEnv) : Wf.Statement (.sideLoad g c o) :=
  fun _ => inRange_total _ _ _
theorem Wf.tierMove (g c : Nat) (o : RunEnv) : Wf.Statement (.tierMove g c o) :=
  fun _ => inRange_total _ _ _
theorem Wf.triggerPost (g c : Nat) (o : RunEnv) : Wf.Statement (.triggerPost g c o) :=
  fun _ => inRange_total _ _ _
theorem Wf.counterSignal (g c ctr src : Nat) : Wf.Statement (.counterSignal g c ctr src) :=
  fun _ => inRange_total _ _ _
theorem Wf.remoteReply (tag : Nat) (lines : List (Nat × List Byte)) (foreign : Bool) (lost : List Nat) :
    Wf.Statement (.remoteReply tag lines foreign lost) :=
  fun _ => whenOn_total _ _
theorem Wf.remoteTimeout (tag : Nat) : Wf.Statement (.remoteTimeout tag) :=
  fun _ => whenOn_total _ _
theorem Wf.remoteReadServe (f : Flit) (asker : Nat) : Wf.Statement (.remoteReadServe f asker) :=
  fun _ => inRange_total _ _ _
theorem Wf.remoteWriteServe (f : Flit) (asker : Nat) : Wf.Statement (.remoteWriteServe f asker) :=
  fun _ => inRange_total _ _ _
theorem Wf.lockOverrun (group unit input : Nat) : Wf.Statement (.lockOverrun group unit input) :=
  fun _ => inRange_total _ _ _
theorem Wf.cellarLate (n slot line : Nat) : Wf.Statement (.cellarLate n slot line) :=
  fun _ => inRange_total _ _ _
theorem Wf.cellarGroupFailed (group : Nat) : Wf.Statement (.cellarGroupFailed group) :=
  fun _ => inRange_total _ _ _
theorem Wf.vatStepStart (n : Nat) (io : StepIn) : Wf.Statement (.vatStepStart n io) :=
  fun _ => inRange_total _ _ _
theorem Wf.vatStepEnd (n : Nat) (toks : List TokenOut) (faults : List SeqFault) :
    Wf.Statement (.vatStepEnd n toks faults) :=
  fun _ => inRange_total _ _ _
theorem Wf.pressBatchTake (n : Nat) : Wf.Statement (.pressBatchTake n) :=
  fun _ => inRange_total _ _ _
theorem Wf.pauseExpired (n tag : Nat) : Wf.Statement (.pauseExpired n tag) :=
  fun _ => inRange_total _ _ _
theorem Wf.stepBoundary (n : Nat) (ended : Bool) (lineOk : Bool) : Wf.Statement (.stepBoundary n ended lineOk) :=
  fun _ => inRange_total _ _ _
theorem Wf.cultureFillDone (g : Nat) (crcOk : Bool) : Wf.Statement (.cultureFillDone g crcOk) :=
  fun _ => inRange_total _ _ _
theorem Wf.claimTaken (n g : Nat) (ns : Nat) : Wf.Statement (.claimTaken n g ns) :=
  fun _ => inRange_total _ _ _
theorem Wf.claimHoldExpire (n : Nat) : Wf.Statement (.claimHoldExpire n) :=
  fun _ => inRange_total _ _ _
theorem Wf.claimReleased (n : Nat) : Wf.Statement (.claimReleased n) :=
  fun _ => inRange_total _ _ _
theorem Wf.multiplexSwitch (g phys : Nat) : Wf.Statement (.multiplexSwitch g phys) :=
  fun _ => inRange_total _ _ _
theorem Wf.versionProduced (n : Nat) : Wf.Statement (.versionProduced n) :=
  fun _ => inRange_total _ _ _
theorem Wf.landingReserve (n : Nat) : Wf.Statement (.landingReserve n) :=
  fun _ => inRange_total _ _ _
theorem Wf.shardSend (n unit shard : Nat) (dst : Nat) (granted : Bool) (again : Bool) :
    Wf.Statement (.shardSend n unit shard dst granted again) :=
  fun _ => inRange_total _ _ _
theorem Wf.shardLanded (n unit shard : Nat) (data : List Byte) (bad : Bool) :
    Wf.Statement (.shardLanded n unit shard data bad) :=
  fun _ => inRange_total _ _ _
theorem Wf.frontStart (n : Nat) (reports : List Bool) : Wf.Statement (.frontStart n reports) :=
  fun _ => inRange_total _ _ _
theorem Wf.unitReplace (n : Nat) (others : Bool) : Wf.Statement (.unitReplace n others) :=
  fun _ => inRange_total _ _ _
theorem Wf.turnSourceCurrent (n : Nat) (others : Bool) : Wf.Statement (.turnSourceCurrent n others) :=
  fun _ => inRange_total _ _ _
theorem Wf.vatLoad (n version : Nat) : Wf.Statement (.vatLoad n version) :=
  fun _ => inRange_total _ _ _
theorem Wf.loadDone (n : Nat) : Wf.Statement (.loadDone n) :=
  fun _ => inRange_total _ _ _
theorem Wf.snapshotOpen (n : Nat) : Wf.Statement (.snapshotOpen n) :=
  fun _ => inRange_total _ _ _
theorem Wf.blockCopied (ch : Nat) : Wf.Statement (.blockCopied ch) :=
  fun _ => inRange_total _ _ _
theorem Wf.snapshotFailed (ch : Nat) (cause : SnapCause) : Wf.Statement (.snapshotFailed ch cause) :=
  fun _ => inRange_total _ _ _
theorem Wf.portBringup (p : Nat) (env : PortEnv) : Wf.Statement (.portBringup p env) :=
  fun _ => inRange_total _ _ _
theorem Wf.identReceive (p : Nat) (id : Ident) : Wf.Statement (.identReceive p id) :=
  fun _ => inRange_total _ _ _
theorem Wf.laneFailure (p lane : Nat) : Wf.Statement (.laneFailure p lane) :=
  fun _ => inRange_total _ _ _
theorem Wf.flitReceive (p : Nat) (f : Flit) : Wf.Statement (.flitReceive p f) :=
  fun _ => inRange_total _ _ _
theorem Wf.transitForward (p : Nat) (f : Flit) : Wf.Statement (.transitForward p f) :=
  fun _ => inRange_total _ _ _
theorem Wf.trigPost (die n : Nat) (d : List Byte) : Wf.Statement (.trigPost die n d) :=
  fun _ => inRange_total _ _ _
theorem Wf.chunkArrive (die : Nat) (l : ChunkLine) (dst : Nat) (data : List Byte) (asker : Nat) :
    Wf.Statement (.chunkArrive die l dst data asker) :=
  fun _ => inRange_total _ _ _
theorem Wf.chunkAck (die : Nat) (l : ChunkLine) : Wf.Statement (.chunkAck die l) :=
  fun _ => inRange_total _ _ _
theorem Wf.chunkRetry (die : Nat) (l : ChunkLine) (undelivered : Bool) :
    Wf.Statement (.chunkRetry die l undelivered) :=
  fun _ => inRange_total _ _ _
theorem Wf.collFail (n coll status : Nat) (opId : Nat) (line : Option ChunkLine) :
    Wf.Statement (.collFail n coll status opId line) :=
  fun _ => inRange_total _ _ _
theorem Wf.collTimeout (n coll : Nat) (missing : Option Nat) : Wf.Statement (.collTimeout n coll missing) :=
  fun _ => inRange_total _ _ _
theorem Wf.shardVerified (n : Nat) (ok : Bool) (slot : Option Nat) : Wf.Statement (.shardVerified n ok slot) :=
  fun _ => inRange_total _ _ _
theorem Wf.ckptComplete (n : Nat) (copiesOk : Bool) (others : List (Nat × List Byte)) (told : Option GenCheck)
    (vatSteps : List Nat) :
    Wf.Statement (.ckptComplete n copiesOk others told vatSteps) :=
  fun _ => inRange_total _ _ _
theorem Wf.heartbeat (n src epoch : Nat) : Wf.Statement (.heartbeat n src epoch) :=
  fun _ => inRange_total _ _ _
theorem Wf.heartbeatMiss (n modNo : Nat) (env : LeadEnv) : Wf.Statement (.heartbeatMiss n modNo env) :=
  fun _ => inRange_total _ _ _
theorem Wf.failureReport (n modNo epoch : Nat) (env : LeadEnv) : Wf.Statement (.failureReport n modNo epoch env) :=
  fun _ => inRange_total _ _ _
theorem Wf.shrink (n epoch : Nat) (drop : List Nat) (failed : List Nat) :
    Wf.Statement (.shrink n epoch drop failed) :=
  fun _ => inRange_total _ _ _
theorem Wf.shrinkResume (n : Nat) (totals : Bool) (usable : List Nat) (reports : List (Nat × Bool)) (sent : List
    (Nat × List Byte)) (epoch : Option Nat) :
    Wf.Statement (.shrinkResume n totals usable reports sent epoch) :=
  fun _ => inRange_total _ _ _
theorem Wf.shrinkLimit (n : Nat) (env : LeadEnv) : Wf.Statement (.shrinkLimit n env) :=
  fun _ => inRange_total _ _ _
theorem Wf.stepTimeReport (n : Nat) (reports : List (Nat × Nat)) (env : LeadEnv) (epoch : Option Nat) :
    Wf.Statement (.stepTimeReport n reports env epoch) :=
  fun _ => inRange_total _ _ _
theorem Wf.rejoinReady (n modNo : Nat) (rejoin : List Member) (epoch : Option Nat) :
    Wf.Statement (.rejoinReady n modNo rejoin epoch) :=
  fun _ => inRange_total _ _ _
theorem Wf.rejoinDone (n : Nat) (blocks : List (Nat × List Byte)) (more : List ShardLoad) (epoch : Option Nat) :
    Wf.Statement (.rejoinDone n blocks more epoch) :=
  fun _ => inRange_total _ _ _
theorem Wf.understorySegment (g phys : Nat) (o : SegOut) : Wf.Statement (.understorySegment g phys o) :=
  fun _ => inRange_total _ _ _
theorem Wf.testOverdue (g phys : Nat) : Wf.Statement (.testOverdue g phys) :=
  fun _ => inRange_total _ _ _
theorem Wf.spareIn (g : Nat) (spareOk : Bool) : Wf.Statement (.spareIn g spareOk) :=
  fun _ => inRange_total _ _ _
theorem Wf.remargin (g : Nat) (margins : List (Nat × Nat)) : Wf.Statement (.remargin g margins) :=
  fun _ => inRange_total _ _ _
theorem Wf.ckptDrainEnd (n : Nat) : Wf.Statement (.ckptDrainEnd n) :=
  fun _ => inRange_total _ _ _
theorem Wf.gatewayFrame (p : Nat) (f : GwFrame) : Wf.Statement (.gatewayFrame p f) :=
  fun _ => inRange_total _ _ _
theorem Wf.pcieLinkDown : Wf.Statement (.pcieLinkDown) :=
  fun _ => whenOn_total _ _

end Sys2Proof.Laws
end

