-- ==== Sys2Proof/Tests/Slice0.lean ====
section
/-! SUPPORT. Tests of the model's own: the check of a command's numbers, worked examples of the manual, single steps,
and for every statement with hypotheses a witness that they can be met. -/

set_option Elab.async false

namespace Sys2Proof.Tests

open Sys2Proof Sys2Proof.Machine Sys2Proof.Machine.State Sys2Proof.Laws

/-! ### Small states -/

/-- An open session. -/
def sessOf (num : Nat) (r : Role) : Session :=
  { num := num, role := r, sk := [1], counter := 5, lastReq := [], lastReply := [], lastEv := none, lastAt := 0,
    evSelect := 0, nonce := [] }

/-- A module in a power state, with a manager's session 1 and tenant 7's session 2. -/
def inMode (m : Mode) : State :=
  { power := { mode := m }, sec := { sessions := [sessOf 1 .manager, sessOf 2 (.tenant 7)] } }

/-- RUN. -/
def run : State := inMode .run

/-- HELD. -/
def heldNow : State := inMode .held

/-- RUN with the host's link up. -/
def hostRun : State := { run with power := { run.power with linkUp := true, answers := true, perst := false } }

/-- A clearing of tenant 7, job 9, with this CLEAR_STATE and JOB_ROLE. -/
def withClearing (s : State) (n st role : Nat) : State :=
  (((s.wr (0x2000 + 16 * n) 1 st).wr (0x2000 + 16 * n) 3 7).wr (0x2000 + 16 * n) 4 9).wr (0x2000 + 16 * n) 5 role

/-- Several entries written. -/
def wrs (s : State) (l : List (Nat × Nat × Nat)) : State := l.foldl (fun s e => s.wr e.1 e.2.1 e.2.2) s

/-- A plan's part for one clearing that asks for nothing. -/
def planFor (n role : Nat) : PlanClearing :=
  { n := n, role := role, accMode := 0, spread := 0, discipline := 0, deadlines := false, stepKinds := [],
    gMax := [], gMove := [], counters := [], chain := [], claimCells := [], shares := [], picks := [], weight := 0,
    kvWidth := 0, kvFormat := 0, kvLayers := 0, kvHeads := 0, kvSlots := 0, kvBlock := 0, turnBlock := 0, spreadMods := [],
    chunk := 0, prefillTotal := 0, maxPos := 0, maxStale := 0, vatNo := 0, buckets := [], curdModule := 0,
    curdClearing := 0, curdOffset := 0, curdBytes := 0, hasTaster := false, batch := 0, units := [], unitReads := [],
    sources := [], shards := [], masks := [], ckptBlocks := [], ckptShard := 0, ckptShards := 0, replica := 0,
    members := [], collMods := [] }

/-- A tile descriptor of a kind for a clearing, its other fields 0 but for K. -/
def tile (kind clearing k : Nat) : TileDesc :=
  { kind := kind, role := 0, program := 0, clearing := clearing, flags := 0, wcet := 0, fmtA := 0, fmtB := 0,
    fmtOut := 0, counters := 0, waitValue := 0, k := k, aAddr := 0, bAddr := 0, outAddr := 0, auxAddr := 0,
    strideA := 0, strideB := 0, strideOut := 0, rsv := 0, tileId := 0, args := 0 }

/-- A cell with tiles in its slots. -/
def withTiles (s : State) (g c : Nat) (l : List (TileDesc × SlotSt)) : State :=
  s.setCell g c { slots := l.map fun p => { desc := p.1, st := p.2, chainHead := true, tries := 0 } }

/-- A start-up in which everything passes but what is given. -/
def startEnv (mv : Nat) (romOk : Bool) : StartEnv :=
  { inputMv := mv, romOk := romOk, selfTestOk := true, fieldId := 0, hbmBad := [], cellarBad := [], cells := [],
    plateTag := none, harnessTag := none, ports := [], peers := [], programs := [], sfn := {}, ms := 3000 }

/-- A run that meets nothing. -/
def runOk : RunEnv := { found := .ok }

/-! ### Commands whose numbers are not the module's (00 R10) -/

theorem test_wf_grove : (Instr.thermalWarn 15 0).wf = true ∧ (Instr.thermalWarn 16 0).wf = false := by decide
theorem test_wf_cell : (Instr.matmul 15 255 runOk).wf = true ∧ (Instr.matmul 16 0 runOk).wf = false ∧
    (Instr.matmul 0 256 runOk).wf = false := by decide
theorem test_wf_phys : (Instr.testOverdue 15 271).wf = true ∧ (Instr.testOverdue 0 272).wf = false := by decide
theorem test_wf_clearing : (Instr.create 1 63).wf = true ∧ (Instr.create 1 64).wf = false := by decide
theorem test_wf_die : (Instr.rateMeasure 25 0).wf = true ∧ (Instr.rateMeasure 0 0).wf = false ∧
    (Instr.rateMeasure 26 0).wf = false := by decide
theorem test_wf_slot : (Instr.vatRequest 63).wf = true ∧ (Instr.vatRequest 64).wf = false := by decide
theorem test_wf_regulator : (Instr.regRefill 0 5 0).wf = true ∧ (Instr.regRefill 0 0x3F 1).wf = true ∧
    (Instr.regRefill 0 5 1).wf = false ∧ (Instr.regRefill 0 6 0).wf = false ∧
    (Instr.regRefill 0 0x20 2).wf = false := by decide
theorem test_wf_micro : (Instr.microprogLoaded 63).wf = true ∧ (Instr.microprogLoaded 64).wf = false := by decide
theorem test_wf_port : (Instr.laneFailure 31 9).wf = true ∧ (Instr.laneFailure 32 0).wf = false ∧
    (Instr.laneFailure 0 10).wf = false := by decide
theorem test_wf_gateway : (Instr.gatewayFrame 24 .pause).wf = true ∧ (Instr.gatewayFrame 23 .pause).wf = false := by
  decide
theorem test_wf_channel : (Instr.blockCopied 3).wf = true ∧ (Instr.blockCopied 4).wf = false := by decide
theorem test_wf_collective : (Instr.collTimeout 0 4095).wf = true ∧ (Instr.collTimeout 0 4096).wf = false := by decide
theorem test_wf_module : (Instr.heartbeat 0 16383 0).wf = true ∧ (Instr.heartbeat 0 16384 0).wf = false := by decide
theorem test_wf_unit : (Instr.shardSend 0 1023 0 0 true false).wf = true ∧
    (Instr.shardSend 0 1024 0 0 true false).wf = false := by decide
theorem test_wf_version : (Instr.vatLoad 0 255).wf = true ∧ (Instr.vatLoad 0 256).wf = false := by decide
theorem test_wf_group : (Instr.cellarGroupFailed 3).wf = true ∧ (Instr.cellarGroupFailed 4).wf = false := by decide
theorem test_wf_arbiter : (Instr.lockOverrun 0x6110 4351 5).wf = true ∧ (Instr.lockOverrun 0x6110 4352 0).wf = false ∧
    (Instr.lockOverrun 0x6110 0 6).wf = false ∧ (Instr.lockOverrun 0x6164 0 0).wf = false ∧
    (Instr.lockOverrun 0x6154 3 6).wf = true ∧ (Instr.lockOverrun 0x618F 0 4).wf = false := by decide
theorem test_wf_linkDie (d : List Byte) : (Instr.trigPost 3 0 d).wf = true ∧ (Instr.trigPost 4 0 d).wf = false :=
  ⟨rfl, rfl⟩

/-! ### Worked examples of the manual -/

/-- The worked draw of 05: its key, and the draw from the two table words the manual gives. -/
theorem test_worked_draw : drawKey 0x5A3C 1 2 0 = 0xCF2A84A4A3DB933E ∧
    drawWith (fun i => if i = 0x133E then 0x8C1F2E47B90A53D6 else if i = 0x1EDC then 0x4B72E09D16C5A83F else 0)
      0xCF2A84A4A3DB933E = 0xB984DE247587C2B4 := by decide

/-! ### The queue, time and power -/

/-- OffIgnoresEverythingElse and ResetIsSound: OFF at reset; a command that is not one of the three. -/
theorem witness_OffIgnoresEverythingElse : State.reset.power.mode = .off ∧ (Instr.hold 0).wf = true ∧
    (∀ e, Instr.hold 0 ≠ .start e) ∧ Instr.hold 0 ≠ .perstAssert ∧ Instr.hold 0 ≠ .perstRelease :=
  ⟨rfl, rfl, fun _ => nofun, nofun, nofun⟩

/-- EmptyQueueTicks: OFF, RUN without and with an accepted MODULE_RESET, before and at its time. -/
theorem witness_EmptyQueueTicks :
    State.reset.pending = [] ∧ State.reset.power.mode = .off ∧
    run.pending = [] ∧ run.power.mode ≠ .off ∧ run.power.resetAt = none ∧
    (let s : State := { run with power := { run.power with resetAt := some 2 } }
     s.pending = [] ∧ s.power.mode ≠ .off ∧ s.power.resetAt = some 2 ∧ s.time + 1 < 2 ∧ 2 ≤ s.time + 2) := by decide

/-- The canonical memory of an otherwise empty RUN state: it is sound. -/
theorem run_inv : run.Inv :=
  ⟨⟨rfl, rfl, rfl⟩, ⟨fun _ => by simp [run, inMode], by decide, by decide, by decide⟩, by decide⟩

/-- EveryStepKeepsInv and FusesAreNeverTakenBack: a sound state whose step answers a next state. -/
theorem witness_EveryStepKeepsInv : run.Inv ∧ step run = .next { run with time := 1 } := ⟨run_inv, rfl⟩
theorem witness_FusesAreNeverTakenBack : run.Inv ∧ step run = .next { run with time := 1 } := ⟨run_inv, rfl⟩

/-- OffLosesAllButFlash: HELD at the trip level 100 ms after it was entered, a STORE into either bank or none. -/
theorem witness_OffLosesAllButFlash :
    run.power.mode ≠ .off ∧ run.flash.writing = none ∧
    (let s : State := { heldNow with time := 100000000, flash := { writing := some (0, {}) } }
     s.power.mode ≠ .off ∧ wfDie 25 = true ∧ s.power.mode = .held ∧ s.tripLevel ≤ 115000 ∧
       100000000 ≤ s.time - s.power.heldAt ∧ s.flash.writing = some (0, {})) ∧
    (let s : State := { heldNow with time := 99999999, flash := { writing := some (1, {}) } }
     s.power.mode ≠ .off ∧ s.time - s.power.heldAt < 100000000 ∧ s.flash.writing = some (1, {})) ∧
    heldNow.tripLevel > 114999 := by decide

/-- StartRunsTheOrder: OFF with the input at its lowest voltage, below it, and another state. -/
theorem witness_StartRunsTheOrder : State.reset.power.mode = .off ∧ inputQualified (startEnv 46000 true) = true ∧
    inputQualified (startEnv 45999 true) = false ∧ run.power.mode ≠ .off := by decide

/-- HoldAndResume: the manager in RUN and HELD, a HOLD without running cells, THERM_N, a new number, another role. -/
theorem witness_HoldAndResume :
    run.roleOf 1 = some .manager ∧ run.power.mode = .run ∧ heldNow.roleOf 1 = some .manager ∧
    heldNow.power.mode = .held ∧ heldNow.power.thermN = false ∧ heldNow.power.numberNew = false ∧
    (let s : State := { run with power := { mode := .run, holding := true } }
     s.power.resumeNext = false ∧ s.power.holding = true ∧ ∀ p ∈ s.cells, ∀ x ∈ p.2.slots, x.st ≠ .running) ∧
    (let s : State := { run with power := { mode := .run, holding := true, resumeNext := true } }
     s.power.resumeNext = true ∧ s.power.holding = true ∧ s.power.thermN = false) ∧
    (let s : State := { heldNow with power := { mode := .held, thermN := true } }
     s.roleOf 1 = some .manager ∧ s.power.thermN = true) ∧
    (let s : State := { heldNow with power := { mode := .held, numberNew := true } }
     s.roleOf 1 = some .manager ∧ s.power.numberNew = true) ∧
    run.reachable = true ∧ run.roleOf 2 = some (.tenant 7) ∧ Role.tenant 7 ≠ .manager := by decide

/-- CapControllerMovesSupplies: above, at and below the cap. -/
theorem witness_CapControllerMovesSupplies : run.power.mode ≠ .off ∧ run.rd 0x1100 3 < run.rd 0x1100 3 + 1 ∧
    (run.rd 0x1100 3 - 1 < run.rd 0x1100 3 ∧ run.allBelow run.warnLevel = true) ∧
    (run.wr 0x1120 1 105000).allBelow run.warnLevel = false := by decide

/-- ThermalResponse: just above and at THERM_WARN_C, at and below THERM_TRIP_C, in RUN, in a HOLD and in HELD. -/
theorem witness_ThermalResponse :
    run.power.mode ≠ .off ∧ wfGrove 15 = true ∧ wfDie 25 = true ∧ run.warnLevel < run.warnLevel + 1 ∧
    run.tripLevel ≤ run.tripLevel ∧ run.tripLevel - 1 < run.tripLevel ∧ run.power.mode ≠ .held ∧
    run.power.holding = false ∧ heldNow.power.mode = .held ∧ heldNow.power.thermN = false ∧
    ({ heldNow with power := { mode := .held, thermN := true } } : State).power.thermN = true ∧
    ([((1 : Nat), (0 : Int)), (25, -5)].map (·.1)).Nodup ∧ (∀ p ∈ [((1 : Nat), (0 : Int)), (25, -5)], wfDie p.1 = true) := by
  decide

/-- Clearing 63 on a die with a rate, clearing 5 elastic, its bucket 5 bytes in debt. -/
def refillState (debt : Int) : State :=
  { ((withClearing run 63 3 2).wr 0x1112 (regDie 5) 1200).setFrc 0x2450 5 1 with buckets := [(State.bucketKey 5 5 0, debt)] }

/-- CoolantRatesAndRefill: the flow at and below its bound, the most beats and one more, a clearing on a die with a rate
with no bucket in debt, and with one elastic bucket in debt. -/
theorem witness_CoolantRatesAndRefill :
    run.power.mode ≠ .off ∧ ¬(2400 < 2400) ∧ 2399 < 2400 ∧ run.power.coolFlag = false ∧ wfDie 1 = true ∧
    2050000 ≤ 2050000 ∧ 2050000 < 2050001 ∧ wfClearing 63 = true ∧ wfClearing 5 = true ∧ (5 : Nat) ≠ 63 ∧
    wfRegulator 5 0 = true ∧
    (let s := (withClearing run 63 3 2).wr 0x1112 (regDie 5) 1200
     s.power.mode ≠ .off ∧ s.clearState 63 ≠ 0 ∧ 0 < s.rd 0x1112 (regDie 5) ∧ ∀ m, 0 ≤ s.bucket m 5 0) ∧
    (let s := refillState (-5)
     s.power.mode ≠ .off ∧ s.clearState 63 ≠ 0 ∧ 0 < s.rd 0x1112 (regDie 5) ∧ s.frc 0x2450 5 = 1 ∧
       s.bucket 5 5 0 < 0 ∧ ∀ k, k ≠ 5 → 0 ≤ s.bucket k 5 0) := by
  refine ⟨by decide, by decide, by decide, by decide, by decide, by decide, by decide, by decide, by decide, by decide,
    by decide, ⟨by decide, by decide, by decide, fun m => ?_⟩, ⟨by decide, by decide, by decide, by decide, by decide,
    fun k hk => ?_⟩⟩
  · simp [State.bucket, withClearing, run, inMode, State.wr, look]
  · have : State.bucketKey k 5 0 ≠ State.bucketKey 5 5 0 := by simp only [State.bucketKey]; omega
    simp [State.bucket, refillState, look, this.symm]

/-- PerstTouchesOnlyTheEndpoint: outside OFF. -/
theorem witness_PerstTouchesOnlyTheEndpoint : run.power.mode ≠ .off := by decide

/-- PostRecordsEvent: a ring with room and a full one, a short detail and a long one. -/
theorem witness_PostRecordsEvent :
    (run.hub.produced + 2 ^ 32 - run.hub.acked) % 2 ^ 32 ≠ 16384 ∧
    (let s : State := { run with hub := { produced := 16384 } }
     (s.hub.produced + 2 ^ 32 - s.hub.acked) % 2 ^ 32 = 16384) ∧
    (zeros 32).length ≤ 32 ∧ 32 < (zeros 33).length := by decide

/-- EvAckedIsBounded: up to EV_PRODUCED, one beyond it, and a host that cannot reach the module. -/
theorem witness_EvAckedIsBounded :
    (let s : State := { hostRun with hub := { produced := 3 } }
     s.power.mode ≠ .off ∧ s.hostUp = true ∧
       (3 % 2 ^ 32 + 2 ^ 32 - s.hub.acked) % 2 ^ 32 ≤ (s.hub.produced + 2 ^ 32 - s.hub.acked) % 2 ^ 32 ∧
       (s.hub.produced + 2 ^ 32 - s.hub.acked) % 2 ^ 32 < (4 % 2 ^ 32 + 2 ^ 32 - s.hub.acked) % 2 ^ 32) ∧
    run.hostUp = false := by decide

/-- An output ring of clearing 3 with two entries produced. -/
def ring0 (ended : Bool) : Ring :=
  { clearing := 3, reqTag := 1, offset := 0x400000, entries := 8, produced := 2, consumed := 0, ended := ended,
    status := 0, stopIndex := 0, notify := 0, data := [] }

/-- RingConsumedCloses: no ring, an ended ring consumed to its end, one consumed beyond PRODUCED while it runs. -/
theorem witness_RingConsumedCloses :
    (let s : State := { hostRun with hub := { rings := [(0, ring0 true)] } }
     s.power.mode ≠ .off ∧ s.hostUp = true ∧ s.hub.rings.find? (fun r => r.2.offset == 0x400001) = none ∧
       s.hub.rings.find? (fun r => r.2.offset == 0x400000) = some (0, ring0 true) ∧
       (ring0 true).ended = true ∧ 2 = (ring0 true).produced) ∧
    (let s : State := { hostRun with hub := { rings := [(0, ring0 false)] } }
     s.hub.rings.find? (fun r => r.2.offset == 0x400000) = some (0, ring0 false) ∧ (ring0 false).produced < 3 ∧
       (ring0 false).ended = false ∧ 2 ≤ (ring0 false).produced) := by decide

/-! ### The dictionary -/

/-- FirstFailingCheckRefuses: each of the checks fails alone, by an open role of a reachable dictionary. -/
theorem witness_FirstFailingCheckRefuses :
    run.reachable = true ∧ run.roleOf 1 = some .manager ∧ entryAt 0x0001 1 = none ∧
    (∃ e, entryAt 0x1000 3 = some e ∧ e.acc = .ro) ∧ absentInput 0x6110 0x37 = true ∧
    (∃ e, entryAt 0x1122 1 = some e ∧ e.acc = .wm ∧ absentInput 0x1122 1 = false ∧ Role.tenant 7 ≠ .manager ∧
      run.mayWrite .manager e 0x1122 1 = true ∧ lengthBad e 0x1122 1 [0, 0] = true ∧
      lengthBad e 0x1122 1 [84] = false ∧ reservedBad e 0x1122 1 [84] = false ∧
      run.rangeBad e 0x1122 1 [84] = true ∧ run.rangeBad e 0x1122 1 [85] = false) ∧
    (∃ e, entryAt 0x1130 1 = some e ∧ e.acc = .wh ∧ run.mayWrite .manager e 0x1130 1 = true ∧
      run.power.mode ≠ .held ∧ lengthBad e 0x1130 1 [4] = false ∧ reservedBad e 0x1130 1 [4] = true) ∧
    (∃ e, entryAt 0x3020 3 = some e ∧ e.acc = .wt ∧ e.clearing 0x3020 3 = some 3 ∧
      Role.manager ≠ .tenant (run.tenantOf 3)) := by
  refine ⟨by decide, by decide, by decide +kernel, ⟨_, rfl, by decide⟩, by decide, ⟨_, rfl, by decide⟩, ⟨_, rfl, by decide⟩,
    ⟨_, rfl, by decide⟩⟩

/-- RefusedWriteChangesNothing: a reachable dictionary, a session that is not open, an entry that is no micro-program. -/
theorem witness_RefusedWriteChangesNothing : run.reachable = true ∧ run.roleOf 9 = none ∧
    ¬(0x3240 ≤ 0x1122 ∧ 0x1122 ≤ 0x327F) := by decide

/-- AcceptedValueIsHeld: a manager's write of THERM_WARN_C at both ends of its range. -/
theorem witness_AcceptedValueIsHeld : run.reachable = true ∧ run.roleOf 1 = some .manager ∧
    (∃ e, entryAt 0x1122 1 = some e ∧ e.clearing 0x1122 1 = none ∧ e.ty.width = some 1) ∧
    run.checkForm .manager false 0x1122 1 [85] .any = .ok ∧ run.checkForm .manager false 0x1122 1 [105] .any = .ok ∧
    0x1122 ∉ [0x1003, 0x1210, 0x3201, 0x4000, 0x6100, 0x7100, 0x8001, 0x8002] ∧
    (0x1122, 1) ∉ [(0x1100, 2), (0x1200, 3), (0x1202, 2), (0x1202, 3), (0xA010, 4)] ∧
    ¬(0x3240 ≤ 0x1122 ∧ 0x1122 ≤ 0x327F) ∧ ¬(0x5000 ≤ 0x1122 ∧ 0x1122 < 0x5200) ∧
    ¬(0x8040 ≤ 0x1122 ∧ 0x1122 ≤ 0x807F) := by
  refine ⟨by decide, by decide, ⟨_, rfl, by decide⟩, by decide, by decide, by decide, by decide, by decide, by decide,
    by decide⟩

/-- OwnEntriesAreHeldPerSession: a tenant's session and another open one. -/
theorem witness_OwnEntriesAreHeldPerSession : run.reachable = true ∧ run.roleOf 2 = some (.tenant 7) ∧
    (leBytes 4 5).length = 4 ∧ (zeros 32).length ≤ 32 ∧ (run.roleOf 1).isSome = true ∧ 1 ≠ 2 := by decide

/-- ManagerClearsAndEnables: the manager, and tenant 7 of an ACTIVE clearing. -/
theorem witness_ManagerClearsAndEnables :
    (let s := withClearing run 3 3 2
     s.reachable = true ∧ s.roleOf 1 = some .manager ∧ s.roleOf 2 = some (.tenant (s.tenantOf 3)) ∧
       wfClearing 3 = true ∧ s.clearState 3 = 3 ∧ Role.tenant 7 ≠ .manager ∧ Role.manager ≠ .tenant (s.tenantOf 3)) := by
  decide

/-- StoreUsesTheOtherBank: no store in progress after bank 0, one in progress, and a bank being written. -/
theorem witness_StoreUsesTheOtherBank :
    run.reachable = true ∧ run.roleOf 1 = some .manager ∧ run.rd 0x1210 2 ≠ 1 ∧ run.newestSeq = none ∧
    run.flash.lastBank ≠ some 0 ∧ (run.wr 0x1210 2 1).rd 0x1210 2 = 1 ∧
    (let s : State := { run with flash := { lastBank := some 0, bank0 := bankOf 4 (run.rd 0x1000 3) [] } }
     s.rd 0x1210 2 ≠ 1 ∧ s.newestSeq = some 4 ∧ s.flash.lastBank = some 0 ∧ s.flash.bank0.bytes.length < 2 ^ 32) ∧
    (let s : State := { run with flash := { writing := some (1, {}) } }
     s.flash.writing = some (1, {}) ∧ (1 : Nat) ≠ 0) := by decide +kernel

/-- StagingWritesTheInactiveImage: the manager in HELD, before and after a VERIFY, and in RUN. -/
theorem witness_StagingWritesTheInactiveImage :
    heldNow.roleOf 1 = some .manager ∧ heldNow.memoryWf ∧ heldNow.power.mode = .held ∧
    (zeros 4).length ≤ 65536 ∧ heldNow.flash.verified = false ∧
    selOf heldNow.flash.sel0 = none ∧ selOf heldNow.flash.sel1 = none ∧
    (let s : State := { heldNow with flash := { verified := true, sel0 := selBytes ⟨1, 0, 1⟩, sel1 := selBytes ⟨2, 1, 1⟩ } }
     s.flash.verified = true ∧ selOf s.flash.sel0 = some ⟨1, 0, 1⟩ ∧ selOf s.flash.sel1 = some ⟨2, 1, 1⟩) ∧
    run.reachable = true ∧ run.power.mode ≠ .held := by
  refine ⟨by decide, ⟨rfl, rfl, rfl⟩, by decide, by decide, by decide, by decide, by decide, by decide +kernel, by decide,
    by decide⟩

/-- ApertureAndBar0: an entry the host may read loads, the record of an empty event log does not; no entry, one the host
may not read and a scalar; ATTEST_NONCE committed, a read-only entry and one of the manager; BAR0's places. -/
theorem witness_ApertureAndBar0 :
    ((entryAt 0x1000 1).any fun e => e.ty.width == none && hostRun.mayRead .host e 0x1000 1) = true ∧
    ((entryAt 0x7100 4).any fun e => e.ty.width == none && hostRun.mayRead .host e 0x7100 4) = true ∧
    (let s := wrs hostRun [(0xA010, 1, 0x1000), (0xA010, 2, 1)]
     s.reachable = true ∧ s.roleOf 1 = some .manager ∧ s.rd 0xA010 1 = 0x1000 ∧ s.rd 0xA010 2 = 1 ∧
       ((s.wr 0xA010 4 1).readEntry 0 (s.rd 0xA010 1) (s.rd 0xA010 2)).toOption.isSome = true) ∧
    (let s := wrs hostRun [(0xA010, 1, 0x7100), (0xA010, 2, 4)]
     s.rd 0xA010 1 = 0x7100 ∧ s.rd 0xA010 2 = 4 ∧
       ((s.wr 0xA010 4 1).readEntry 0 (s.rd 0xA010 1) (s.rd 0xA010 2)).toOption.isNone = true) ∧
    (∃ e, entryAt 0x1003 1 = some e ∧ e.ty.width ≠ none ∧ hostRun.mayRead .host e 0x1003 1 = true) ∧
    (∃ e, entryAt 0x8042 1 = some e ∧ hostRun.mayRead .host e 0x8042 1 = false) ∧
    (let s := wrs hostRun [(0xA010, 1, 0x8001), (0xA010, 2, 1), (0xA010, 3, 32)]
     s.rd 0xA010 1 = 0x8001 ∧ s.rd 0xA010 2 = 1 ∧ s.rd 0xA010 3 ≤ 32 ∧ s.session 0 = none ∧ s.roleOf 1 = some .manager) ∧
    hostRun.rd 0xA010 1 = 0 ∧ entryAt 0 0 = none ∧
    (∃ e, entryAt 0x1000 1 = some e ∧ e.acc = .ro) ∧
    (∃ e, entryAt 0x1122 1 = some e ∧ e.acc = .wm ∧ absentInput 0x1122 1 = false) ∧
    hostRun.hostUp = true ∧ run.hostUp = false ∧ barPlace 0x91008 = some (0x1122, 1) ∧ 0x91008 % 8 = 0 ∧
    barPlace 0xB88008 = some (0xA010, 1) ∧ 0xB88008 % 8 = 0 ∧
    (∃ e, entryAt 0xA010 1 = some e ∧ e.acc = .rw ∧ e.ty.width = some 2 ∧ reservedBad e 0xA010 1 [0, 16] = false ∧
      hostRun.rangeBad e 0xA010 1 [0, 16] = false) ∧
    (hostRun.applyWrite 0 0x1122 1 [85] .scalar).1 ≠ .ok ∧ barPlace 0xC0FFFF = none := by
  decide +kernel

/-! ### Sessions and keys. Whether a sealed value opens (AES-256-GCM) is uninterpreted (log entry 10): where a clause
asks it, its other hypotheses are met here and the two outcomes are its two clauses. -/

/-- The first 1,664 bytes of a request of 19 R405. -/
def openBody (kind tenant num : Nat) : List Byte :=
  [1, BitVec.ofNat 8 kind, 0, 0] ++ leBytes 4 tenant ++ leBytes 4 num ++ zeros 1652

/-- The request proven under `key`. -/
def openReq (kind tenant num : Nat) (key : List Byte) : List Byte :=
  openBody kind tenant num ++ hmac key (ascii "CRIRON-SO" ++ openBody kind tenant num)

theorem openBody_length (k t n : Nat) : (openBody k t n).length = 1664 := by simp [openBody]

theorem openReq_length (k t n : Nat) (key : List Byte) : (openReq k t n key).length = 1696 := by
  simp [openReq, openBody_length]

theorem openReq_proves (k t n : Nat) (key : List Byte) : proves key (openReq k t n key) = true :=
  proves_of_hmac key _ (openBody_length k t n)

/-- Of two requests that differ in their last bytes one is not proven. -/
theorem some_unproven (a : List Byte) (k t n : Nat) :
    proves a (openBody k t n ++ zeros 32) = false ∨ proves a (openBody k t n ++ 1 :: zeros 31) = false := by
  cases h : proves a (openBody k t n ++ zeros 32) with
  | false => exact .inl rfl
  | true => exact .inr (not_proves_both a _ _ _ (openBody_length k t n) (by decide) (by decide) (by decide) h)

/-- SessionsOpenByProof: a manager's open that is proven, one without a key, one not proven, a tenant's open with its
key, with one delivered that does not open and without one, CRYPTO_STATE not OK, and 64 sessions open. -/
theorem witness_SessionsOpenByProof :
    (let s : State := { run with otp := { managerKeys := [{ content := [5] }] } }
     s.reachable = true ∧ (s.roleOf 0).isSome = true ∧ s.rd 0x8003 1 = 0 ∧ s.managerKey = some [5] ∧
       s.sec.sessions.length < 64) ∧
    ((openReq 1 0 0 [5]).length = 1696 ∧ sessionReserved (openReq 1 0 0 [5]) = false ∧
      field (openReq 1 0 0 [5]) 1 1 = 1 ∧ proves [5] (openReq 1 0 0 [5]) = true) ∧
    (proves [5] (openBody 1 0 0 ++ zeros 32) = false ∨ proves [5] (openBody 1 0 0 ++ 1 :: zeros 31) = false) ∧
    run.managerKey = none ∧ (run.wr 0x8003 1 2).rd 0x8003 1 ≠ 0 ∧
    (let s : State := { (wrs run [(0x2030, 3, 7), (0x8043, 2, 2)]) with sec := { tenantKeys := [(7, [8])] } }
     s.tenantKeyed 7 = true ∧ s.provingKey 7 = some [8]) ∧
    (let s := wrs run [(0x2030, 3, 7), (0x8043, 2, 1)]
     s.tenantKeyed 7 = true ∧ s.provingKey 7 = none) ∧ run.tenantKeyed 7 = false ∧
    ((openReq 2 7 0 [8]).length = 1696 ∧ sessionReserved (openReq 2 7 0 [8]) = false ∧
      field (openReq 2 7 0 [8]) 1 1 = 2 ∧ field (openReq 2 7 0 [8]) 4 4 = 7 ∧ proves [8] (openReq 2 7 0 [8]) = true) ∧
    (let s : State := { run with sec := { sessions := List.replicate 64 (sessOf 1 .manager) } }
     64 ≤ s.sec.sessions.length ∧ (s.roleOf 0).isSome = true) := by
  refine ⟨by decide, ⟨openReq_length .., by decide +kernel, by decide +kernel, openReq_proves ..⟩, some_unproven .., by decide,
    by decide, by decide +kernel, by decide +kernel, by decide +kernel, ⟨openReq_length .., by decide +kernel,
      by decide +kernel, by decide +kernel, openReq_proves ..⟩,
    by decide +kernel⟩

/-- ReplyLayouts: the two nonces and the data have their lengths. -/
theorem witness_ReplyLayouts : 2 < 256 ∧ (zeros 32).length = 32 ∧ (zeros 65535).length < 65536 ∧
    field (zeros 32) 12 4 = 0 ∧ Name.sessionProof ≠ .ok := by
  refine ⟨by decide, by decide, ?_, by decide, by decide⟩
  rw [zeros, List.length_replicate]; decide

/-- CommissionInstallsAManagerKey: the first key, proven with 32 zero bytes; the ninth; CRYPTO_STATE not OK; no proof. -/
theorem witness_CommissionInstallsAManagerKey :
    (run.reachable = true ∧ (run.roleOf 0).isSome = true ∧ run.rd 0x8003 1 = 0 ∧ run.otp.managerKeys.length < 8 ∧
      run.managerKey.getD (zeros 32) = zeros 32) ∧
    ((openReq 3 0 0 (zeros 32)).length = 1696 ∧ sessionReserved (openReq 3 0 0 (zeros 32)) = false ∧
      field (openReq 3 0 0 (zeros 32)) 1 1 = 3 ∧ proves (zeros 32) (openReq 3 0 0 (zeros 32)) = true) ∧
    (proves (zeros 32) (openBody 3 0 0 ++ zeros 32) = false ∨
      proves (zeros 32) (openBody 3 0 0 ++ 1 :: zeros 31) = false) ∧
    (let s : State := { run with otp := { managerKeys := List.replicate 8 { content := [5] } } }
     s.rd 0x8003 1 = 0 ∧ 8 ≤ s.otp.managerKeys.length) ∧ (run.wr 0x8003 1 2).rd 0x8003 1 ≠ 0 := by
  refine ⟨by decide, ⟨openReq_length .., by decide +kernel, by decide +kernel, openReq_proves ..⟩, some_unproven .., by decide,
    by decide⟩

/-- SessionsClose: a CLOSE proven with the session's key, one that is not, one of no open session, and a session at
3,600 s and just below. -/
theorem witness_SessionsClose :
    (run.reachable = true ∧ (run.roleOf 0).isSome = true ∧ run.session 2 = some (sessOf 2 (.tenant 7)) ∧
      run.session 3 = none ∧ run.power.mode ≠ .off) ∧
    ((openReq 4 0 2 [1]).length = 1696 ∧ sessionReserved (openReq 4 0 2 [1]) = false ∧
      field (openReq 4 0 2 [1]) 1 1 = 4 ∧ field (openReq 4 0 2 [1]) 8 4 = 2 ∧ field (openReq 4 0 3 [1]) 8 4 = 3 ∧
      proves (sessOf 2 (.tenant 7)).sk (openReq 4 0 2 [1]) = true) ∧
    (proves [1] (openBody 4 0 2 ++ zeros 32) = false ∨ proves [1] (openBody 4 0 2 ++ 1 :: zeros 31) = false) ∧
    3600000000000 ≤ ({ run with time := 3600000000000 } : State).time - (sessOf 2 (.tenant 7)).lastAt ∧
    ({ run with time := 3599999999999 } : State).time - (sessOf 2 (.tenant 7)).lastAt < 3600000000000 := by
  refine ⟨by decide, ⟨openReq_length .., by decide +kernel, by decide +kernel, by decide +kernel, by decide +kernel,
    openReq_proves ..⟩, some_unproven .., by decide, by decide⟩

/-- A frame of the field network for the module with the address set, its request under a session with a TAG. -/
def frameOf (ftype sess counter idx sub seg total : Nat) (data : List Byte) : FieldFrame :=
  let p := [1, BitVec.ofNat 8 ftype, 0, 0] ++ leBytes 2 idx ++ leBytes 1 sub ++ [0] ++ leBytes 2 data.length ++
    leBytes 2 seg ++ leBytes 4 sess ++ leBytes 8 counter ++ zeros 4 ++ leBytes 4 total ++ data
  { dst := 0x10, src := 0x20, etherType := 0x88B5, payload := p ++ (if sess = 0 then [] else tagOf [1] 0 p) }

/-- RUN on the field network. -/
def onField : State := wrs run [(0x1001, 1, 0x10), (0x1001, 2, 5)]

/-- RequestsAreAdmittedOnce: a READ with a session not open, a bad TAG, a low COUNTER, the last one with other bytes and
with the same. -/
theorem witness_RequestsAreAdmittedOnce :
    (let f := frameOf 1 9 6 0x1122 1 0 0 []
     onField.takesFrame f 1 = true ∧ frameReserved f.payload = false ∧ field f.payload 12 4 ≠ 0 ∧
       onField.session 9 = none) ∧
    (let f := frameOf 1 2 5 0x1122 1 0 0 []
     let g := { f with payload := f.payload.take 32 ++ zeros 16 }
     let whole := slice f.payload 0 32
     let x := { sessOf 2 (.tenant 7) with lastReq := whole }
     onField.takesFrame f 1 = true ∧ frameReserved f.payload = false ∧
       slice f.payload 32 16 = tagOf x.sk 0 whole ∧ onField.session 2 = some (sessOf 2 (.tenant 7)) ∧
       field f.payload 16 8 = x.counter ∧ x.lastReq = whole ∧ (sessOf 2 (.tenant 7)).lastReq ≠ whole ∧
       onField.takesFrame g 1 = true ∧ slice g.payload 32 16 ≠ tagOf x.sk 0 (slice g.payload 0 32) ∧
       field (frameOf 1 2 4 0x1122 1 0 0 []).payload 16 8 < x.counter) := by decide +kernel

/-- AttestationReport: an open role, and a session that is not open. -/
theorem witness_AttestationReport : run.reachable = true ∧ run.roleOf 2 = some (.tenant 7) ∧ run.roleOf 9 = none ∧
    63 < 64 ∧ Role.tenant 7 ≠ .manager ∧ run.exists? 63 = false := by decide

/-- A wrapped key of 1,676 bytes for a clearing, its tenant and job, under a KEM hash. -/
def wrappedKey (n tenant job : Nat) (hash : List Byte) : List Byte :=
  [1, BitVec.ofNat 8 n, 0, 0] ++ leBytes 4 tenant ++ leBytes 4 job ++ zeros 4 ++ slice hash 0 32 ++ zeros 1628

/-- KeysAreDeliveredAndOpened: each refusal of a KEY_WRAPPED write and its acceptance; no opening, one under way, and
one with a CREATE held. -/
theorem witness_KeysAreDeliveredAndOpened :
    (let s := (withClearing run 63 0 2)
     let v := wrappedKey 63 7 9 s.kemHash
     wfClearing 63 = true ∧ s.power.mode ≠ .off ∧ s.reachable = true ∧ s.roleOf 1 = some .manager ∧ v.length = 1676 ∧
       keyReserved v = false ∧ s.exists? 63 = false ∧ (s.clr 63).heldCreate = false ∧
       (field v 1 1 = 63 ∧ field v 4 4 = s.tenantOf 63 ∧ field v 8 4 = s.jobOf 63) ∧ slice v 16 32 = s.kemHash ∧
       s.rd 0x8003 1 = 0 ∧ (withClearing run 63 3 2).exists? 63 = true ∧
       (s.setClr 63 { heldCreate := true }).exists? 63 = false ∧
       ((s.setClr 63 { heldCreate := true }).clr 63).heldCreate = true ∧
       field (wrappedKey 63 8 9 s.kemHash) 4 4 ≠ s.tenantOf 63 ∧
       slice (wrappedKey 63 7 9 (zeros 32)) 16 32 ≠ s.kemHash ∧ (s.wr 0x8003 1 2).rd 0x8003 1 ≠ 0) ∧
    look run.sec.opening 63 = none ∧
    (let s : State := { (withClearing run 63 0 2) with sec := { opening := [(63, [0])] } }
     look s.sec.opening 63 = some [0] ∧ (s.clr 63).heldCreate = false ∧ s.tenantKey (s.tenantOf 63) = none ∧
       (s.setClr 63 { heldCreate := true }).rd 0x4000 7 = 1 ∧
       look (s.setClr 63 { heldCreate := true }).sec.delivered 63 = none) := by decide +kernel

/-- CryptoErrorZeroises: outside OFF. -/
theorem witness_CryptoErrorZeroises : run.power.mode ≠ .off := by decide

/-- MicroProgramStore: an entry that is not in use and one that is; a table write that changes its records. -/
theorem witness_MicroProgramStore :
    run.reachable = true ∧ run.roleOf 1 = some .manager ∧ wfMicro 63 = true ∧ (zeros 96).length ≤ 96 ∧
    stepsReserved (zeros 96) = false ∧ run.mpState 63 ≠ 3 ∧ (zeros 2).length = 2 ∧
    (run.wr (mpIdx 63) 4 3).mpState 63 = 3 ∧ (run.wr (mpIdx 63) 4 1).mpState 63 = 1 ∧ run.mpState 63 ≠ 1 ∧
    run.mpTableBusy (zeros 32) = false ∧ (wrs run [(mpIdx 63, 4, 3), (mpIdx 63, 3, 1)]).mpTableBusy [1] = true ∧
    ([1] : List Byte).length ≤ 65536 := by decide +kernel

/-! ### Slots and frames -/

/-- A submission slot of a kind for a clearing, without a session. -/
def slotOf (kind clearing : Nat) (payload : List Byte) : List Byte :=
  [1, BitVec.ofNat 8 kind, 0, 0] ++ leBytes 4 payload.length ++ leBytes 8 5 ++ zeros 16 ++ leBytes 2 clearing ++
    zeros 30 ++ payload

/-- A state whose only taken and checked slot is 63. -/
def withSlot (s : State) (kind clearing : Nat) (payload : List Byte) : State :=
  { s with hub := { s.hub with taken := [{ slot := 63, bytes := slotOf kind clearing payload, checked := true }] } }

/-- SweepTakesFullSlots: RUN and HELD, no slot taken, and slots taken with and without the delay counted. -/
theorem witness_SweepTakesFullSlots :
    run.power.mode = .run ∧ heldNow.power.mode = .held ∧ run.hub.taken = [] ∧
    (∀ n < 64, (run.clr n).turn.blocked = false ∧ (run.recov n).members = []) ∧ (withSlot run 4 0 []).hub.taken ≠ [] ∧
    (withSlot run 4 0 []).hub.sweepBusy = false ∧
    ({ withSlot run 4 0 [] with hub := { (withSlot run 4 0 []).hub with sweepBusy := true } } : State).hub.sweepBusy = true ∧
    (let s := hostRun.hostStores [⟨63, slotOf 4 0 []⟩]
     s.sstate 63 = 1 ∧ slotSession (s.slotBytes 63) = 0 ∧ s.sstate 0 ≠ 1) := by decide

/-- A vat request record: tag, prompt length, new tokens, deadline, the tag to resume, FLAGS, ring entries, notify. -/
def reqRec (tag pl mn deadline resume flags entries notify : Nat) : List Byte :=
  leBytes 8 tag ++ leBytes 4 pl ++ leBytes 4 mn ++ leBytes 8 deadline ++ leBytes 8 resume ++ zeros 4 ++ leBytes 2 flags ++
    zeros 2 ++ leBytes 2 entries ++ leBytes 2 notify ++ zeros 788 ++ zeros (4 * pl)

/-- An ACTIVE vat of clearing 3 whose plan takes 16 positions. -/
def vat3 : State :=
  { (withClearing run 3 3 2) with clearings := [(3, { plan := some { planFor 3 2 with maxPos := 16, chunk := 1 } })] }

/-- What VatRequestAcceptance asks of a slot with record `b` in state `s`, and each of its outcomes. -/
def reqOutcome (s : State) (b : List Byte) : List Bool :=
  match s.planOf 3 with
  | none => []
  | some p =>
    let q := parseReq b 63 5
    let img := (s.vat 3).paused.find? fun i => i.tag == q.resumeTag
    [requestReserved b, s.requestBad 3 p b, q.deadline != 0 && decide (q.deadline ≤ s.time), !s.deadlineFits 3 p q,
      q.resumeTag != 0 && !(img.any fun i => !i.claimed && (!s.judgesExpiry 3 || s.rd 0x4C10 1 != 1 || decide (0 < i.expires))),
      q.toRing && (poolAlloc s.hub (64 + 16 * q.ringEntries)).isNone]

/-- A paused image of tag 4. -/
def image4 : Paused :=
  { tag := 4, tokens := 1, hashes := 0, moved := [], versions := [], base := 0, blocks := 0, expires := 1, claimed := false }

/-- VatRequestAcceptance: no plan, a press, and a record that fails each check and no earlier one; two that pass, with a
ring and resuming an image. -/
theorem witness_VatRequestAcceptance :
    (withClearing run 3 3 2).planOf 3 = none ∧ vat3.clearState 3 = 3 ∧
    ((vat3.planOf 3).map (·.role)) = some 2 ∧ wfSlot 63 = true ∧
    (let s := withSlot vat3 2 3 (reqRec 1 2 1 0 0 2 16 1)
     s.hub.taken.map (fun x => (x.slot, x.checked, slotKind x.bytes, slotClearing x.bytes)) = [(63, true, 2, 3)]) ∧
    reqOutcome vat3 (reqRec 1 2 1 0 0 8 0 0) = [true, true, false, false, false, false] ∧
    reqOutcome vat3 (reqRec 1 16 1 0 0 2 16 1) = [false, true, false, false, false, false] ∧
    reqOutcome { vat3 with time := 9 } (reqRec 1 2 1 9 0 2 16 1) = [false, false, true, false, false, false] ∧
    reqOutcome (vat3.wr 0x6027 3 100) (reqRec 1 2 1 9 0 2 16 1) = [false, false, false, true, false, false] ∧
    reqOutcome vat3 (reqRec 1 2 1 0 4 2 16 1) = [false, false, false, false, true, false] ∧
    reqOutcome vat3 (reqRec 1 2 1 0 0 2 4096 1) = [false, false, false, false, false, false] ∧
    (reqOutcome (vat3.setVat 3 { paused := [image4] }) (reqRec 1 2 1 0 4 4 0 0) =
       [false, false, false, false, false, false]) ∧
    (let full : Ring := { ring0 false with offset := 0, entries := 0x3FFFFC }
     let s : State := { vat3 with hub := { rings := [(0, full)] } }
     reqOutcome s (reqRec 1 2 1 0 0 2 4096 1) = [false, false, false, false, false, true]) := by decide +kernel

/-- A vat request of this tag, waiting. -/
def reqOf (tag : Nat) : Req := parseReq (reqRec tag 2 1 0 0 4 0 0) 63 5

/-- A COMMAND payload of 17 R374. -/
def cmdOf (cmd value tag : Nat) : List Byte := [BitVec.ofNat 8 cmd, 0, 0, 0] ++ leBytes 4 value ++ leBytes 8 tag

/-- CancelAndPauseReachTheRequest: a tag no request has, and one that waits in a vat of the job. -/
theorem witness_CancelAndPauseReachTheRequest :
    (let s := withSlot (vat3.setVat 3 { waiting := [reqOf 8] }) 3 3 (cmdOf 1 0 8)
     s.hub.taken.map (fun x => (x.slot, x.checked, slotKind x.bytes, slotClearing x.bytes, slotPayload x.bytes)) =
       [(63, true, 3, 3, cmdOf 1 0 8)] ∧
     field (cmdOf 1 0 8) 0 1 = 1 ∧ field (cmdOf 2 0 9) 0 1 = 2 ∧ field (cmdOf 1 0 8) 8 8 ∈ s.openTags 3 ∧
     field (cmdOf 2 0 9) 8 8 ∉ s.openTags 3) := by decide +kernel

/-- A closed curd record of a request, its reward PENDING or not. -/
def curdOf (tag st : Nat) : Curd :=
  { modNo := 0, home := 3, place := 64 * st, reqTag := tag, writer := 3, bytes := 64, closed := true }

/-- A press clearing 3 with curd records of tags 8 (PENDING) and 9 (SCORED) in its tier-1 region. -/
def press3 (taster : Bool) : State :=
  { ((withClearing run 3 3 1).setFrc 0x4043 3 0x200000) with
    mem := Mem.writes (Mem.writes [] (regionAddr 1 3 0) (newHeader 8 0 0 3 64)) (regionAddr 1 3 64)
      (overwrite (newHeader 9 0 0 3 64) 24 [1])
    clearings := [(3, { plan := some { planFor 3 1 with hasTaster := taster, batch := 1 },
                        press := { curds := [(0, curdOf 8 0), (1, curdOf 9 1)], ready := [0, 1] } })] }

/-- RewardScoresAPendingRecord: an unknown tag, a record already scored, a job with a taster, a PENDING record; its buffer
here, held by a snapshot, and on another module; a plan to withdraw and none. -/
theorem witness_RewardScoresAPendingRecord :
    (let mine (s : State) (tag : Nat) := (s.press 3).curds.filter fun c => c.2.reqTag == tag
     let pending (s : State) (tag : Nat) := (mine s tag).filter fun c => c.2.closed && headReward (s.headOf c.2) == 0
     let s := press3 false
     mine s 7 = [] ∧ mine s 9 ≠ [] ∧ pending s 9 = [] ∧ s.tasted 3 = false ∧ (pending s 8).head? = some (0, curdOf 8 0) ∧
       look (s.press 3).curds 0 = some (curdOf 8 0) ∧ (press3 true).tasted 3 = true ∧ s.planOf 3 ≠ none ∧
       run.planOf 3 = none ∧ s.sameJob 3 3 = true ∧ (curdOf 8 0).modNo = s.ownModule ∧ s.uncopied 3 0 64 = [] ∧
       ({ s with copiers := [(0, { clearing := some 3, blocks := [0] })] } : State).uncopied 3 0 64 ≠ [] ∧
       (curdOf 8 0).modNo ≠ (s.setFrc 0x1003 1 5).ownModule ∧ s.jobRole 3 = 1 ∧ s.mayReach 3 3 1 0 64 = true ∧
       (s.setFrc 0x4043 3 0).mayReach 3 3 1 0 64 = false) ∧
    field (cmdOf 3 0 8) 0 1 = 3 ∧ field (cmdOf 4 0 0) 0 1 = 4 ∧ (press3 false).memoryWf :=
  ⟨by decide +kernel, by decide, by decide, ⟨by decide +kernel, rfl, rfl⟩⟩

/-- A DICT payload of 17 R375. -/
def dictOf (idx sub op : Nat) (v : List Byte) : List Byte :=
  leBytes 2 idx ++ leBytes 1 sub ++ leBytes 1 op ++ leBytes 4 v.length ++ zeros 8 ++ v

/-- A PLAN_PART payload of 17 R373 with `len` bytes of image. -/
def partOf (id part count bytes off len : Nat) : List Byte :=
  leBytes 8 id ++ leBytes 2 part ++ leBytes 2 count ++ zeros 4 ++ leBytes 8 bytes ++ leBytes 8 off ++ zeros len

/-- DictSlotsAnswerInTheSlot: a read and a write in a slot; a write that leaves the slot the one processed; a write to the
micro-program store before a slot that completes a plan. -/
theorem witness_DictSlotsAnswerInTheSlot :
    (let s := withSlot run 4 0 (dictOf 0x1122 1 2 [85])
     s.hub.taken.map (fun x => (x.checked, slotKind x.bytes, slotPayload x.bytes)) =
       [(true, 4, dictOf 0x1122 1 2 [85])] ∧ field (dictOf 0x1122 1 2 [85]) 3 1 = 2 ∧
     field (dictOf 0x1122 1 1 []) 3 1 = 1 ∧ (s.readEntry 0 0x1122 1).toOption = some [105] ∧
     (s.readEntry 0 0x0001 1).toOption = none ∧ (s.applyWrite 0 0x1122 1 [85] .any).2.hub.taken = s.hub.taken) ∧
    (let x := slotOf 4 0 (dictOf 0x3240 2 2 [1])
     let y : Taken := { slot := 62, bytes := slotOf 1 3 (partOf 1 0 1 4 0 4), checked := false }
     let s2 : State := { run with hub := { run.hub with taken := [{ slot := 63, bytes := x, checked := true }, y] } }
     storeWrite x = true ∧ field (slotPayload x) 3 1 = 2 ∧ s2.completesPlan y.bytes = true) := by
  decide +kernel

/-- A plan image for clearing 3. -/
def image3 (s : State) : PlanImage :=
  { generation := s.rd 0x1000 2, scaleId := s.rd 0x1000 3, job := 9, shape := 0, arbLimits := [], micro := [],
    programs := [], clearings := [planFor 3 2] }

/-- An IDLE clearing 3 with 2 MiB of tier 1 in force. -/
def idle3 : State := (withClearing run 3 2 2).setFrc 0x4043 3 0x200000

/-- PlanPartsAssemble: a header that disagrees, a part that differs from an earlier one, an image too long for the region,
a part of two, and a whole plan that passes its checks or not. -/
theorem witness_PlanPartsAssemble :
    partBad (partOf 1 1 1 4 0 4) = true ∧ partBad (partOf 1 0 1 4 0 4) = false ∧ idle3.planAsm 1 3 = none ∧
    (let a : PlanAsm := { planId := 1, clearing := 3, partCount := 2, imageBytes := 65444, imageOffset := 0,
                          parts := [(1, zeros 4)], since := 0 }
     let s : State := { idle3 with hub := { plans := [a] } }
     s.planAsm 1 3 = some a ∧ a.partCount ≠ field (partOf 1 0 1 4 0 4) 10 2 ∧
       partBad (partOf 1 1 2 65444 0 4) = false ∧ a.partCount = field (partOf 1 1 2 65444 0 4) 10 2 ∧
       a.imageBytes = field (partOf 1 1 2 65444 0 4) 16 8 ∧ a.imageOffset = field (partOf 1 1 2 65444 0 4) 24 8 ∧
       look a.parts 1 = some ((partOf 1 1 2 65444 0 4).drop 32) ∧
       (ins a.parts 1 ((partOf 1 1 2 65444 0 4).drop 32)).length ≠ a.partCount ∧
       a.imageOffset + a.imageBytes ≤ s.regionLen 3 1) ∧
    run.regionLen 3 1 < 0 + 4 ∧ (ins ([] : Map (List Byte)) 0 (zeros 4)).length = 1 ∧
    idle3.planChecks 3 (image3 idle3) = .ok ∧
    idle3.planChecks 3 { image3 idle3 with job := 8 } ≠ .ok := by decide +kernel

/-- An assembly of plan 5 for clearing 3 that began at time 0. -/
def asm5 : PlanAsm :=
  { planId := 5, clearing := 3, partCount := 2, imageBytes := 4, imageOffset := 0, parts := [], since := 0 }

/-- PlanAcceptanceActivates: a plan of one clearing; no assembly that waited, and one at PLAN_ASSEMBLY_S. -/
theorem witness_PlanAcceptanceActivates :
    (let late (s : State) := s.hub.plans.filter fun a => a.planId == 5 && 1000000000 * s.rd 0xA000 6 + a.since ≤ s.time
     let at_ (t : Nat) : State := { run with time := t, hub := { plans := [asm5] } }
     (at_ 0).power.mode ≠ .off ∧ late (at_ (1000000000 * run.rd 0xA000 6 - 1)) = [] ∧ 0 < run.rd 0xA000 6 ∧
       late (at_ (1000000000 * run.rd 0xA000 6)) = [asm5]) ∧
    (((image3 idle3).clearings.map (·.n)).Nodup ∧ ∀ p ∈ (image3 idle3).clearings, p.n < 64) ∧
    run.power.mode ≠ .off ∧ (∀ p ∈ (image3 idle3).clearings, p.n ≠ 63) := by decide +kernel

/-- FramesReadAndWrite: a frame of another type, an admitted READ of a scalar, one of a BLOB, one that is refused, and an
admitted WRITE. -/
theorem witness_FramesReadAndWrite :
    (let f := frameOf 1 0 0 0x1122 1 0 0 []
     let g := frameOf 2 0 0 0x1122 1 0 0 [85]
     onField.power.mode ≠ .off ∧ onField.takesFrame f 2 = false ∧ onField.takesFrame g 1 = false ∧
       onField.takesFrame f 1 = true ∧ onField.takesFrame g 2 = true ∧ frameReserved f.payload = false ∧
       frameReserved g.payload = false ∧ onField.checkSession 0 0 [] [] [] = .pass ∧
       (onField.readEntry 0 0x1122 1).toOption = some [105] ∧ (onField.readEntry 0 0x0001 1).toOption = none ∧
       (onField.readEntry 0 0x1000 1).toOption.isSome = true) := by decide +kernel

/-- SegmentedTransfers: no transfer, one that reads, one that writes, eight of them, and one at 100 ms. -/
theorem witness_SegmentedTransfers :
    (let tr (w : Bool) : Transfer := { key := keyOf 0x1000 1, sess := 0, writing := w, expected := 1, total := 1028,
                                       data := zeros 1024, lastReply := 0 }
     let on (s : State) (l : List Transfer) : State := { s with hub := { transfers := l } }
     let rf := frameOf 4 0 0 0x1000 1 0 0 []
     let wf := frameOf 5 0 0 0x1000 1 1 0 (zeros 4)
     onField.takesFrame rf 4 = true ∧ frameReserved rf.payload = false ∧ onField.checkSession 0 0 [] [] [] = .pass ∧
       onField.transferOf rf.payload = none ∧ (onField.readEntry 0 0x1000 1).toOption.isSome = true ∧
       onField.takesFrame wf 5 = true ∧ frameReserved wf.payload = false ∧
       (on onField [tr true]).transferOf wf.payload = some (tr true) ∧ (tr true).writing = true ∧
       (tr true).expected = field wf.payload 10 2 ∧ (zeros 4).length = min 1024 ((tr true).total - (tr true).data.length) ∧
       (tr true).total ≤ (tr true).data.length + 4 ∧ (zeros 3).length ≠ min 1024 ((tr true).total - (tr true).data.length) ∧
       (on onField [tr false]).transferOf rf.payload = some (tr false) ∧
       (tr false).expected ≠ field rf.payload 10 2 ∧ (tr false).expected = field (frameOf 4 0 0 0x1000 1 1 0 []).payload 10 2 ∧
       8 ≤ (on onField (List.replicate 8 { tr false with sess := 9 })).hub.transfers.length ∧
       field (frameOf 5 0 0 0x1000 1 0 1028 (zeros 1024)).payload 28 4 = 1028 ∧
       field (frameOf 5 0 0 0x1000 1 0 1028 (zeros 4)).payload 28 4 = 1028 ∧ (zeros 4).length ≠ min 1024 1028 ∧
       onField.takesFrame (frameOf 7 0 0 0x1000 1 0 0 []) 7 = true ∧
       100000000 ≤ ({ on onField [tr true] with time := 100000000 } : State).time - (tr true).lastReply ∧
       ({ on onField [tr true] with time := 99999999 } : State).time - (tr true).lastReply < 100000000) := by
  decide +kernel

/-! ### Clearings, checkpoints, recovery -/

/-- The map of grove 0 with cell 0 alone. -/
def oneCell : List Byte := 1 :: zeros 31

/-- Clearing 63 of tenant 7, job 9, that asks for cell 0 of grove 0. -/
def asking63 (st : Nat) : State := (withClearing run 63 st 2).wrBlob 0x23F1 1 oneCell

/-- What CREATE checks of clearing 63. -/
def createStatus (s : State) : Name := firstBad ([(s.busy 63, Name.clearingBusy), (s.exists? 63, .clearingExists),
  (s.incomplete 63, .clearingIncomplete)] ++ s.assignChecks 63)

/-- ClearingsAreCreated: a CREATE that lacks a key, one with a key, one with an opening under way and one refused; a
CREATING clearing and another. -/
theorem witness_ClearingsAreCreated :
    wfClearing 63 = true ∧ (asking63 0).reachable = true ∧ (asking63 0).roleOf 1 = some .manager ∧
    createStatus (asking63 0) = .ok ∧ createStatus (asking63 3) = .clearingExists ∧
    look (asking63 0).sec.opening 63 = none ∧ (asking63 0).keyMissing 63 = true ∧
    (let s : State := { (asking63 0) with sec := { (asking63 0).sec with delivered := [(63, [8])] } }
     s.keyMissing 63 = false ∧ look s.sec.delivered 63 = some [8]) ∧
    look ((asking63 0).wr 0x4000 7 0).sec.delivered 63 = none ∧ ((asking63 0).wr 0x4000 7 0).keyMissing 63 = false ∧
    (let s : State := { (asking63 0) with sec := { (asking63 0).sec with opening := [(63, [8])] } }
     (look s.sec.opening 63).isSome = true) ∧
    mapBit ((asking63 0).newMap 63 0) 0 = true ∧ mapBit ((asking63 0).newMap 63 15) 255 = false ∧
    (asking63 1).clearState 63 = 1 ∧ (asking63 0).clearState 63 ≠ 1 ∧ (asking63 1).frc 0x2450 63 ≠ 1 ∧
    (let s := ((asking63 1).setFrcBlob 0x23F1 1 oneCell).setCell 0 0 { scratchOwn := [(1, 5)] }
     s.holds 63 0 0 = true ∧ s.holds 63 15 255 = false ∧ look (s.cell 0 0).scratchOwn 1 = some 5 ∧
       look (s.cell 0 0).scratchOwn 0 = none) ∧ (asking63 1).memoryWf := by
  refine ⟨?_, ?_, ?_, ?_, ?_, ?_, ?_, ?_, ?_, ?_, ?_, ?_, ?_, ?_, ?_, ?_, ?_, ⟨rfl, rfl, rfl⟩⟩ <;> decide +kernel

/-- ClearingsChangeAndEnd: a RESIZE that is accepted and one refused, a DESTROY of a busy, an absent and an existing
clearing, a quota scrub under way, and a DESTROYING clearing without running tiles. -/
theorem witness_ClearingsChangeAndEnd :
    (let bad (s : State) := firstBad ([(s.busy 63, Name.clearingBusy), (!s.exists? 63, .clearingAbsent)] ++
       s.assignChecks 63 ++ [(s.clearState 63 == 3 && s.removesCells 63, .clearingInUse)])
     bad (asking63 2) = .ok ∧ bad (asking63 0) = .clearingAbsent) ∧
    (asking63 1).busy 63 = true ∧ (asking63 0).busy 63 = false ∧ (asking63 0).exists? 63 = false ∧
    (asking63 3).busy 63 = false ∧ (asking63 3).exists? 63 = true ∧ (run.clr 63).scrubbing = false ∧
    (let s := (asking63 2).setClr 63 { scrubbing := true }
     (s.clr 63).scrubbing = true ∧ s.clearState 63 = 2 ∧ ((asking63 3).setClr 63 { scrubbing := true }).clearState 63 ≠ 2) ∧
    (asking63 4).clearState 63 = 4 ∧ (asking63 4).hasRunning 63 = false ∧
    (withTiles (asking63 4) 0 0 [(tile 1 63 32, .running)]).hasRunning 63 = true ∧
    (let s := (asking63 2).setFrcBlob 0x23F1 1 [3]
     s.holds 63 0 1 = true ∧ mapBit (s.newMap 63 0) 1 = false ∧ s.holds 63 15 255 = false ∧
       mapBit (s.newMap 63 15) 255 = false) ∧
    ((asking63 2).setClr 63 { scrubbing := true }).frc 0x2450 63 ≠ 1 ∧ (asking63 4).claimedBy 63 = [] ∧
    (let s := (asking63 2).setCell 15 255 { claimed := some 63 }
     (s.cell 15 255).claimed = some 63 ∧ mapBit (s.newClaim 63 15) 255 = false ∧ mapBit (s.newMap 63 15) 255 = false ∧
       (s.cell 15 254).claimed ≠ some 63) ∧
    (asking63 4).parkedOf 63 = [] ∧ ∀ g c, (asking63 2).spilled 63 g c = false := by
  refine ⟨?_, ?_, ?_, ?_, ?_, ?_, ?_, ?_, ?_, ?_, ?_, ?_, ?_, ?_, ?_, ?_, fun g c => ?_⟩
  case refine_17 => simp [State.spilled, State.spilledOut, State.cell, State.grove, asking63, withClearing, run, inMode,
    State.wr, State.wrBlob, look]
  all_goals decide +kernel

/-- An ACTIVE press clearing 3 of a job this module leads, with a checkpoint list of two blocks and two replicas. -/
def job3 : State :=
  { (wrs (withClearing run 3 3 1) [(0x90C0, 3, 4)]) with
    clearings := [(3, { plan := some { planFor 3 1 with ckptBlocks := [4, 7] },
                        recov := { members := [⟨0, 0, 0, 3⟩, ⟨1, 0, 5, 3⟩] } })] }

/-- A range whose first line is POISON has a line that cannot be read. -/
theorem badRange_ne_nil (s : State) (n tier off len : Nat) (h0 : 0 < ceilDiv len 64)
    (h : s.poison.contains (regionPlace tier n off).addr = true) : s.badRange n tier off len ≠ [] := by
  have hp : s.poison.isEmpty = false := by cases hs : s.poison with
    | nil => simp [hs] at h
    | cons => rfl
  have h2 : s.unreadable (regionPlace tier n off) = true := by simp only [State.unreadable, h, Bool.true_or]
  apply List.ne_nil_of_mem (a := 0)
  simp only [State.badRange, State.badLines, State.anyBad, hp, Bool.not_false, Bool.true_or, if_true, List.mem_map,
    List.mem_filterMap, List.mem_range]
  exact ⟨(0, regionPlace tier n off), ⟨0, h0, by simp [h2]⟩, rfl⟩

/-- job3 with a snapshot on channel 3, a write of it redirected. -/
def snap3 : State := { job3 with copiers := [(3, { clearing := some 3, blocks := [4, 7], redirected := [7] })] }

/-- The odd generations' slot of clearing 3: at offset 0 of its own tier-2 region, with room for two blocks. -/
def slotted (s : State) : State := (wrs s [(0x4083, 7, 3), (0x4083, 0xA, 0x800000)]).setFrc 0x4043 4 0x1000000

/-- The same slot on module 5, behind the spur port 31. -/
def slottedFar (s : State) : State :=
  wrs s [(0x4083, 6, 5), (0x4083, 7, 3), (0x4083, 0xA, 0x800000), (0x51F0, 1, 3), (0x51F0, 2, 3), (0x51F0, 4, 5)]

/-- A verified shard of no blocks, generation 1, whose slot here holds its header. -/
def shard3 : State :=
  let s := (((slotted (job3.wr 0x4083 0xB 2)).wr 0x4083 0xC 1).setClr 3 { job3.clr 3 with
    plan := some { planFor 3 1 with ckptShards := 1 } }).setCkpt 3 { gen := 1, verified := true }
  { s with mem := Mem.writes [] (regionAddr 2 3 blockBytes) (s.shardHeader 3) }

/-- SnapshotsCopyAndComplete: a wanted snapshot with and without a free channel, its slot here, on another module and too
small, a block to copy, one with a POISON line and none, a shard to verify whose slot reads back or not, a verified one of
all and of one more, a member told of a generation, another press with a shard of it, and a snapshot that is not
wanted. -/
theorem witness_SnapshotsCopyAndComplete :
    wfClearing 3 = true ∧ job3.power.mode ≠ .off ∧ wfChannel 3 = true ∧ (job3.ckpt 3).wanted = false ∧
    (let s := job3.setCkpt 3 { wanted := true }
     (s.ckpt 3).wanted = true ∧ (s.clr 3).inStep = false ∧ s.clearState 3 ≠ 0 ∧ s.freeChannel 3 = some 0 ∧
     ({ s with copiers := [(0, { clearing := some 1 }), (1, { clearing := some 1 }), (2, { clearing := some 1 }),
                           (3, { clearing := some 1 })] } : State).freeChannel 3 = none) ∧
    (snap3.copier 3).clearing = some 3 ∧ nextBlock (snap3.copier 3) = some 7 ∧ (snap3.copier 0).clearing = none ∧
    nextBlock ({ clearing := some 3 } : Copier) = none ∧ snap3.badRange 3 1 (7 * blockBytes) blockBytes = [] ∧
    ({ snap3 with poison := [(regionPlace 1 3 (7 * blockBytes)).addr] } : State).badRange 3 1 (7 * blockBytes) blockBytes ≠
      [] ∧
    snap3.memoryWf ∧ (snap3.buddyOf 3 1).1 = snap3.ownModule ∧ (snap3.copier 3).stalled = [] ∧
    ((snap3.wr 0x4083 6 5).buddyOf 3 1).1 ≠ (snap3.wr 0x4083 6 5).ownModule ∧ ((snap3.wr 0x4083 7 3).buddyOf 3 1).2.1 = 3 ∧
    (snap3.setFrc 0x4043 4 0x1000000).mayReach 3 3 2 0x200000 64 = true ∧
    (let s := (job3.wr 0x4083 0xB 2)
     s.ckptState 3 = 2 ∧ (s.ckpt 3).verified = false ∧ ((s.setCkpt 3 { verified := true }).ckpt 3).verified = true ∧
       s.isLeader 3 = true ∧ (s.wr 0x9083 1 5).isLeader 3 = false ∧ s.jobRole 3 = 1) ∧ job3.ckptState 3 ≠ 2 ∧
    job3.rd 0x4083 0xC = 0 ∧
    (slotted job3).slotFits 3 ((slotted job3).nextGen 3) = true ∧ job3.slotFits 3 (job3.nextGen 3) = false ∧
    (slottedFar job3).slotFits 3 1 = true ∧ ((slottedFar job3).buddyOf 3 1).1 ≠ (slottedFar job3).ownModule ∧
    (slotted snap3).slotFits 3 1 = true ∧ (slotted job3).slotReach 3 0 3 0 64 = true ∧
    (job3.wr 0x4083 7 3).slotReach 3 0 3 0 64 = false ∧
    (shard3.readBackSlot 3 0).1 = true ∧ ((slotted job3).readBackSlot 3 0).1 = false ∧ shard3.slotBad 3 0 = [] ∧
    shard3.slotSound 3 0 = true ∧ 2 * blockBytes ≤ shard3.regionLen 3 2 ∧
    ((shard3.setCkpt 3 { gen := 1 }).ckpt 3).verified = false ∧ shard3.buddyOf 3 1 = (shard3.ownModule, 3, 0) ∧
    shard3.regionLen 3 2 < 0x1000000 + 2 * blockBytes ∧ shard3.allShards 3 (shard3.genUnderWay 3) [] = true ∧
    shard3.allShards 3 (shard3.genUnderWay 3) [(1, zeros 32)] = false ∧
    (let s := withClearing (((slotted snap3).wr 0x4084 0xC 1).setCkpt 3 { gen := 1 }) 4 3 1
     4 ∈ s.jobPresses 3 ∧ s.rd 0x4084 0xC = (s.ckpt 3).gen ∧ (s.copier 3).clearing = some 3) := by
  refine ⟨?_, ?_, ?_, ?_, ?_, ?_, ?_, ?_, ?_, ?_, badRange_ne_nil _ _ _ _ _ (by decide) (by decide), ⟨rfl, rfl, rfl⟩, ?_, ?_,
    ?_, ?_, ?_, ?_, ?_, ?_, ?_, ?_, ?_, ?_, ?_, ?_, ?_, ?_, ?_, ?_, ?_, ?_, ?_, ?_, ?_, ?_, ?_, ?_⟩ <;> decide +kernel

/-- A generation that is complete and passes every row for `s`. -/
def goodGen (s : State) (gen step : Nat) : GenCheck :=
  { present := true, generation := gen, step := step, version := 1, vatStep := 1, scaleId := s.rd 0x1000 3,
    planShape := s.planShape 3, missing := none, mismatch := none, corrupt := none }

/-- RestoresAndRejoins: two generations, one usable and none; a clearing that is no press; a restore and a rejoin in
progress, their last module ready. -/
theorem witness_RestoresAndRejoins :
    (let a := goodGen job3 2 9
     let b := { goodGen job3 1 4 with present := false }
     (job3.chooseGen 3 false a b).1 = some a ∧ a.present = true ∧ b.present = false ∧ job3.judgeGen 3 a = none ∧
       job3.judgeGen 3 { a with missing := some 0 } ≠ none ∧ (job3.chooseGen 3 false b b).1 = none ∧
       (job3.chooseGen 3 false b b).2 = none ∧ (goodGen job3 1 4).present = true ∧
       seqNewer (goodGen job3 1 4).generation a.generation = false ∧ job3.judgeGen 3 (goodGen job3 1 4) = none) ∧
    job3.reachable = true ∧ job3.roleOf 1 = some .manager ∧ job3.clearState 3 = 3 ∧ job3.jobRole 3 = 1 ∧
    job3.isLeader 3 = true ∧ (withClearing run 3 3 2).jobRole 3 ≠ 1 ∧
    (let s := (job3.wr 0x9083 0xA 2).setRecov 3 { chosen := some (goodGen job3 2 9) }
     s.recState 3 = 2 ∧ (s.recov 3).chosen = some (goodGen job3 2 9) ∧ s.jobRole 3 = 1 ∧ s.isLeader 3 = true ∧
       (s.recov 3).fallback = none ∧ (job3.recov 3).chosen = none ∧ (s.blockList 3)[1]? = some 7 ∧
       ((s.setRecov 3 { fallback := some (goodGen job3 1 4) }).recov 3).fallback = some (goodGen job3 1 4)) ∧
    (let s := job3.setRecov 3 { rejoining := [5, 6], readyMods := [6] }
     s.recState 3 = 0 ∧ 5 ∈ (s.recov 3).rejoining ∧ wfModule 5 = true ∧ 7 ∉ (s.recov 3).rejoining ∧
       (∀ k ∈ (s.recov 3).rejoining, k = 5 ∨ k ∈ (s.recov 3).readyMods) ∧ (6 : Nat) ≠ 5 ∧
       6 ∈ ((s.setRecov 3 { rejoining := [5, 6] }).recov 3).rejoining ∧
       6 ∉ ((s.setRecov 3 { rejoining := [5, 6] }).recov 3).readyMods) ∧
    (let s := (job3.wr 0x9083 0xA 3).setRecov 3 { rejoining := [5] }
     s.recState 3 = 3 ∧ s.ownModule ∉ (s.recov 3).rejoining ∧ s.forwardDone 3 = false ∧
       (let t := s.setCkpt 3 { gen := 2, last := some (goodGen s 2 9) }
        t.forwardDone 3 = true ∧ t.recState 3 = 3)) ∧
    job3.recState 3 ≠ 3 := by decide +kernel

/-- The same: a member of the job, one without a press of it, and a message of a lower epoch. -/
theorem witness_RestoresAndRejoins_members :
    (let s := job3.wr 0x9083 1 9
     s.recState 3 = 0 ∧ s.isLeader 3 = false ∧ s.clearState 3 ≠ 0 ∧ s.jobRole 3 = 1 ∧
       (s.wr 0x9083 0xA 2).recState 3 = 2 ∧ (s.wr 0x9083 0xA 2).isLeader 3 = false ∧
       ([⟨0, 0, 5, 3⟩] : List Member) ≠ []) ∧
    0 < (job3.wr 0x9083 2 1).epochOf 3 ∧
    (let s := (withClearing run 3 3 2).wr 0x9083 1 9
     s.recState 3 ≠ 2 ∧ s.isLeader 3 = false ∧ s.clearState 3 ≠ 0 ∧ s.jobRole 3 ≠ 1 ∧ s.jobPresses 3 = [] ∧
       3 ∈ s.jobVats 3) ∧
    3 ∈ job3.jobPresses 3 ∧ (liveMembers (job3.recov 3)).any (fun m => m.modNo != job3.ownModule) = true := by decide +kernel

/-- FailuresShrinkTheJob: heartbeats of another module and of this one, a miss below and at the limit, a report of an
old epoch and of the present one, at a leader and a member; a shrink under way and due; step times. -/
theorem witness_FailuresShrinkTheJob :
    wfClearing 3 = true ∧ job3.power.mode ≠ .off ∧ job3.clearState 3 ≠ 0 ∧ job3.jobRole 3 = 1 ∧ wfModule 5 = true ∧
    5 ≠ job3.ownModule ∧ (∃ m ∈ liveMembers (job3.recov 3), m.modNo ≠ job3.ownModule) ∧ job3.epochOf 3 ≤ 0 ∧
    0 < (job3.wr 0x9083 2 1).epochOf 3 ∧ (∃ x ∈ liveMembers (job3.recov 3), x.modNo = 5) ∧
    job3.epochOf 3 ≤ 1 ∧ ([5] : List Nat).contains (job3.rd 0x9083 5) = false ∧
    job3.isLeader 3 = true ∧ 5 ∉ (job3.recov 3).failedMods ∧ 5 ∉ (job3.recov 3).rejoining ∧ job3.recState 3 = 0 ∧
    (let gone (t : Nat) := (t - (look (job3.recov 3).lastHeard 5).getD 0) / (1000000 * job3.rd 0x90C0 4)
     gone 99999999 = 0 ∧ gone 400000000 ≠ 0 ∧ gone 400000000 < job3.rd 0x90C0 5 ∧ job3.rd 0x90C0 5 ≤ gone 500000000) ∧
    (let s := job3.wr 0x9083 1 9
     s.isLeader 3 = false ∧ 5 ≠ s.rd 0x9083 1) ∧
    (1 ≤ job3.rd 0x90C0 3 ∧
      let drop := hitReplicas { job3.recov 3 with failedMods := (job3.recov 3).failedMods ++ [5] }
      job3.rd 0x9083 4 ≤ ((replicasOf (job3.recov 3).members).filter fun k =>
        !drop.contains k && !(job3.recov 3).dropped.contains k).length) ∧
    (let s := (job3.wr 0x9083 0xA 1).setRecov 3 { shrinkAt := some 0, failedMods := [5] }
     s.recState 3 = 1 ∧ s.isLeader 3 = true ∧ (s.recov 3).shrinkAt = some 0 ∧
       1000000000 * s.rd 0x90C0 2 ≤ 20000000000 - 0 ∧ ((job3.wr 0x9083 0xA 1).noteTotals 3 []).allTold 3 = false ∧
       (let t := (job3.wr 0x9083 0xA 1).setRecov 3 { job3.recov 3 with discard := true, told := [(0, false)] }
        (t.noteTotals 3 [(5, true)]).allTold 3 = true ∧ (t.recov 3).discard = true ∧ (t.setClr 3 { t.clr 3 with
          inStep := true }).recState 3 = 1 ∧ (job3.setFrc 0x4043 3 0x200000).regionLen 3 1 = 0x200000) ∧
       (s.fillAll 3 [] (s.recov 3).failedMods).2 = false ∧
       ((s.setRecov 3 { members := [⟨1, 0, 5, 3⟩], failedMods := [5] }).fillAll 3 [] [5]).2 = true ∧
       (let g := goodGen s 2 9
        (s.chooseGen 3 false g { g with present := false }).1 = some g ∧
          (s.chooseGen 3 false { g with present := false } { g with present := false }).1 = none)) ∧
    job3.recState 3 ≠ 1 ∧ ([1].contains (job3.rd 0x9083 5) = false) ∧
    (job3.recov 3).slow = [] ∧ 2 ≤ job3.rd 0x9083 8 ∧ ([((0 : Nat), (5 : Nat)), (5, 9)].map (·.1)).Nodup := by
  decide +kernel

/-! ### Ports, flits, collectives -/

/-- A readable cable of a power in mW. -/
def cableOf (mw : Nat) : Cable := { vendor := [], part := [], serial := [], lenDm := 20, delayPs := 10000, powerMw := mw }

/-- RUN with port 0 in TORUS mode and port 31 a gateway, both in one PORT_STATE. -/
def ports (st : Nat) : State :=
  wrs run [(0x5000, 1, 1), (0x5000, 2, st), (0x51F0, 1, 4), (0x51F0, 2, st)]

/-- An identity of module 5. -/
def ident5 : Ident := { peerModule := 5, peerPort := 2, idCert := [], attestCert := [], nonce := [], signature := [] }

/-- PortsComeUp: an OFF port, one without a cable, one at and above 3.0 W, a gateway; identities in IDENT and elsewhere;
a first and a second bad lane. -/
theorem witness_PortsComeUp :
    wfPort 31 = true ∧ run.power.mode ≠ .off ∧ run.portMode 31 = 0 ∧ (ports 0).portMode 0 ≠ 0 ∧
    (PortEnv.mk none true none).cable = none ∧
    (PortEnv.mk (some (cableOf 3000)) true (some 8)).badLane = some 8 ∧
    (PortEnv.mk (some (cableOf 3000)) true (some 2)).cable = some (cableOf 3000) ∧ (cableOf 3000).powerMw ≤ 3000 ∧
      3000 < (cableOf 3001).powerMw ∧ (ports 0).portMode 31 = 4 ∧
    (ports 2).portState 0 = 2 ∧ (ports 6).portState 0 = 6 ∧ (ports 3).portState 0 ≠ 2 ∧ (ports 3).portState 0 ≠ 6 ∧
    allZero (slice ((ports 2).rdBlob 0x5000 7) 0 32) = true ∧
    allZero (slice (((ports 2).wrBlob 0x5000 7 [1]).rdBlob 0x5000 7) 0 32) = false ∧
    wfLane 8 = true ∧ wfLane 9 = true ∧ (ports 2).portWorks 0 = false ∧ (ports 3).portWorks 0 = true ∧
      (ports 3).portWorks 31 = true ∧
    0 ∉ ((ports 3).port 0).lanesFailed ∧ (ports 3).rd 0x5000 3 = 0xFF ∧ 8 ∉ ((ports 3).port 0).lanesFailed ∧
    (let s := ((ports 4).wr 0x5000 3 2).setPort 0 { lanesFailed := [2] }
     s.portWorks 0 = true ∧ 2 ∈ (s.port 0).lanesFailed ∧ 3 ∉ (s.port 0).lanesFailed ∧ s.rd 0x5000 3 ≠ 0xFF) ∧
    8 ∈ (((ports 3).setPort 0 { lanesFailed := [8] }).port 0).lanesFailed ∧ ((ports 3).port 0).queue = [] := by
  decide +kernel

/-- The same: a port retrained with a flit of this module's that no engine holds, and with one of a chunk that is held. -/
theorem witness_PortsComeUp_retrain :
    (let f : Flit := { dest := 5, src := 0, op := 4, tag := 7, portSet := 0, vc := 0, lines := 1, expressDone := false,
                       hops := 0, clearing := 3, job := 9, target := 0, lseq := 0, lack := 0, credits := 0, creditVc := 0,
                       lineIdx := 0, payload := [], rsv := 0, fcrc := 0 }
     let hold : Trig := { clearing := 3, desc := readTrig [], attempt := 0, tag := 7 }
     let s : State := { (ports 3).setPort 0 { replay := [f] } with linkDies := [(3, { holds := [hold] })] }
     (s.port 0).replay = [f] ∧ f.src = s.ownModule ∧ f.op = 4 ∧ s.heldTag 7 = some (3, hold) ∧
       ({ f with op := 2 } : Flit).op ≠ 4 ∧ ({ f with op := 2 } : Flit).src = s.ownModule) := by decide +kernel

/-- A peer that is not the one expected: the certificate's hash is one value, and PEER_EXPECTED may be another. -/
theorem witness_PortsComeUp_changed : ∃ s : State, s.portState 0 = 2 ∧
    allZero (slice (s.rdBlob 0x5000 7) 0 32) = false ∧ slice (s.rdBlob 0x5000 7) 0 32 ≠ sha256 (certKey ident5.idCert) :=
  ⟨(ports 2).wrBlob 0x5000 7 [1], by decide +kernel⟩

/-- A flit of module 5 to a module, its operation and link fields; its FCRC is not set. -/
def flitBase (dest op lseq lack credits hops : Nat) : Flit :=
  { portSet := 0, dest := dest, src := 5, op := op, vc := 0, lines := 1, expressDone := false, hops := hops, clearing := 3,
    job := 9, target := 0x1000000000000000, lseq := lseq, lack := lack, credits := credits, creditVc := 0, tag := 7,
    lineIdx := 0, payload := zeros 64, rsv := 0, fcrc := 0 }

/-- That flit with an FCRC that passes, or does not. -/
def flitOf (dest op lseq lack credits hops : Nat) (ok : Bool) : Flit :=
  { flitBase dest op lseq lack credits hops with
    fcrc := (flitBase dest op lseq lack credits hops).check + if ok then 0 else 1 }

/-- The FCRC does not cover itself: a flit whose FCRC is its check passes, and one whose FCRC is another does not. -/
theorem fcrcOk_set (f : Flit) (ok : Bool) : ({ f with fcrc := f.check + if ok then 0 else 1 } : Flit).fcrcOk = ok := by
  have h (x : Nat) : ({ f with fcrc := x } : Flit).check = f.check := by simp only [Flit.check, Flit.header]
  unfold Flit.fcrcOk
  rw [h]
  show (f.check + (if ok then 0 else 1) == f.check) = ok
  generalize f.check = k
  cases ok
  · exact beq_eq_false_iff_ne.mpr (Nat.succ_ne_self k)
  · exact beq_self_eq_true k

/-- Its check passes exactly when it is to. -/
theorem flitOf_fcrcOk (dest op lseq lack credits hops : Nat) (ok : Bool) :
    (flitOf dest op lseq lack credits hops ok).fcrcOk = ok := fcrcOk_set _ ok

/-- A datagram for the gateway of port 31. -/
def gram (op : GwOp) : GwDatagram :=
  let s := ports 3
  { mac := s.rd 0x51F2 1, vlan := s.rd 0x51F2 4, addr := s.linkLocal 31, udpPort := s.rd 0x51F2 3, frameBytes := 9216,
    session := 2, transfer := 1, number := 0, op := op, clearing := 3, tier := 1, offset := 0, sealedData := [], tag := [] }

/-- FlitsAreCheckedAndForwarded: a bad flit, one with a reserved field, one out of sequence and one in sequence, CONTROL
flits with and without credits, a port that does not work; a flit to pass on, from a BUDDY port, at its last hop, and
without a way or a credit; datagrams and frames of a gateway, its own and another's. The check of each is
flitOf_fcrcOk's. -/
theorem witness_FlitsAreCheckedAndForwarded :
    (ports 3).power.mode ≠ .off ∧ (ports 3).portMode 0 ≠ 4 ∧ (ports 3).portWorks 0 = true ∧
    (ports 2).portState 0 = 2 ∧ (ports 1).portWorks 0 = false ∧ (ports 1).portState 0 ≠ 2 ∧ (ports 1).portState 0 ≠ 6 ∧
    wfModule 5 = true ∧
    (flitOf 0 1 0 0 3 0 true).reserved = false ∧ (flitOf 0 0 0 0 0 0 true).reserved = true ∧
    (flitOf 0 1 4095 0 0 0 true).reserved = false ∧ (flitOf 0 9 0 0 0 0 true).reserved = false ∧
    (flitOf 0 9 0 0 1 0 true).credits ≠ 0 ∧ (flitOf 5 1 0 0 0 30 true).reserved = false ∧
    30 ≤ (flitOf 5 1 0 0 0 30 true).hops ∧ ((ports 3).wr 0x5000 1 3).portMode 0 = 3 ∧
    (ports 3).gatewayOwn 31 (gram .data) = true ∧ (ports 3).gatewayOwn 31 { gram .data with frameBytes := 9217 } = false ∧
    (gram .data).tier = 1 ∧ (gram (.drain 1)).op = .drain 1 ∧ (ports 3).session (gram .data).session ≠ none ∧
    (ports 3).channelOf 3 = none ∧ (ports 3).frc 0x2450 3 ≠ 1 ∧
    (flitOf 0 1 4095 0 0 0 true).lseq ≠ ((ports 3).port 0).expected ∧
    (flitOf 0 1 0 0 3 0 true).lseq = ((ports 3).port 0).expected ∧ (flitOf 0 9 0 0 0 0 true).op = 9 ∧
    (((ports 3).takeLink 0 (flitOf 0 9 0 0 0 0 true)).port 0).replays + 1 < 8 ∧
    8 ≤ ((((ports 3).setPort 0 { replays := 7 }).takeLink 0 (flitOf 0 9 0 0 0 0 true)).port 0).replays + 1 ∧
    5 ≠ (ports 3).ownModule ∧ 29 < 30 ∧ (ports 3).hopPort (dieOfPort 0) 1 0 false = some 0 ∧
    (ports 3).creditsOf 0 ((ports 3).nextVc 0 0 0) ≠ 0 ∧ ((ports 3).port 0).replay.length < 512 ∧
    ((ports 3).setPort 0 { credits := [(0, 0), (1, 0)] }).creditsOf 0
      (((ports 3).setPort 0 { credits := [(0, 0), (1, 0)] }).nextVc 0 0 0) = 0 ∧
    (run.setFrc 0x1003 1 0x4001).hopPort (dieOfPort 0) 1 0 false = none ∧ 1 ≠ (run.setFrc 0x1003 1 0x4001).ownModule ∧
      wfGwPort 31 = true ∧ (ports 3).portMode 31 = 4 ∧
    (ports 3).portWorks 31 = true ∧ (ports 1).portWorks 31 = false ∧ (ports 3).session 9 = none ∧
    (ports 3).session 2 = some (sessOf 2 (.tenant 7)) ∧ look (ports 3).sec.datagrams (pow2 32 * 2 + 1) = none ∧
    (∃ k ∈ [(1024 : Nat)], 0 + 1023 < k) ∧ (ports 3).ownAddress 31 ((ports 3).linkLocal 31) = true ∧
    (ports 3).ownAddress 31 (zeros 16) = false ∧ (ports 3).bufferFull 0 0 = false ∧
    ((ports 3).setPort 0 { held := [(0, 192)] }).bufferFull 0 0 = true ∧
    ({ flitOf 0 9 0 0 0 0 true with rsv := 1 } : Flit).reserved = true ∧ job3.slotHolds 3 0 1 = false ∧
    ({ shard3 with mem := Mem.writes [] (regionAddr 2 3 0) (shard3.manifest 3 0 (shard3.genUnderWay 3) []) } :
      State).slotHolds 3 0 1 = true := by decide +kernel

/-- A chunk descriptor of one line between tier-1 locations. -/
def descOf (top threshold : Nat) : TrigDesc :=
  { top := top, tflags := 0, trig := 1, threshold := threshold, step := 0, coll := 4095, dstModule := 5, dstClearing := 3,
    portSet := 0, chunk := 2, length := 64, src := 0x1000000000000000, dst := 0x1000000000000001, dstTrig := 3,
    signal := 0, srcAck := 4, opId := 6, rsvSet := false }

/-- Its 64 bytes (14 R307). -/
def trigBytes (d : TrigDesc) : List Byte :=
  leBytes 1 d.top ++ leBytes 1 d.tflags ++ leBytes 2 d.trig ++ leBytes 2 d.threshold ++ leBytes 2 d.step ++
    leBytes 2 d.coll ++ leBytes 2 d.dstModule ++ leBytes 1 d.dstClearing ++ leBytes 1 d.portSet ++ zeros 2 ++
    leBytes 4 d.chunk ++ leBytes 4 d.length ++ leBytes 8 d.src ++ leBytes 8 d.dst ++ leBytes 2 d.dstTrig ++
    leBytes 2 d.signal ++ leBytes 2 d.srcAck ++ zeros 2 ++ leBytes 8 d.opId ++ zeros 8

/-- The manual's layout of a descriptor, read back; a reserved byte is seen. -/
theorem test_read_trig : readTrig (trigBytes (descOf 1 1)) = descOf 1 1 ∧
    (readTrig ((trigBytes (descOf 1 1)).take 63 ++ [1])).rsvSet = true := by decide +kernel

/-- Clearing 3 with 128 bytes of tier 1 and quotas of four counters and descriptors. -/
def coll3 : State :=
  ((wrs (withClearing run 3 3 1) [(0x5223, 1, 4), (0x5223, 2, 4)]).setFrc 0x4043 3 0x200000).setFrc 0x4043 5 0x200000

/-- The transfer line of a chunk of that descriptor. -/
def lineOf3 (crc : Nat) : ChunkLine :=
  { src := 5, job := 9, clearing := 3,
    line := leBytes 2 4095 ++ zeros 2 ++ leBytes 4 2 ++ leBytes 4 crc ++ leBytes 2 3 ++ zeros 2 ++ leBytes 2 4 ++ zeros 6 ++
      leBytes 8 6 ++ zeros 32 }

/-- A held chunk with a number of resends. -/
def held3 (k : Nat) : State :=
  { coll3 with linkDies := [(3, { holds := [{ clearing := 3, desc := descOf 1 1, attempt := k }] })] }

/-- CollectivesAreChecked: each refusal of TRIG_POST, a descriptor that waits and one that is sent; chunks good,
corrupt, repeated, foreign and with a reserved field; a held chunk and none, before and after its third resend; a
collective that may fail, one past COLL_TIMEOUT, and one that has failed. -/
theorem witness_CollectivesAreChecked :
    wfLinkDie 3 = true ∧ wfClearing 3 = true ∧ wfColl 4095 = true ∧ coll3.power.mode ≠ .off ∧ run.clearState 3 = 0 ∧
    coll3.clearState 3 ≠ 0 ∧ trigReserved (readTrig (trigBytes (descOf 5 0))) = true ∧
    trigReserved (readTrig (trigBytes (descOf 1 1))) = false ∧
    (withClearing run 3 3 1).trigForeign 3 (descOf 1 1) = true ∧ coll3.trigForeign 3 (descOf 1 1) = false ∧
    (coll3.takeTrig 3 3 1).isSome = true ∧ coll3.freeTrigSlot 3 3 = some 0 ∧ coll3.readySlots 3 = [] ∧
    coll3.trigOf 3 1 < 1 ∧ (coll3.linkDie 3).slots = [] ∧ 0 ≤ coll3.trigOf 3 1 ∧ bitOf (descOf 1 0).tflags 0 = false ∧
    ((coll3.wr 0x5223 1 0).takeTrig 3 3 1).isNone = true ∧ (coll3.wr 0x5223 2 0).freeTrigSlot 3 3 = none ∧
    coll3.locRemote 8 3 0x1000000000000001 64 = false ∧ coll3.locRemote 9 3 0x1000000000000001 64 = true ∧
    (coll3.coll 3 4095).failed = false ∧ 2 ∉ (coll3.coll 3 4095).accepted ∧ crc32c (zeros 64) =
      (lineOf3 (crc32c (zeros 64))).crc ∧
    (lineOf3 0).clearing = 3 ∧ (lineOf3 0).chunk = 2 ∧ (lineOf3 0).dstTrig = 3 ∧
    (lineOf3 0).reserved = false ∧ ({ lineOf3 0 with line := zeros 63 ++ [1] } : ChunkLine).reserved = true ∧
    ({ lineOf3 0 with line := zeros 63 ++ [1] } : ChunkLine).clearing = 3 ∧ coll3.locBad 3 0x1000000000000000 64 = [] ∧
    crc32c (zeros 64) ≠ (lineOf3 0).crc ∧ (lineOf3 0).signalOn = false ∧ coll3.channelOf 3 = none ∧
    locTier 0x1000000000000001 ≠ 0 ∧
    (let s : State := { coll3 with colls := [(3 * 4096 + 4095, { accepted := [2], failed := false, firstFire := some 0 })] }
     2 ∈ (s.coll 3 4095).accepted ∧ (s.coll 3 4095).firstFire = some 0 ∧
       1000000 * s.rd 0x5200 5 ≤ ({ s with time := 1000000 * s.rd 0x5200 5 } : State).time - 0 ∧
       (({ s with colls := [(3 * 4096 + 4095, { failed := true })] } : State).coll 3 4095).failed = true) ∧
    coll3.heldChunk 3 (lineOf3 0) = none ∧
    ((held3 2).heldChunk 3 (lineOf3 0)).map (·.attempt) = some 2 ∧
    ((held3 3).heldChunk 3 (lineOf3 0)).map (·.attempt) = some 3 ∧ (descOf 1 1).coll = 4095 ∧
    ((withTiles coll3 15 255 [(tile 1 3 32, .loaded)]).waitingTile 3 15 255).isSome = true := by decide +kernel

/-- The same: a chunk whose lines wait for a snapshot, and none; a held source that can be read or not, a collective that
is complete here or not, and the transfer line of a COLL_FAIL. -/
theorem witness_CollectivesAreChecked_waits :
    coll3.waitingChunks = [] ∧ locOk 0x1000000000000001 = true ∧ locOk 0x1000001000000000 = false ∧
    coll3.locStalled 3 0x1000000000000001 64 = false ∧
    (let s : State := { coll3 with
      copiers := [(0, { clearing := some 3, blocks := [0] })]
      waitingChunks := [{ die := 3, line := lineOf3 0, dst := 0x1000000000000001, len := 64 }] }
     s.landWaiting.waitingChunks.any (fun w => w.line.clearing == 3 && w.line.coll == 4095 && w.line.chunk == 2) = true ∧
       s.landWaiting.locStalled 3 0x1000000000000001 64 = true) ∧
    (held3 0).locReach 3 3 (descOf 1 1).src 64 = true ∧ (held3 0).locBad 3 (descOf 1 1).src 64 = [] ∧
    ((held3 0).setFrc 0x4043 3 0).locReach 3 3 (descOf 1 1).src 64 = false ∧ (held3 0).collOpen 3 4095 = true ∧
    coll3.collOpen 3 4095 = false ∧ (lineOf3 0).reserved true = false ∧ (lineOf3 0).coll = 4095 ∧
    ({ lineOf3 0 with line := zeros 63 ++ [1] } : ChunkLine).reserved true = true ∧ 3 ∈ coll3.jobPresses 3 := by decide +kernel

/-! ### Tiles -/

/-- Clearing 3 ACTIVE on cell 255 of grove 15, where it owns scratchpad granule 0, with one tile program. -/
def cell3 : State :=
  { (((withClearing run 3 3 1).setFrcBlob 0x2031 16 (zeros 31 ++ [0x80])).setFrc 0x4043 3 0x200000) with
    cells := [(15 * 256 + 255, { ring := [⟨3, 0, 0⟩], computePtr := 3, movePtr := 3, scratchOwn := [(0, 3)] })],
    groves := [(15, { progs := [(0, [])], progUsers := [(0, [3])] })] }

/-- A CONVERT of 64 elements into BF16 at 4,096, as 04 R87 counts it. -/
def convert3 : TileDesc :=
  { tile 0x41 3 64 with role := 3, wcet := 17, fmtOut := 1, outAddr := 4096 }

/-- The descriptor's 64 bytes (03 R46). -/
def bytesOf (d : TileDesc) : List Byte :=
  leBytes 1 d.kind ++ leBytes 1 d.role ++ leBytes 1 d.program ++ leBytes 1 d.clearing ++ leBytes 2 d.flags ++ leBytes 2 d.wcet
    ++ leBytes 1 d.fmtA ++ leBytes 1 d.fmtB ++ leBytes 1 d.fmtOut ++ leBytes 1 d.counters ++ leBytes 2 d.waitValue
    ++ leBytes 2 d.k ++ leBytes 4 d.aAddr ++ leBytes 4 d.bAddr ++ leBytes 4 d.outAddr ++ leBytes 4 d.auxAddr
    ++ leBytes 4 d.strideA ++ leBytes 4 d.strideB ++ leBytes 4 d.strideOut ++ leBytes 4 d.rsv ++ leBytes 8 d.tileId
    ++ leBytes 8 d.args

/-- The manual's layout of a descriptor, read back. -/
theorem test_decode_tile : decodeTile (bytesOf convert3) = convert3 := by decide +kernel

/-- TilesAreLoadedAndPicked: a descriptor of 64 bytes and one of another length; it passes every check, or fails the
last field's; a plan stopped, a cell full of tiles; a READY tile of the pointer's clearing, and no tile. -/
theorem witness_TilesAreLoadedAndPicked :
    wfCell 15 255 = true ∧ cell3.power.mode = .run ∧ heldNow.power.mode ≠ .run ∧ (bytesOf convert3).length = 64 ∧
    (bytesOf convert3 ++ [0]).length ≠ 64 ∧ (cell3.cell 15 255).held = [] ∧ 15 ∉ (cell3.clr 3).stopped ∧
    (∀ w ∈ [17, 18],
      let s1 := (cell3.setCell 15 255 { cell3.cell 15 255 with held := [{ convert3 with wcet := w }] }).collect 15 255
      s1.slotLimit 15 255 = 8 ∧ s1.isParked 3 15 255 = false ∧
        (s1.tileCheck 15 255 { convert3 with wcet := w }).isNone = (w == 17)) ∧ cell3.clearState 3 ≠ 4 ∧
    15 ∈ ((cell3.setClr 3 { stopped := [15] }).clr 3).stopped ∧
    8 ≤ ((withTiles cell3 15 255 (List.replicate 8 (convert3, .loaded))).cell 15 255).slots.length ∧
    cell3.power.holding = false ∧ cell3.classRuns 15 255 .compute = false ∧ cell3.hosted 15 255 = true ∧
    (withTiles cell3 15 255 [(convert3, .running)]).classRuns 15 255 .compute = true ∧
    (∀ n < 64, cell3.eligible n 15 255 .move = false) ∧
    (let s := cell3.setCell 15 255 { cell3.cell 15 255 with
       slots := [{ desc := convert3, st := .ready, chainHead := true, tries := 0 }] }
     s.eligible 3 15 255 .compute = true ∧ 0 ≤ deficitAt .compute (s.cell 15 255).ring 3) := by decide +kernel

/-- A running tile of clearing 3 on cell 255 of grove 15. -/
def running3 (d : TileDesc) : State := withTiles (withClearing run 3 3 1) 15 255 [(d, .running)]

/-- A compute tile of a kind with a parameter line at 2,048. -/
def ctile (kind : Nat) : TileDesc := { tile kind 3 64 with auxAddr := 2048, outAddr := 8192, strideB := 2 }

/-- The kinds of ComputeTilesRunWhole with their results. -/
def kinds : List (Nat × (State → List TileDesc → RunRes)) :=
  [(0x01, matmulRes 15 255), (0x40, splitRes 15 255), (0x41, convertRes 15 255), (0x20, rowRes 15 255),
   (0x21, rowRes 15 255), (0x22, rowRes 15 255), (0x23, rowRes 15 255), (0x24, rowRes 15 255), (0x80, funcRes 15 255),
   (0x81, maskRes 15 255), (0x82, rawRes 15 255), (0x60, updateP1Res 15 255), (0x61, updateP2Res 15 255),
   (0x62, scalarsRes 15 255), (0x64, prepRes 15 255), (0x65, cholRes 15 255), (0x66, mmRes 15 255),
   (0x67, affineRes 15 255)]

/-- ComputeTilesRunWhole: for every kind a running tile whose line is in order; a line that is not; a tile that would draw
from a FAILED table. -/
theorem witness_ComputeTilesRunWhole :
    wfCell 15 255 = true ∧
    (∀ e ∈ kinds, let s := running3 (ctile e.1)
      s.power.mode = .run ∧ s.tileWaits 15 255 = false ∧
      ((s.runningSlots 15 255 .compute).map (·.desc)).head? = some (ctile e.1) ∧ (ctile e.1).clearing < 64 ∧
      s.badInput 15 255 [ctile e.1] = none ∧ (e.2 s [ctile e.1]).lineOk = true) ∧
    (let s : State := { running3 (ctile 0x81) with mem := [⟨cellAddr 15 270 2052, 1⟩] }
     s.physOf 15 255 = 270 ∧ (maskRes 15 255 s [ctile 0x81]).lineOk = false) ∧
    (let s := (running3 (ctile 0x82)).setGrove 15 { tableState := 3 }
     [ctile 0x82].any s.draws = true ∧ (s.grove 15).tableState = 3 ∧ ((running3 (ctile 0x82)).grove 15).tableState ≠ 3) := by
  decide +kernel

/-- MaskAndRawWordDraws: both kinds with a line in order. -/
theorem witness_MaskAndRawWordDraws :
    ∀ k ∈ [0x81, 0x82], let s := running3 (ctile k)
      wfCell 15 255 = true ∧ s.power.mode = .run ∧ s.tileWaits 15 255 = false ∧ Mem.wf s.mem = true ∧
      ((s.runningSlots 15 255 .compute).map (·.desc)).head? = some (ctile k) ∧ s.badInput 15 255 [ctile k] = none ∧
      s.functionLineOk 15 255 (ctile k) = true ∧ (s.grove 15).tableState ≠ 3 ∧ (ctile k).kind = k := by decide +kernel

/-- MaskAndRawWordDraws: a RAW_WORDS tile that names the index of the third token of a sequence. -/
theorem witness_MaskAndRawWordDraws_index :
    let y : Seqn := { req := reqOf 8, slot := 0, tokens := [1, 2], start := 2, pos := 0, pages := [], kept := [],
                      bucket := 0, curd := none, active := true, chunk := 1, fault := [] }
    let d := { ctile 0x82 with args := State.sampleIndex y.req.tag y.tokens.length }
    let s := running3 d
    0 < d.k ∧ indexBase d = State.sampleIndex y.req.tag y.tokens.length ∧ s.badInput 15 255 [d] = none ∧
      ((s.runningSlots 15 255 .compute).map (·.desc)).head? = some d ∧ s.functionLineOk 15 255 d = true := by
  decide +kernel

/-- A move tile of clearing 3 with ARGS. -/
def mtile (kind args : Nat) : TileDesc := { tile kind 3 1 with fmtA := if kind = 0xA6 then 3 else 0, fmtB := 3, args := args }

/-- MOVE's ARGS: tier, direction out, module, line. -/
def mvArgs (tier out modNo line : Nat) : Nat := tier * pow2 60 + out * pow2 59 + modNo * pow2 44 + line * 256

/-- MoveTilesCarryLines: every kind running; a MOVE in, out, out of reach, into an open snapshot, and from and to another
module; a gather of pages homed here; an append with and without a sequence, into a SHARED page and not; a TRIGGER_POST. -/
theorem witness_MoveTilesCarryLines :
    (∀ d ∈ [mtile 0xA0 (mvArgs 1 0 0 1), mtile 0xA0 (mvArgs 1 1 0 1), mtile 0xA0 (mvArgs 1 0 5 1),
        mtile 0xA0 (mvArgs 1 1 5 1), mtile 0xA1 (1 * 2048), mtile 0xA2 (1 * 2048), mtile 0xA3 0, mtile 0xA4 0, mtile 0xA5 0,
        mtile 0xA6 (pow2 60 + 2 * pow2 56)],
      let s := running3 d
      s.power.mode = .run ∧ s.tileWaits 15 255 = false ∧ ((s.runningSlots 15 255 .move).head?.map (·.desc)) = some d ∧
        s.anyBad = false ∧ s.badInput 15 255 [d] = none ∧ d.clearing < 64) ∧
    (let s := (running3 (mtile 0xA0 (mvArgs 1 0 0 1))).setFrc 0x4043 3 0x200000
     let d := mtile 0xA0 (mvArgs 1 1 0 1)
     mvModule d = s.ownModule ∧ s.mayReach 3 3 (mvTier d) (64 * mvLine d) (64 * d.k) = true ∧ mvOut d = true ∧
       s.uncopied 3 (64 * mvLine d) (64 * d.k) = [] ∧ mvTier d = 1 ∧
       ({ s with copiers := [(0, { clearing := some 3, blocks := [0] })] } : State).uncopied 3 (64 * mvLine d) (64 * d.k) ≠ [] ∧
       s.mayReach 3 3 1 (64 * 0x8000) 64 = false ∧ mvModule (mtile 0xA0 (mvArgs 1 1 5 1)) ≠ s.ownModule ∧
       s.uncopied 3 0 4096 = []) ∧
    (let s := (running3 (mtile 0xA6 (pow2 60 + 2 * pow2 56))).setFrc 0x4043 3 0x200000
     (s.setFrc 0x4043 4 0x200000).tierMay (mtile 0xA6 (pow2 60 + 2 * pow2 56)) = true ∧
       s.tierMay (mtile 0xA6 (pow2 60 + 2 * pow2 56)) = false) ∧
    (let d := mtile 0xA2 (1 * 2048)
     let y : Seqn := { req := reqOf 8, slot := 0, tokens := [1, 2], start := 2, pos := 0, pages := [(0, 6)], kept := [],
                       bucket := 0, curd := none, active := true, chunk := 1, fault := [] }
     let s := (running3 d).setVat 3 { seqs := [y], pages := [(6, { st := 1, refs := 1 })] }
     let fed (s : State) (l : List Nat) := (s.walk d l).map fun q => readPage q.bytes
     let shared := s.setPage 3 6 { st := 2 }
     pgParts d = [0] ∧ pgCount d = 1 ∧ s.stepSeq 3 (pgSeq d) = some y ∧ shared.stepSeq 3 (pgSeq d) = some y ∧
       (running3 d).stepSeq 3 (pgSeq d) = none ∧
       ((fed s [0, 1]).find? fun q => q.posPage == y.pos / 256).isSome = true ∧
       ((fed shared [0, 1]).find? fun q => q.posPage == y.pos / 256).isSome = true ∧
       (∀ p ∈ fed s [0, 1], s.descHere 3 p = true ∧ s.mayAppend 3 y (s.descPage 3 p) y.pos = true ∧
         shared.mayAppend 3 y (shared.descPage 3 p) y.pos = false) ∧
       s.uncopied 3 (s.sliceOff 3 6 0 0) (s.kvBytes 3) = [] ∧
       (∀ p ∈ fed s (gatherRange (mtile 0xA1 (1 * 2048))), s.descHere 3 p = true) ∧ Mem.wf s.mem = true) ∧
    (let d := ctile 0x50
     let s := running3 d
     ((s.runningSlots 15 255 .compute).map (·.desc)).head? = some d ∧ (s.linkDie 0).slots = [] ∧
       (s.takeTrig 0 3 0).isNone = true ∧ ((s.wr 0x5223 1 4).takeTrig 0 3 0).isSome = true) := by decide +kernel

/-! ### Signals, cells, steps, turning -/

/-- An outstanding request of the parked tile of clearing 3 on cell 255 of grove 15. -/
def remote7 (lines : Nat) : Remote :=
  { tag := 7, grove := 15, cell := 255, clearing := 3, tileId := 0, issued := 0, lines := lines, got := [], landing := 64 }

/-- The state with that request and its asker's tile. -/
def asking (d : TileDesc) : State :=
  { withTiles (withClearing run 3 3 1) 15 255 [(d, .parked)] with remotes := [remote7 1] }

/-- SignalsAndRemoteRequests, its counters: one absent, full, own and of a parked context; a write in flight. -/
theorem witness_SignalsAndRemoteRequests_counters :
    (let p (v : Nat) : Parked := { claimant := 5, victim := 4, compute := 0, move := 0, slots := [], ctrs := [(4, v)],
                                   scratch := [], side := [] }
     let s := run.setCell 15 255 { ctrs := [(3, 0xFFFF), (3, 4)], parked := [p 0xFFFE, p 1] }
     s.power.mode ≠ .off ∧ wfCell 15 255 = true ∧ 3 < 64 ∧ 15 < 16 ∧ 16 ≤ 16 ∧ s.hasCtr 3 15 255 2 = false ∧
       s.hasCtr 9 15 255 0 = false ∧ ctrIndex (s.cell 15 255).ctrs 3 0 = some 0 ∧
       ctrIndex (s.cell 15 255).ctrs 3 1 = some 1 ∧
       (s.cell 15 255).ctrs[0]? = some (3, 0xFFFF) ∧ (s.cell 15 255).ctrs[1]? = some (3, 4) ∧ 4 ≠ 0xFFFF ∧
       ctrIndex (s.cell 15 255).ctrs 4 0 = none ∧ s.hasCtr 4 15 255 0 = true ∧
       ctrIn (p 0xFFFE).ctrs 4 0 = 0xFFFE ∧ ctrIn (p 1).ctrs 4 0 ≠ 0xFFFE) ∧
    (let s : State := { run with remotes := [{ remote7 0 with write := true }] }
     (s.remoteOf 7).map (·.write) = some true ∧ 0 + s.rd 0x6000 4 * 1000 > s.time ∧
       0 + s.rd 0x6000 4 * 1000 ≤ ({ s with time := 1000 * s.rd 0x6000 4 } : State).time) ∧ (remote7 1).write = false ∧
    ([0] : List Nat) ≠ [] := by decide +kernel

/-- SignalsAndRemoteRequests: replies refused and not, the last line and one of two; timeouts early and due, of a MOVE,
a MOVE that names a sequence and a gather; an engine's request; requests for a region and for a page served, refused, of
a lost line, and into an open snapshot. -/
theorem witness_SignalsAndRemoteRequests :
    run.remoteOf 7 = none ∧
    (∀ d ∈ [mtile 0xA0 (mvArgs 2 0 5 1), { mtile 0xA0 (mvArgs 2 0 5 1) with strideB := pow2 31 + 9 }, mtile 0xA1 2048],
      let s := asking d
      s.remoteOf 7 = some (remote7 1) ∧ (remote7 1).grove < 16 ∧
        ((s.cell 15 255).slots.find? (isAsker (remote7 1))).map (·.desc) = some d ∧
        ¬((remote7 1).issued + s.rd 0x6000 4 * 1000 ≤ s.time) ∧
        (remote7 1).issued + s.rd 0x6000 4 * 1000 ≤ ({ s with time := 1000 * s.rd 0x6000 4 } : State).time) ∧
    mvSeq (mtile 0xA0 (mvArgs 2 0 5 1)) = none ∧
    mvSeq { mtile 0xA0 (mvArgs 2 0 5 1) with strideB := pow2 31 + 9 } = some 9 ∧
    (remote7 1).lines ≤ (remote7 1).got.length + 1 ∧ (remote7 2).got.length + 1 < (remote7 2).lines ∧
    (zeros 64).length = 64 ∧
    (let s : State := { run with remotes := [{ remote7 1 with grove := 16 }] }
     (s.remoteOf 7).map (·.grove) = some 16 ∧ 0 + s.rd 0x6000 4 * 1000 > s.time ∧
       0 + s.rd 0x6000 4 * 1000 ≤ ({ s with time := 1000 * s.rd 0x6000 4 } : State).time) ∧
    (let s := coll3
     let f := flitOf 0 4 0 0 0 0 true
     wfModule f.src = true ∧ wfClearing f.clearing = true ∧ wfClearing 7 = true ∧ f.reserved = false ∧
       (flitOf 0 0 0 0 0 0 true).reserved = true ∧ s.mayServe f 64 = true ∧ s.serveBad f = [] ∧
       s.uncopied 3 (locOff f.target) 64 = [] ∧ (withClearing run 3 3 1).mayServe f 64 = false ∧
       ({ s with poison := [regionAddr 1 3 0] } : State).serveBad f ≠ [] ∧
       ({ s with copiers := [(0, { clearing := some 3, blocks := [0] })] } : State).uncopied 3 (locOff f.target) 64 ≠ []) ∧
    (let s := ((coll3.setFrc 0x4043 4 0x200000).setFrc 0x4043 6 0x200000)
     let f := { flitOf 0 4 0 0 0 0 true with target := 0x2000000000000000 }
     locTier f.target = 2 ∧ s.mayServe f 64 = true ∧ s.serveBad f = [] ∧
       ({ s with poison := [regionAddr 2 3 0] } : State).serveBad f ≠ []) ∧
    (let s := (((coll3.setFrc 0x4143 6 1).setFrc 0x4143 1 8).wr 0x4143 2 64).setPage 3 0 { st := 1, refs := 1, fill := 5 }
     let f := { flitOf 0 4 0 0 0 0 true with target := 0x3000000000000000 }
     s.mayServe f 64 = true ∧ f.reserved = false ∧ s.serveBad f = [] ∧ s.uncopied 3 (s.nameOff 3 f.target) 64 = [] ∧
       s.page 3 (s.namePage 3 f.target) = { st := 1, refs := 1, fill := 5 } ∧
       ({ s with poison := [(regionPlace 1 3 (s.nameOff 3 f.target)).addr] } : State).serveBad f ≠ []) := by
  decide +kernel

/-- A sequence of clearing 3 in slot 0, in a step. -/
def seq3 : Seqn :=
  { req := { reqOf 8 with slot := 0 }, slot := 0, tokens := [1, 2], start := 2, pos := 1, pages := [], kept := [], bucket := 0,
    curd := none, active := true, chunk := 1, fault := [] }

/-- A grove whose cell 0 is to be replaced. -/
def replacing (urgent : Bool) : State := run.setGrove 0 { retired := [0], busy := some ⟨0, 0, urgent⟩ }

/-- CellsAreReplacedTestedAndShared: arbiters of a cell bank and of a die, a clearing and none, a group that works; a
replacement with a spare, without one, without a host, and hindered by a running tile; a late read of a MOVE and of a
resume. -/
theorem witness_CellsAreReplacedTestedAndShared :
    run.power.mode ≠ .off ∧ wfArb 0x611F 4351 5 = true ∧ 4351 / 16 = 271 ∧ run.healthy (0x611F - 0x6110) 271 = true ∧
    (let s : State := { run with arbs := [(0x611F * 65536 + 4351, { lock := some 5 })] }
     look s.arbs (0x611F * 65536 + 4351) = some { lock := some 5 } ∧ (s.arb 0x611F 4351).lock = some 5 ∧
       5 ∉ (s.arb 0x611F 4351).overran ∧ (s.arb 0x611F 4351).lock ≠ some 4) ∧
    (let s : State := { run with arbs := [(0x611F * 65536 + 4351, { overran := [5] })] }
     (s.arb 0x611F 4351).overran.contains 5 = true) ∧
    (let s := (replacing false).setGrove 0 { (replacing false).grove 0 with margins := [(16, 0)] }
     look (s.grove 0).margins 16 = some 0 ∧ 0 < s.marginBound ∧ s.servedBy 0 0 ≠ [] ∧ s.frc 0x1130 1 ≠ 0 ∧
       look ((replacing false).grove 0).margins 16 = none ∧
       ∀ k ∈ [0, 1, 2], (s.setFrc 0x1130 1 k).frc 0x1130 1 = k) ∧
    wfArb 0x6120 0 1 = true ∧ ¬(0x611F < 0x611F) ∧ 0x611F < 0x6120 ∧ (replacing false).healthy 0 0 = false ∧
    run.exists? 63 = false ∧ (withClearing run 63 3 2).exists? 63 = true ∧ run.groupFailed 3 = false ∧
    (let s := vat3.setVat 3 { seqs := [{ seq3 with req := { seq3.req with resumeTag := 4 } }] }
     let t : State := { s.setClr 3 { s.clr 3 with inStep := true } with time := 1000 * s.rd 0x4C00 1 }
     (t.clr 3).inStep = true ∧ (t.clr 3).stepAt + 1000 * t.rd 0x4C00 1 ≤ t.time ∧ t.lateRead 3 0 = none ∧
       (∃ x ∈ (t.vat 3).seqs, x.slot = 0 ∧ x.active = true ∧ x.req.resumeTag ≠ 0) ∧ t.exists? 3 = true) ∧
    (let d := { mtile 0xA0 (mvArgs 2 0 0 1) with strideB := pow2 31 + 9 }
     let s : State := { running3 d with time := 1000 * run.rd 0x4C00 1 }
     (s.lateRead 3 9).map (fun q => (q.1, q.2.1, q.2.2.desc)) = some (15, 255, d) ∧ s.exists? 3 = true ∧ d.k ≤ 1 ∧ 0 < d.k) ∧
    (run.grove 15).busy = none ∧ (replacing false).hopOrigin 0 0 = 0 ∧ (replacing false).chooseSpare 0 0 = some 16 ∧
    (replacing false).cellRuns 0 0 = false ∧
    (withTiles (replacing false) 0 0 [(tile 1 3 32, .running)]).cellRuns 0 0 = true ∧
    (let s := run.setGrove 0 { retired := (List.range 272).filter (· != 1), busy := some ⟨0, 0, true⟩ }
     s.chooseSpare 0 (s.hopOrigin 0 0) = none ∧ (s.chooseHost 0 0).isSome = true ∧ s.servedBy 0 0 = [0] ∧ Mem.wf s.mem = true) ∧
    (let s := run.setGrove 0 { retired := List.range 272, busy := some ⟨0, 0, true⟩ }
     s.chooseSpare 0 (s.hopOrigin 0 0) = none ∧ s.chooseHost 0 0 = none) := by decide +kernel

/-- ComputeTilesRunWhole, MoveTilesCarryLines: 20 R427, a scheduled retirement lets the running tile end, an urgent one does not; the cell picks no tile in either, and
a scheduled one becomes urgent (R428). -/
theorem witness_ComputeTilesRunWhole_waits :
    ((replacing false).awaitsSpare 0 0, (replacing true).awaitsSpare 0 0) = (true, true) ∧
    ((replacing false).tileWaits 0 0, (replacing true).tileWaits 0 0) = (false, true) ∧
    ((replacing false).retireCell 0 0 true).tileWaits 0 0 = true := by decide +kernel

/-- CellsAreReplacedTestedAndShared again: a cell due for its test; understory passes; a grove being re-margined at each of its bounds; a cell that
serves two logical cells. -/
theorem witness_CellsAreReplacedTestedAndShared_understory :
    (let s : State := { run with time := 1000000000 * run.rd 0x9000 2 }
     s.healthy 15 271 = true ∧ 271 ∉ (s.grove 15).overdue ∧
       s.rd 0x9000 2 ≤ (s.time - (look (s.grove 15).lastTest 271).getD 0) / 1000000000) ∧
    (let s := run.setGrove 15 { segments := [(271, 2047)], fails := [(271, 1)] }
     s.rd 0x9000 1 = 1 ∧ s.serving = true ∧ s.healthy 15 271 = true ∧ (∀ c ∈ s.servedBy 15 271, ∀ q ∈
       (s.cell 15 c).slots, q.st ≠ .running ∧ q.st ≠ .ready) ∧
       (look (s.grove 15).segments 271).getD 0 + 1 = 2048 ∧ (look (s.grove 15).fails 271).getD 0 + 1 = 2 ∧
       199 < 200 ∧ 200 < s.marginBound ∧ s.marginBound ≤ s.marginBound ∧ s.inUse 15 0 = true ∧ s.frc 0x1130 1 = 3 ∧
       s.spareFree 15 = true ∧ ((look (s.grove 15).segments 271).isSome = true) ∧
       (look (s.grove 15).fails 271).isSome = true ∧ (look (s.grove 15).fails 5).isSome = false ∧
       (s.grove 15).fails ≠ [] ∧ look (s.grove 15).margins 0 = none ∧ (129 ≤ s.rd 0x901F 1 ∨ (s.grove 15).failed = true) ∧
       risingFrom 0 (s.grove 15).fails = true ∧ risingFrom 0 (s.grove 15).segments = true ∧
       (s.setGrove 15 { retired := (List.range 16).map (fun k => 17 * k + 16) }).spareFree 15 = false ∧
       (s.setGrove 15 { retired := (List.range 16).map (fun k => 17 * k + 16) }).inUse 15 0 = true ∧
       (run.grove 15).fails = [] ∧
       ∀ k ∈ [0, 1, 2], (s.setFrc 0x1130 1 k).frc 0x1130 1 = k) ∧
    (run.wr 0x9000 1 0).rd 0x9000 1 ≠ 1 ∧
    (cell3.physOf 15 255 = 270 ∧ cell3.spilledOut 15 255 = false ∧ cell3.granuleOwner 15 255 (4100 / 8 * 8) = some 3 ∧
      4100 < 0x110000 ∧ (withTiles run 15 255 [(tile 1 3 32, .ready)]).servedBy 15 270 = [255]) ∧
    (let s := run.setGrove 15 { remargining := true }
     (s.grove 15).remargining = true ∧ (run.grove 15).remargining = false ∧
       ¬(s.marginBound + 200 ≤ (s.wr 0x1131 16 (s.marginBound + 199)).rd 0x1131 16) ∧
       s.marginBound + 200 ≤ (s.wr 0x1131 16 (s.marginBound + 200)).rd 0x1131 16 ∧ s.lowestSupply 15 < 750 ∧
       750 ≤ ({ s with otp := { supplySteps := [(15, 5)] } } : State).lowestSupply 15 ∧ 1000 < s.rd 0x1110 16 ∧
       (s.wr 0x1110 16 1000).rd 0x1110 16 ≤ 1000) ∧
    (let s := run.setGrove 0 { remap := [(1, 0)], multi := [(0, 65536), (1, 0)], hosting := [(0, 0)] }
     2 ≤ (s.servedBy 0 0).length ∧ s.cellRuns 0 0 = false ∧ 65536 ≤ (look (s.grove 0).multi 0).getD 0 ∧
       (run.servedBy 0 0).length < 2) := by decide +kernel

/-- VatStepsStartAndEnd: the hypotheses on curd records hold where no press of the module has one. -/
theorem witness_VatStepsStartAndEnd_sound :
    (∀ p, vat3.planOf 3 = some p → p.curdClearing < 64) ∧
    ∀ m id c, look (vat3.press m).curds id = some c → c.home < 64 ∧ c.writer ≤ 64 := by
  refine ⟨fun p hp => ?_, fun m id c hc => ?_⟩
  · have h : vat3.planOf 3 = some { planFor 3 2 with maxPos := 16, chunk := 1 } := by decide
    cases h.symm.trans hp
    decide
  · have h : (vat3.press m).curds = [] := by
      simp only [State.press, State.clr, vat3, look]
      repeat' split
      all_goals rfl
    rw [h] at hc
    cases hc

/-- VatStepsStartAndEnd: a vat that may start a step, one whose version is too stale, one whose turning is blocked; a step
that ends with a token and one that ends at MAX_POS; images that expire, here and by another member's word, are claimed,
and are not due. -/
theorem witness_VatStepsStartAndEnd :
    3 < 64 ∧ vat3.power.mode ≠ .off ∧ vat3.mayStep 3 = true ∧ ((vat3.planOf 3).map (·.role)) = some 2 ∧
    (vat3.clr 3).turn.blocked = false ∧ run.mayStep 3 = false ∧ run.planOf 3 = none ∧
    ((press3 false).planOf 3).any (·.role == 1) = true ∧
    ((vat3.wr 0x6043 5 9).planOf 3).map (fun p => decide (p.maxStale < (vat3.wr 0x6043 5 9).staleness 3)) = some true ∧
    (let s := vat3.setClr 3 { vat3.clr 3 with inStep := true, vat := { seqs := [seq3] } }
     s.serving = true ∧ (s.clr 3).inStep = true ∧ (s.vat 3).seqs = [seq3] ∧ seq3.active = true ∧ seq3.fault = [] ∧
       seq3.req.deadline = 0 ∧ seq3.req.slot ≠ 0xFFFF ∧ seq3.req.ring = none ∧ seq3.curd = none ∧ seq3.kept = [] ∧
       seq3.start ≤ seq3.pos + seq3.chunk ∧ risingFrom 0 s.live = true ∧ (s.planOf 3).map (·.maxPos) = some 16 ∧
       seq3.pos + seq3.chunk < 16 ∧ 2 ≤ seq3.pos + seq3.chunk ∧
       ({ planFor 3 2 with maxPos := 2 } : PlanClearing).maxPos = 2) ∧
    ((vat3.vat 3).paused.find? fun q => q.tag == 4) = none ∧
    (let s := (vat3.setVat 3 { paused := [{ image4 with expires := 5 }] })
     ((s.vat 3).paused.find? fun q => q.tag == 4) = some { image4 with expires := 5 } ∧ s.rd 0x4C10 1 = 1 ∧
       s.resumeTaken 3 image4 = false ∧ s.judgesExpiry 3 = true ∧
         ((s.setFrc 0x4143 7 4).setFrc 0x4143 8 1).judgesExpiry 3 = false ∧
       ¬(5 ≤ s.time) ∧ 5 ≤ ({ s with time := 5 } : State).time ∧ image4.claimed = false) := by decide +kernel

/-- A clearing 3 whose claim map, in force, names cell 255 of grove 15. -/
def claimer : State := (press3 false).setFrcBlob 0x2032 16 (zeros 31 ++ [0x80])

/-- BoundariesFillsAndClaims: a press step that ends and a boundary between steps, a withdrawn plan; a batch that is
whole and begins a step or not; a table in its first and second fill; a claim to take, one past its hold, and victims to
bring back. -/
theorem witness_BoundariesFillsAndClaims :
    (let s := press3 false
     3 < 64 ∧ s.power.mode = .run ∧ s.clearState 3 = 3 ∧ s.jobRole 3 = 1 ∧ (s.clr 3).inStep = false ∧
       ((s.setClr 3 { s.clr 3 with inStep := true }).clr 3).inStep = true ∧
       risingFrom 0 s.live = true ∧ (s.clr 3).withdraw = false ∧ s.turnState 3 = 0 ∧
       risingFrom 0 ({ s with dict := [(keyOf 0x2030 1, 3)] } : State).dict = true ∧
       ({ s with dict := [(keyOf 0x2030 1, 3)] } : State).clearState 3 = 3 ∧
       ((s.setClr 3 { s.clr 3 with withdraw := true }).clr 3).withdraw = true ∧ heldNow.power.mode ≠ .run ∧
       run.planOf 3 = none ∧ (s.planOf 3).map (·.batch) = some 1 ∧
       ((s.press 3).ready.filter fun id => s.rewardOf (s.press 3) id == 1).take 1 = [1] ∧ (s.press 3).batch = [] ∧
       s.mayStep 3 = true ∧ (s.planOf 3).map (·.role) = some 1 ∧ (s.recov 3).hold = false ∧ s.rd 0x9083 0xA = 0 ∧
       (let u := (s.wr 0x9083 0xA 3).setCkpt 3 { forward := true }
        u.rd 0x9083 0xA = 3 ∧ (u.ckpt 3).forward = true) ∧ s.sameJob 3 4 = false ∧
       heldNow.mayStep 3 = false) ∧
    (run.grove 15).tableState ≠ 1 ∧
    (let s := run.setGrove 15 { tableState := 1, fillTries := 1 }
     (s.grove 15).tableState = 1 ∧ (s.grove 15).fillTries ≠ 0) ∧
    (let s := claimer.setClr 3 { claimer.clr 3 with inStep := true,
                                                    plan := some { planFor 3 1 with claimCells := [15 * 256 + 255] } }
     s.clearState 3 = 3 ∧ (s.clr 3).inStep = true ∧ s.wanted 3 15 = [255] ∧ s.claimReady 3 15 255 = true) ∧
    run.wanted 3 15 = [] ∧ run.claimedBy 3 = [] ∧
    (let s := { claimer with time := 1000 * claimer.rd 0x2030 8 }.setCell 15 255 { claimed := some 3 }
     (s.clr 3).inStep = false ∧ (s.clr 3).idleSince + s.rd 0x2030 8 * 1000 ≤ s.time ∧ s.claimedBy 3 = [(15, 255)] ∧
       s.parkedOf 3 = []) ∧
    (let p : Parked := { claimant := 3, victim := 5, compute := 0, move := 0, slots := [], ctrs := [], scratch := [],
                         side := [] }
     let s := run.setCell 15 255 { parked := [p] }
     s.parkedOf 3 = [(15, 255, p)] ∧ (s.cell 15 255).claimed ≠ some 3 ∧ run.parkedOf 3 = []) := by decide +kernel

/-- A shard descriptor's 32 bytes (10 R214). -/
def shardBytes (d : ShardDesc) : List Byte :=
  leBytes 2 d.unit ++ leBytes 2 d.shard ++ leBytes 2 d.srcModule ++ leBytes 2 d.dstModule ++ leBytes 1 d.dstClearing ++
    leBytes 1 ((if d.isLocal then 1 else 0) + if d.last then 2 else 0) ++ zeros 2 ++ leBytes 4 d.length ++
    leBytes 8 d.srcOffset ++ leBytes 4 d.dstOffset ++ zeros 4

/-- The shard of unit 0 with this number, between two modules. -/
def shardOf (shard src dst : Nat) : ShardDesc :=
  { unit := 0, shard := shard, srcModule := src, dstModule := dst, dstClearing := 3, last := true, isLocal := src == dst,
    length := 64, srcOffset := 0, dstOffset := 0 }

/-- The manual's layout of a shard descriptor, read back. -/
theorem test_decode_shard : readShard (shardBytes (shardOf 5 6 7)) = shardOf 5 6 7 := by decide +kernel

/-- A press clearing 4 and a vat clearing 3 of one job, with two turning units of 2 MiB: shard 0 stays here, shard 1 goes to
module 5 and shard 2 comes from there. The vat's turning in a TURN_STATE, its first unit's record given. -/
def turning (st : Nat) (u : TUnit) (t : Turn) : State :=
  let shards := [shardOf 0 0 0, shardOf 1 0 5, shardOf 2 5 0].map shardBytes
  let p := { planFor 3 2 with units := [0x200000, 0x200000], shards := shards }
  { (wrs (withClearing (withClearing run 3 3 2) 4 3 1) [(0x6043, 3, st), (0x6043, 2, 0x1800000)]) with
    force := ((run.setFrc 0x6043 2 0x1800000).setFrc 0x4043 3 0x3000000).force,
    clearings := [(3, { plan := some p, turn := { t with units := [(0, u)] } }),
                  (4, { plan := some { planFor 4 1 with shards := shards, sources := [0, 0] }, inStep := true,
                        press := { sending := some 1, sources := [(1, 0)] } })] }

/-- Whether SHARD_SEND of the press has one descriptor for a shard, that descriptor. -/
def oneShard (s : State) (k dst : Nat) : List ShardDesc :=
  (s.shardList 4).filter fun d => d.unit == 0 && d.shard == k && d.dstModule == dst && s.senderOf 4 d == some s.ownModule

/-- VersionsAreTurnedUnitByUnit, what a press does: it produces with and without a version being sent, and a vat's keeper
without a press; shards to send here, to another module, none and from a POISON line; a source that may become current. -/
theorem witness_VersionsAreTurnedUnitByUnit :
    (let s := turning 1 { reserved := true } {}
     4 < 64 ∧ s.power.mode ≠ .off ∧ s.exists? 4 = true ∧ s.jobRole 4 = 1 ∧ s.sourceKeeper 4 = some 4 ∧
       s.sourceKeeper 3 ≠ some 3 ∧ (s.clr 4).inStep = true ∧ (s.press 4).made = false ∧ s.vatsOf 4 = [3] ∧
       (s.press 4).sending ≠ none ∧ (s.press 4).waiting = none ∧ ((press3 false).press 3).sending = none ∧
       (vat3.sourceKeeper 3 = some 3 ∧ vat3.exists? 3 = true ∧ vat3.jobRole 3 ≠ 1) ∧
       ((s.setPress 4 { sending := some 1, waiting := some 2 }).press 4).waiting ≠ none ∧
       oneShard s 0 0 = [shardOf 0 0 0] ∧ oneShard s 1 5 = [shardOf 1 0 5] ∧ oneShard s 9 0 = [] ∧
       s.sameJob 4 3 = true ∧ s.jobRole 3 ≠ 1 ∧ (s.unit 3 0).reserved = true ∧ 5 < 16384 ∧
       ((s.sendVersion 4 (shardOf 0 0 0) false).bind fun v => s.sourceOff 4 v) = some 0 ∧
       ((s.sendVersion 4 (shardOf 1 0 5) false).bind fun v => s.sourceOff 4 v) = some 0 ∧
       s.badRange 4 1 0 64 = [] ∧
       ({ s with poison := [(regionPlace 1 4 0).addr] } : State).badRange 4 1 0 64 ≠ []) ∧
    (let s := (turning 0 {} {}).wr 0x6043 4 1
     ∀ m ∈ s.vatsOf 4, s.turnState m = 0 ∧ s.rd (0x6040 + m) 4 = 1) ∧
    ¬(∀ m ∈ (turning 1 {} {}).vatsOf 4, (turning 1 {} {}).turnState m = 0) := by decide +kernel

/-- The same, what a vat does before the front: units to reserve or not, a keeper that reports to its leader, a front and a
load that may start. -/
theorem witness_VersionsAreTurnedUnitByUnit_vat :
    (let s := turning 1 {} {}
     let t := (s.setUnit 3 0 { reserved := true, staged := true }).setUnit 3 1 { reserved := true, staged := true }
     let p := { planFor 3 2 with units := [0x200000, 0x200000], spreadMods := [5] }
     let away := (t.setFrc 0x1003 1 7).setClr 3 { t.clr 3 with plan := some p }
     s.turnState 3 = 1 ∧ s.nextReserve 3 = some 0 ∧ s.canReserve 3 0 = true ∧ t.nextReserve 3 = none ∧ t.pooled 3 = true ∧
       t.drained 3 = true ∧ t.turnState 3 = 1 ∧ ((t.planOf 3).elim [] (·.spreadMods)).foldl min t.ownModule = t.ownModule ∧
       ((away.setTurn 3 { away.turn 3 with reported := true }).turn 3).reported = true ∧
       (away.turnState 3 = 1 ∧ away.pooled 3 = true ∧ (away.turn 3).reported = false ∧
         ((away.planOf 3).elim [] (·.spreadMods)).foldl min away.ownModule ≠ away.ownModule) ∧
       (s.turn 3).loaded = false ∧ s.clearState 3 = 3 ∧ (turning 0 {} {}).turnState 3 = 0) := by decide +kernel

/-- The same behind the front: shards that land, are fetched again and fail; units replaced; a load and its end. -/
theorem witness_VersionsAreTurnedUnitByUnit_front :
    (let s := turning 2 { reserved := true, staged := true } { version := 1, frontStarted := true }
     s.turnState 3 = 2 ∧ (s.unit 3 0).reserved = true ∧ (s.unit 3 0).replaced = false ∧ 2 ∉ (s.unit 3 0).landed ∧
       2 ∉ (s.unit 3 0).failedShards ∧ (s.shardsOf 3 0).find? (fun e => e.shard == 2) = some (shardOf 2 5 0) ∧
       (s.shardsOf 3 0).find? (fun e => e.shard == 0) = some (shardOf 0 0 0) ∧
       (s.shardsOf 3 0).find? (fun e => e.shard == 9) = none ∧ s.senderOf 3 (shardOf 2 5 0) ≠ some s.ownModule ∧
       s.senderOf 3 (shardOf 0 0 0) = some s.ownModule ∧ 0 ∉ (s.unit 3 0).written ∧ 0 ∉ (s.unit 3 0).refetch ∧
       0 ∈ ((s.setUnit 3 0 { reserved := true, written := [0] }).unit 3 0).written ∧
       2 ∈ ((s.setUnit 3 0 { reserved := true, failedShards := [2] }).unit 3 0).failedShards ∧
       2 ∈ ((s.setUnit 3 0 { refetch := [2] }).unit 3 0).refetch ∧
       2 ∉ ((s.setUnit 3 0 { refetch := [2] }).unit 3 0).refetched ∧
       2 ∈ ((s.setUnit 3 0 { refetch := [2], refetched := [2] }).unit 3 0).refetched ∧ (s.turn 3).loading = false ∧
       (s.turn 3).frontStarted = true ∧ ((turning 1 {} {}).turn 3).frontStarted = false ∧
       s.rd 0x6043 6 < (s.unitList 3).length ∧ (s.unit 3 (s.rd 0x6043 6)).staged = true ∧
       ¬((s.turn 3).oldStep = true ∧ s.unitWanted 3 0 = true) ∧ s.rd 0x6043 6 + 1 ≠ (s.unitList 3).length ∧
       ((s.wr 0x6043 6 1).rd 0x6043 6 + 1 = ((s.wr 0x6043 6 1).unitList 3).length ∧
         ((s.setUnit 3 1 { staged := true }).unit 3 1).staged = true) ∧
       (s.wr 0x6043 6 2).rd 0x6043 6 = (s.unitList 3).length) ∧
    (let s := (turning 4 {} { version := 1, loading := true }).wr 0x6043 6 2
     let t := s.setTurn 3 { version := 2, loading := true }
     s.turnState 3 = 4 ∧ s.rd 0x6043 6 = (s.unitList 3).length ∧ (s.turn 3).loading = true ∧ s.jobRole 3 = 2 ∧
       ((s.sourceKeeper 3).bind fun k => (s.press k).sending) = some (s.turn 3).version ∧
       ((t.sourceKeeper 3).bind fun k => (t.press k).sending) = some 1 ∧ (t.turn 3).version = 2 ∧
       (withClearing run 3 3 3).sourceKeeper 3 = none) := by decide +kernel

/-! ### Worked examples of the manual, and single steps against its tables -/

/-- 04's conversion of 3F805A3Ch to BF16: nearest, with u = 7, with the worked draw (u = 4), and with u = Ah. -/
theorem test_worked_conversion :
    (convertTo bf16 false 4 none (f32 0x3F805A3C)).1 = 0x3F80 ∧
    (convertTo bf16 false 4 (some 7) (f32 0x3F805A3C)).1 = 0x3F80 ∧
    (convertTo bf16 false 4 (some 0xB984DE247587C2B4) (f32 0x3F805A3C)).1 = 0x3F80 ∧
    (convertTo bf16 false 4 (some 10) (f32 0x3F805A3C)).1 = 0x3F81 := by decide +kernel

/-- 04's partials in ascending order give 3F800000h, and in the other order 3F800001h. -/
theorem test_partial_order : fadd (fadd 0x3F800000 0x33800000) 0x33800000 = 0x3F800000 ∧
    fadd 0x3F800000 (fadd 0x33800000 0x33800000) = 0x3F800001 := by decide +kernel

/-- 03's tile of K = 64 takes 146 beats; 11's read of 2,048 lines by grove 1 from stack group 2 takes 2,384. -/
theorem test_worked_beats :
    run.worstBeats 0 0 { tile 1 3 64 with fmtA := 0x10, fmtB := 0x10 } = 146 ∧
    run.worstBeats 1 0 { tile 0xA0 3 2048 with args := mvArgs 1 0 0 (6 * 32768) } = 2384 := by decide +kernel

/-- 07's page of P-52, 52 layers, 12 heads and WIDTH 128, has 81,793,024 bytes. -/
theorem test_page_bytes :
    (run.setGeometry 3 { planFor 3 2 with kvWidth := 128, kvLayers := 52, kvHeads := 12 }).rd 0x4143 0xB = 81793024 := by
  decide +kernel

/-- The largest root of order `k` of `n`, bit by bit from bit `b`. -/
def rootFrom (k n : Nat) : Nat → Nat → Nat
  | 0, x => x
  | b + 1, x => rootFrom k n b (if (x + 2 ^ b) ^ k ≤ n then x + 2 ^ b else x)

/-- The constants of SHA-256 from the primes they stand for. -/
theorem test_sha_constants :
    let primes := (List.range 312).filter fun n => 1 < n && (List.range n).all fun d => d < 2 || n % d != 0
    shaK = primes.map (fun p => rootFrom 3 (p * 2 ^ 96) 36 0 % 2 ^ 32) ∧
    shaInit = (primes.take 8).map fun p => rootFrom 2 (p * 2 ^ 64) 37 0 % 2 ^ 32 := by decide +kernel

/-- The check value of CRC-32C and the first bytes of SHA-256 of the empty string. -/
theorem test_checks : crc32c (ascii "123456789") = 0xE3069283 ∧ (sha256 []).take 4 = [0xe3, 0xb0, 0xc4, 0x42] := by
  decide +kernel

/-- A byte written reads back, and writing 0 leaves no entry. -/
theorem test_memory : Mem.read (Mem.writes [] 7 [5, 6]) 8 = 6 ∧ Mem.writes (Mem.writes [] 7 [5, 6]) 7 [0, 0] = [] := by
  decide

/-- Every row of the map stands in the part in which its positions are looked up. -/
theorem test_entry_parts :
    let within (lo hi : Nat) (l : List Entry) : Bool := l.all fun e => lo ≤ e.base && e.base + e.stride * (e.count - 1) < hi
    within 0 0x2000 entries1 = true ∧ within 0x2000 0x4000 entries2 = true ∧ within 0x4000 0x5000 entries3 = true ∧
    within 0x5000 0x6110 entries4 = true ∧ within 0x6110 0x6170 (arbRows 0x6110 0x54) = true ∧
    within 0x6170 0x7000 (arbRows 0x6170 0x20) = true ∧ within 0x7000 0x10000 entries5 = true := by decide +kernel

/-- Nothing of opcode_table.json's rows carries bits. -/
theorem test_no_word_decodes : decodeTableWord 32 0 = none := rfl

/-- What one step leaves, when it answers a next state. -/
def after (i : Instr) (s : State) : Option State :=
  match exec i s with
  | .next t => some t
  | _ => none

/-- In OFF a HOLD changes nothing, and START below 46 V leaves the module in OFF (21 R443, R445). -/
theorem test_off : (after (.hold 0) State.reset).map (·.power.mode) = some .off ∧
    (after (.start (startEnv 45999 true)) State.reset).map (·.power.mode) = some .off := by decide +kernel

/-- THERMAL_WARN above 105 °C lowers grove 3's supply from 850 mV to 840 mV (21 R450). -/
theorem test_thermal_warn : (after (.thermalWarn 3 105001) (run.wr 0x1101 4 850)).map
    (·.rd 0x1101 4) = some 840 := by decide +kernel

/-- The cap at its value moves nothing; 1 W above it every supply falls by 10 mV (21 R448). -/
theorem test_cap : (after (.capControlTick 54000 0 (run.rd 0x1100 3)) (run.wr 0x1101 16 800)).map (·.rd 0x1101 16) = some 800 ∧
    (after (.capControlTick 54000 0 (run.rd 0x1100 3 + 1)) (run.wr 0x1101 16 800)).map
      (·.rd 0x1101 16) = some 790 := by decide +kernel

/-- THERM_WARN_C takes 85 from the manager, and refuses 84, the host and a value of two bytes (17 R359). -/
theorem test_write_checks :
    (after (.registerWrite 1 0x1122 1 [85]) run).map (·.rd 0x1122 1) = some 85 ∧
    (after (.registerWrite 1 0x1122 1 [84]) run).map (·.outbox) = some [.status .valueRange] ∧
    (after (.registerWrite 0 0x1122 1 [85]) run).map (·.outbox) = some [.status .roleDenied] ∧
    (after (.registerWrite 1 0x1122 1 [85, 0]) run).map (·.outbox) = some [.status .typeMismatch] := by decide +kernel

/-- MODULE_RESET takes effect 1 ms after (18 R392). -/
theorem test_module_reset : (after (.moduleReset 1) run).map (·.power.resetAt) = some (some 1000000) := by decide +kernel

/-- COUNTER_SIGNAL makes a tile READY that waits for 2 (03 R53). -/
theorem test_counter_signal :
    (after (.counterSignal 15 255 0 3) (run.setCell 15 255 { ctrs := [(3, 1)], slots := [
        { desc := { tile 0x50 3 0 with waitValue := 2 }, st := .loaded, chainHead := true, tries := 0 }] })).map
      (fun t => ((t.cell 15 255).slots.map (·.st), (t.cell 15 255).ctrs)) = some ([.ready], [(3, 2)]) := by decide +kernel

/-- A descriptor that passes every check is READY at once, and picked it runs in its role (03 R50, R52). -/
theorem test_load_and_pick :
    (after (.tileLoad 15 255 (bytesOf convert3)) cell3).map (fun t => (t.cell 15 255).slots.map (·.st)) = some [.ready] ∧
    ((after (.tileLoad 15 255 (bytesOf convert3)) cell3).bind (after (.tilePick 15 255 .compute))).map
      (fun t => ((t.cell 15 255).slots.map (·.st), (t.cell 15 255).role)) = some ([.running], 3) := by decide +kernel

/-- CONVERT of 1.0 and its neighbours writes their BF16 codes at OUT_ADDR, and its slot is DONE. -/
theorem test_convert :
    (let s := (withTiles cell3 15 255 [(convert3, .running)]).setScr 15 255 0 (leBytes 4 0x3F805A3C ++ leBytes 4 0xC0000000)
     (after (.convert 15 255 runOk) s).map (fun t => (t.scr 15 255 4096 4, (t.cell 15 255).slots.map (·.st)))) =
      some ([0x80, 0x3F, 0x00, 0xC0], [.done]) := by decide +kernel

/-- A MOVE in lands its line, and one beyond the region stops the plan on the grove (11 R235, R239). -/
theorem test_move :
    (let d := { mtile 0xA0 (mvArgs 1 0 0 1) with outAddr := 64 }
     let s : State := { ((running3 d).setFrc 0x4043 3 0x200000) with mem := [⟨regionAddr 1 3 64, 9⟩] }
     (after (.move 15 255 runOk) s).map (fun t => t.scr 15 255 64 2) = some [9, 0]) ∧
    (after (.move 15 255 runOk) (running3 (mtile 0xA0 (mvArgs 1 0 0 1)))).map (fun t => (t.clr 3).stopped) = some [15] := by
  decide +kernel

/-- A culture table is READY when its fill's check passes (05 R96); a second failed fill is FAILED. -/
theorem test_fill : (after (.cultureFillDone 15 false) (run.setGrove 15 { tableState := 1, fillTries := 1 })).map
    (fun t => ((t.grove 15).tableState, t.rd 0x3123 16)) = some (3, 1) := by decide +kernel

/-- BAR2 as the host reads it: EV_PRODUCED, then a ring's RSTATE and STOP_INDEX; unreachable before start step 3
(17 R365, R369). -/
theorem test_bar2 :
    (let s : State := { hostRun with hub := { hostRun.hub with
       produced := 258, rings := [(0, { ring0 true with offset := 0x510000, stopIndex := 7, produced := 3 })] } }
     s.bar2Read 0x400000 2 = some [2, 1] ∧ s.bar2Read 0x510010 3 = some [1, BitVec.ofNat 8 (ring0 true).status, 7] ∧
       run.bar2Read 0 1 = none) := by decide +kernel

/-- The two levels of PERST_N (17 R365). -/
theorem test_perst : (after .perstAssert hostRun).map (fun t => (t.power.perst, t.power.linkUp)) = some (true, false) := by
  decide

/-- An elastic clearing whose bucket lacks 60 of 100 bytes draws them from the pool; a strict one does not (12 R269). -/
theorem test_elastic_draws :
    let s := { run with buckets := [(State.bucketKey 5 5 0, 40)], pools := [(10, 80)] }
    ((s.setFrc 0x2450 5 1).charge 5 5 0 100).bucket 5 5 0 = 0
      ∧ ((s.setFrc 0x2450 5 1).charge 5 5 0 100).lendingPool 5 0 = 20
      ∧ ((s.setFrc 0x2450 5 1).charge 5 5 0 100).rd 0x24A5 5 = 60
      ∧ (s.charge 5 5 0 100).lendingPool 5 0 = 80 ∧ (s.charge 5 5 0 100).bucket 5 5 0 = -60 := by decide

end Sys2Proof.Tests
end

section
/-! A command stops exactly on a number that is no resource of the module (00 R10). -/

namespace Sys2Proof.Laws

open Machine

/-- One case per command, each settled by the command's own lemma. -/
theorem wf_statement (i : Instr) : Wf.Statement i := fun _ =>
  match i with
  | .start .. => Wf.start ..
  | .powerOff .. => Wf.powerOff ..
  | .moduleReset .. => Wf.moduleReset ..
  | .hold .. => Wf.hold ..
  | .holdDone .. => Wf.holdDone ..
  | .resume .. => Wf.resume ..
  | .capControlTick .. => Wf.capControlTick ..
  | .thermalWarn .. => Wf.thermalWarn ..
  | .thermalTrip .. => Wf.thermalTrip ..
  | .thermRelease .. => Wf.thermRelease ..
  | .thermalHotTimeout .. => Wf.thermalHotTimeout ..
  | .coolantLow .. => Wf.coolantLow ..
  | .rateMeasure .. => Wf.rateMeasure ..
  | .regRefill .. => Wf.regRefill ..
  | .perstAssert .. => Wf.perstAssert ..
  | .perstRelease .. => Wf.perstRelease ..
  | .sweep .. => Wf.sweep ..
  | .planPart .. => Wf.planPart ..
  | .planIncomplete .. => Wf.planIncomplete ..
  | .vatRequest .. => Wf.vatRequest ..
  | .cancel .. => Wf.cancel ..
  | .pause .. => Wf.pause ..
  | .reward .. => Wf.reward ..
  | .planWithdraw .. => Wf.planWithdraw ..
  | .dictSlotRead .. => Wf.dictSlotRead ..
  | .dictSlotWrite .. => Wf.dictSlotWrite ..
  | .registerWrite .. => Wf.registerWrite ..
  | .read .. => Wf.read ..
  | .write .. => Wf.write ..
  | .segRead .. => Wf.segRead ..
  | .segWrite .. => Wf.segWrite ..
  | .abort .. => Wf.abort ..
  | .transferTimeout .. => Wf.transferTimeout ..
  | .bar0Write .. => Wf.bar0Write ..
  | .apertureLoad .. => Wf.apertureLoad ..
  | .apertureCommit .. => Wf.apertureCommit ..
  | .evAckedWrite .. => Wf.evAckedWrite ..
  | .ringConsumedWrite .. => Wf.ringConsumedWrite ..
  | .store .. => Wf.store ..
  | .resetDefaults .. => Wf.resetDefaults ..
  | .storeDone .. => Wf.storeDone ..
  | .fwStageDataWrite .. => Wf.fwStageDataWrite ..
  | .erase .. => Wf.erase ..
  | .verify .. => Wf.verify ..
  | .select .. => Wf.select ..
  | .restore .. => Wf.restore ..
  | .restoreOlder .. => Wf.restoreOlder ..
  | .restoreDone .. => Wf.restoreDone ..
  | .arbClear .. => Wf.arbClear ..
  | .healthClear .. => Wf.healthClear ..
  | .cellarTtlEnableWrite .. => Wf.cellarTtlEnableWrite ..
  | .attestReportRead .. => Wf.attestReportRead ..
  | .sessionOpenManager .. => Wf.sessionOpenManager ..
  | .sessionOpenTenant .. => Wf.sessionOpenTenant ..
  | .commission .. => Wf.commission ..
  | .close .. => Wf.close ..
  | .sessionTimeout .. => Wf.sessionTimeout ..
  | .keyWrappedWrite .. => Wf.keyWrappedWrite ..
  | .keyOpeningDone .. => Wf.keyOpeningDone ..
  | .cryptoError .. => Wf.cryptoError ..
  | .create .. => Wf.create ..
  | .clearingCreated .. => Wf.clearingCreated ..
  | .resize .. => Wf.resize ..
  | .destroy .. => Wf.destroy ..
  | .clearingDestroyed .. => Wf.clearingDestroyed ..
  | .microprogWrite .. => Wf.microprogWrite ..
  | .mpTableWrite .. => Wf.mpTableWrite ..
  | .microprogLoaded .. => Wf.microprogLoaded ..
  | .quotaScrubDone .. => Wf.quotaScrubDone ..
  | .gwDatagram .. => Wf.gwDatagram ..
  | .tileLoad .. => Wf.tileLoad ..
  | .tilePick .. => Wf.tilePick ..
  | .matmul .. => Wf.matmul ..
  | .splitSum .. => Wf.splitSum ..
  | .convert .. => Wf.convert ..
  | .rmsNorm .. => Wf.rmsNorm ..
  | .rmsNormBwd .. => Wf.rmsNormBwd ..
  | .softmax .. => Wf.softmax ..
  | .softmaxBwd .. => Wf.softmaxBwd ..
  | .rowVariance .. => Wf.rowVariance ..
  | .funcApply .. => Wf.funcApply ..
  | .mask .. => Wf.mask ..
  | .rawWords .. => Wf.rawWords ..
  | .updateP1 .. => Wf.updateP1 ..
  | .updateP2 .. => Wf.updateP2 ..
  | .updateScalars .. => Wf.updateScalars ..
  | .precondPrep .. => Wf.precondPrep ..
  | .precondChol .. => Wf.precondChol ..
  | .precondMm .. => Wf.precondMm ..
  | .precondAffine .. => Wf.precondAffine ..
  | .move .. => Wf.move ..
  | .pageGather .. => Wf.pageGather ..
  | .pageAppend .. => Wf.pageAppend ..
  | .weightRead .. => Wf.weightRead ..
  | .sideSave .. => Wf.sideSave ..
  | .sideLoad .. => Wf.sideLoad ..
  | .tierMove .. => Wf.tierMove ..
  | .triggerPost .. => Wf.triggerPost ..
  | .counterSignal .. => Wf.counterSignal ..
  | .remoteReply .. => Wf.remoteReply ..
  | .remoteTimeout .. => Wf.remoteTimeout ..
  | .remoteReadServe .. => Wf.remoteReadServe ..
  | .remoteWriteServe .. => Wf.remoteWriteServe ..
  | .lockOverrun .. => Wf.lockOverrun ..
  | .cellarLate .. => Wf.cellarLate ..
  | .cellarGroupFailed .. => Wf.cellarGroupFailed ..
  | .vatStepStart .. => Wf.vatStepStart ..
  | .vatStepEnd .. => Wf.vatStepEnd ..
  | .pressBatchTake .. => Wf.pressBatchTake ..
  | .pauseExpired .. => Wf.pauseExpired ..
  | .stepBoundary .. => Wf.stepBoundary ..
  | .cultureFillDone .. => Wf.cultureFillDone ..
  | .claimTaken .. => Wf.claimTaken ..
  | .claimHoldExpire .. => Wf.claimHoldExpire ..
  | .claimReleased .. => Wf.claimReleased ..
  | .multiplexSwitch .. => Wf.multiplexSwitch ..
  | .versionProduced .. => Wf.versionProduced ..
  | .landingReserve .. => Wf.landingReserve ..
  | .shardSend .. => Wf.shardSend ..
  | .shardLanded .. => Wf.shardLanded ..
  | .frontStart .. => Wf.frontStart ..
  | .unitReplace .. => Wf.unitReplace ..
  | .turnSourceCurrent .. => Wf.turnSourceCurrent ..
  | .vatLoad .. => Wf.vatLoad ..
  | .loadDone .. => Wf.loadDone ..
  | .snapshotOpen .. => Wf.snapshotOpen ..
  | .blockCopied .. => Wf.blockCopied ..
  | .snapshotFailed .. => Wf.snapshotFailed ..
  | .portBringup .. => Wf.portBringup ..
  | .identReceive .. => Wf.identReceive ..
  | .laneFailure .. => Wf.laneFailure ..
  | .flitReceive .. => Wf.flitReceive ..
  | .transitForward .. => Wf.transitForward ..
  | .trigPost .. => Wf.trigPost ..
  | .chunkArrive .. => Wf.chunkArrive ..
  | .chunkAck .. => Wf.chunkAck ..
  | .chunkRetry .. => Wf.chunkRetry ..
  | .collFail .. => Wf.collFail ..
  | .collTimeout .. => Wf.collTimeout ..
  | .shardVerified .. => Wf.shardVerified ..
  | .ckptComplete .. => Wf.ckptComplete ..
  | .heartbeat .. => Wf.heartbeat ..
  | .heartbeatMiss .. => Wf.heartbeatMiss ..
  | .failureReport .. => Wf.failureReport ..
  | .shrink .. => Wf.shrink ..
  | .shrinkResume .. => Wf.shrinkResume ..
  | .shrinkLimit .. => Wf.shrinkLimit ..
  | .stepTimeReport .. => Wf.stepTimeReport ..
  | .rejoinReady .. => Wf.rejoinReady ..
  | .rejoinDone .. => Wf.rejoinDone ..
  | .understorySegment .. => Wf.understorySegment ..
  | .testOverdue .. => Wf.testOverdue ..
  | .spareIn .. => Wf.spareIn ..
  | .remargin .. => Wf.remargin ..
  | .ckptDrainEnd .. => Wf.ckptDrainEnd ..
  | .gatewayFrame .. => Wf.gatewayFrame ..
  | .pcieLinkDown .. => Wf.pcieLinkDown ..

end Sys2Proof.Laws

namespace Sys2Proof.Proofs

/-- Settles O6: `Wf.Statement` of every command, its two halves in the obligation's order. -/
theorem commandsStopOnlyOnForeignNumbers : Obligations.CommandsStopOnlyOnForeignNumbers :=
  fun i s => (Laws.wf_statement i s).symm

end Sys2Proof.Proofs
end

section
/-! A refused write of the dictionary changes nothing (00 R9, 17 R359). -/

namespace Sys2Proof.Machine

/-- The result of a write from `s` changed nothing if it is a refusal (00 R9). -/
def RefusalKeeps (s : State) (r : Name × State) : Prop := r.1 ≠ .ok → r.2 = s

namespace State

variable {s t : State}

/-! ### The shapes every write ends in -/

theorem refusalKeeps_ok {k : State} : RefusalKeeps s (.ok, k) := fun h => absurd rfl h

theorem refusalKeeps_refused {why : Name} : RefusalKeeps s (why, s) := fun _ => rfl

theorem answer_refusalKeeps {why : Name} {k : State} : RefusalKeeps s (s.answer why k) := by
  unfold answer
  split
  · exact refusalKeeps_ok
  · exact refusalKeeps_refused

theorem answerCmd_refusalKeeps {idx sub x : Nat} {r : Except Name State} :
    RefusalKeeps s (s.answerCmd idx sub x r) := by
  cases r with
  | ok k => exact refusalKeeps_ok
  | error why => exact refusalKeeps_refused

/-! ### Order 8, entry by entry -/

theorem writeBlock_refusalKeeps {idx sub x : Nat} : RefusalKeeps s (s.writeBlock t idx sub x) := by
  unfold writeBlock
  dsimp only
  split
  case h_4 => exact answerCmd_refusalKeeps
  case h_5 | h_6 => exact refusalKeeps_ok
  all_goals exact answer_refusalKeeps

theorem writeCkpt_refusalKeeps {n sub x : Nat} : RefusalKeeps s (s.writeCkpt t n sub x) := by
  unfold writeCkpt
  split
  · split
    · exact refusalKeeps_ok
    split
    · exact refusalKeeps_ok
    split
    · exact refusalKeeps_ok
    · exact refusalKeeps_refused
  · exact answer_refusalKeeps

theorem writeTurn_refusalKeeps {n sub x : Nat} : RefusalKeeps s (s.writeTurn t n sub x) := by
  unfold writeTurn
  split
  · exact refusalKeeps_ok
  · exact answer_refusalKeeps

theorem writeHealth_refusalKeeps {n sub x : Nat} : RefusalKeeps s (s.writeHealth t n sub x) := by
  unfold writeHealth
  dsimp only
  split
  · exact refusalKeeps_ok
  split
  · exact refusalKeeps_ok
  · exact answer_refusalKeeps

theorem writePort_refusalKeeps {idx sub x : Nat} : RefusalKeeps s (s.writePort t idx sub x) := by
  unfold writePort
  dsimp only
  split
  · exact refusalKeeps_ok
  split
  · exact answer_refusalKeeps
  split <;> exact refusalKeeps_ok

theorem writeRecovery_refusalKeeps {n x : Nat} {newer older : GenCheck} :
    RefusalKeeps s (s.writeRecovery t n x newer older) := by
  unfold writeRecovery
  split
  · exact refusalKeeps_refused
  · exact refusalKeeps_ok

theorem writePower_refusalKeeps {x : Nat} : RefusalKeeps s (s.writePower t x) := by
  unfold writePower
  split
  · exact refusalKeeps_ok
  split
  · exact refusalKeeps_refused
  · exact refusalKeeps_ok

theorem writeClearing_refusalKeeps {idx sub n x : Nat} {gens : GenCheck × GenCheck} :
    RefusalKeeps s (s.writeClearing t idx sub n x gens) := by
  unfold writeClearing
  split
  · exact writeBlock_refusalKeeps
  split
  · exact answer_refusalKeeps
  split
  · exact answer_refusalKeeps
  split
  · split
    · exact answer_refusalKeeps
    split
    · exact answer_refusalKeeps
    · exact answer_refusalKeeps
  split
  · exact writeCkpt_refusalKeeps
  split
  · exact answer_refusalKeeps
  split
  · exact answer_refusalKeeps
  split
  · exact writeTurn_refusalKeeps
  split
  · exact writeHealth_refusalKeeps
  split
  · exact writeRecovery_refusalKeeps
  · exact refusalKeeps_ok

theorem writeModule_refusalKeeps {sess idx sub x : Nat} {v : List Byte} (hmp : ¬(0x3240 ≤ idx ∧ idx ≤ 0x327F)) :
    RefusalKeeps s (s.writeModule t sess idx sub x v) := by
  unfold writeModule
  split
  case h_2 => exact writePower_refusalKeeps
  case h_5 | h_6 => exact answerCmd_refusalKeeps
  case h_7 =>
    split
    · exact refusalKeeps_refused
    · exact refusalKeeps_ok
  case h_8 => exact answer_refusalKeeps
  case h_13 =>
    rw [if_neg (by simpa using hmp)]
    split
    · exact writePort_refusalKeeps
    · exact refusalKeeps_ok
  all_goals exact refusalKeeps_ok

/-! ### The write as a whole -/

theorem effect_refusalKeeps {sess : Nat} {e : Entry} {idx sub : Nat} {v : List Byte} {gens : GenCheck × GenCheck}
    (hmp : ¬(0x3240 ≤ idx ∧ idx ≤ 0x327F)) : RefusalKeeps s (s.effect sess e idx sub v gens) := by
  unfold effect
  dsimp only
  split
  · exact refusalKeeps_refused
  split
  · exact answer_refusalKeeps
  split
  · exact writeModule_refusalKeeps hmp
  · split
    · exact refusalKeeps_ok
    · exact writeClearing_refusalKeeps

theorem writeAs_refusalKeeps {r : Role} {sess : Nat} {bank : Bool} {idx sub : Nat} {v : List Byte} {kind : Kind}
    {gens : GenCheck × GenCheck} (hmp : ¬(0x3240 ≤ idx ∧ idx ≤ 0x327F)) :
    RefusalKeeps s (s.writeAs r sess bank idx sub v kind gens) := by
  unfold writeAs
  dsimp only
  split
  · exact refusalKeeps_refused
  split
  · exact effect_refusalKeeps hmp
  · exact refusalKeeps_refused

theorem writeWith_refusalKeeps {sess idx sub : Nat} {v : List Byte} {kind : Kind} {gens : GenCheck × GenCheck}
    (hmp : ¬(0x3240 ≤ idx ∧ idx ≤ 0x327F)) : RefusalKeeps s (s.writeWith sess idx sub v kind gens) := by
  unfold writeWith
  split
  · exact refusalKeeps_refused
  dsimp only
  split
  · exact refusalKeeps_ok
  · exact writeAs_refusalKeeps hmp

theorem applyWrite_refusalKeeps {sess idx sub : Nat} {v : List Byte} {kind : Kind}
    (hmp : ¬(0x3240 ≤ idx ∧ idx ≤ 0x327F)) : RefusalKeeps s (s.applyWrite sess idx sub v kind) :=
  writeWith_refusalKeeps hmp

theorem applyWrite_of_roleOf_none {s : State} {sess : Nat} (h : s.roleOf sess = none) (idx sub : Nat) (v : List Byte)
    (kind : Kind) : s.applyWrite sess idx sub v kind = (.sessionUnknown, s) := by
  simp [applyWrite, writeWith, h]

/-! ### Where the dictionary can be reached -/

theorem on_of_reachable {s : State} (h : s.reachable = true) : s.on = true := by
  unfold reachable serving at h
  unfold on
  cases hm : s.power.mode <;> simp [hm] at h ⊢

theorem exec_registerWrite_of_on {s : State} (h : s.on = true) (sess idx sub : Nat) (v : List Byte) :
    exec (.registerWrite sess idx sub v) s = .next (s.command sess idx sub v) := by
  show whenOn s (s.command sess idx sub v) = _
  rw [whenOn, if_pos h]

/-- A write that answers `why` and `k` tells `why`; only an accepted one begins the session's time anew (19 R408). -/
theorem command_of_applyWrite {s k : State} {why : Name} {sess idx sub : Nat} {v : List Byte}
    (h : s.reachable = true) (hw : s.applyWrite sess idx sub v .any = (why, k)) :
    s.command sess idx sub v = (if why == .ok then k.touch sess else k).emit (.status why) := by
  simp only [command, hw, onlyIf, h, if_true]

end State

end Sys2Proof.Machine

namespace Sys2Proof.Proofs

open Machine State

/-- Settles O18: a write under no session ends at once; any other refusal keeps the state by
`applyWrite_refusalKeeps`. -/
theorem refusedWriteChangesNothing : Obligations.RefusedWriteChangesNothing := by
  intro sess idx sub v s hr
  rw [exec_registerWrite_of_on (on_of_reachable hr)]
  refine ⟨fun hrole => ?_, ?_⟩
  · rw [command_of_applyWrite hr (applyWrite_of_roleOf_none hrole idx sub v .any)]
    rfl
  · rcases hw : s.applyWrite sess idx sub v .any with ⟨why, k⟩
    refine ⟨_, why, congrArg _ (command_of_applyWrite hr hw), fun hwhy hmp => ?_⟩
    have hkeeps : RefusalKeeps s (why, k) := hw ▸ applyWrite_refusalKeeps hmp
    rw [if_neg (by simpa using hwhy)]
    exact hkeeps hwhy

end Sys2Proof.Proofs
end

section
/-! One-time-programmable storage only grows (02 R32; 19 R401, R409, R413; 20 R433, R436): the storage from which it has
grown is carried along the invariant, so one fact holds of every command. -/

namespace Sys2Proof.Machine

variable {fuse : Otp} {s : State}

/-- One case per command, each settled by the command's own lemma. -/
theorem exec_keeps (i : Instr) (h : s.Kept fuse) : AnsKept fuse (exec i s) :=
  match i with
  | .start env => execStart_keeps env s h
  | .powerOff cause => execPowerOff_keeps cause s h
  | .moduleReset sess => execModuleReset_keeps sess s h
  | .hold sess => execHold_keeps sess s h
  | .holdDone => execHoldDone_keeps s h
  | .resume sess => execResume_keeps sess s h
  | .capControlTick mv ma w => execCapControlTick_keeps mv ma w s h
  | .thermalWarn g mC => execThermalWarn_keeps g mC s h
  | .thermalTrip die mC => execThermalTrip_keeps die mC s h
  | .thermRelease temps => execThermRelease_keeps temps s h
  | .thermalHotTimeout die mC => execThermalHotTimeout_keeps die mC s h
  | .coolantLow flow tin tout => execCoolantLow_keeps flow tin tout s h
  | .rateMeasure die beats => execRateMeasure_keeps die beats s h
  | .regRefill n res dir => execRegRefill_keeps n res dir s h
  | .perstAssert => execPerstAssert_keeps s h
  | .perstRelease => execPerstRelease_keeps s h
  | .sweep writes => execSweep_keeps writes s h
  | .planPart slot image => execPlanPart_keeps slot image s h
  | .planIncomplete planId => execPlanIncomplete_keeps planId s h
  | .vatRequest slot => execVatRequest_keeps slot s h
  | .cancel slot => execCancel_keeps slot s h
  | .pause slot => execPause_keeps slot s h
  | .reward slot => execReward_keeps slot s h
  | .planWithdraw slot => execPlanWithdraw_keeps slot s h
  | .dictSlotRead slot => execDictSlotRead_keeps slot s h
  | .dictSlotWrite slot plan => execDictSlotWrite_keeps slot s plan h
  | .registerWrite sess idx sub v => execRegisterWrite_keeps sess idx sub v s h
  | .read fr => execRead_keeps fr s h
  | .write fr => execWrite_keeps fr s h
  | .segRead fr => execSegRead_keeps fr s h
  | .segWrite fr => execSegWrite_keeps fr s h
  | .abort fr => execAbort_keeps fr s h
  | .transferTimeout idx sub sess => execTransferTimeout_keeps idx sub sess s h
  | .bar0Write off v => execBar0Write_keeps off v s h
  | .apertureLoad sess => execApertureLoad_keeps sess s h
  | .apertureCommit sess => execApertureCommit_keeps sess s h
  | .evAckedWrite v => execEvAckedWrite_keeps v s h
  | .ringConsumedWrite ring v => execRingConsumedWrite_keeps ring v s h
  | .store sess => execStore_keeps sess s h
  | .resetDefaults sess => execResetDefaults_keeps sess s h
  | .storeDone => execStoreDone_keeps s h
  | .fwStageDataWrite sess v => execFwStageDataWrite_keeps sess v s h
  | .erase sess => execErase_keeps sess s h
  | .verify sess => execVerify_keeps sess s h
  | .select sess => execSelect_keeps sess s h
  | .restore sess n newer older => execRestore_keeps sess n newer older s h
  | .restoreOlder sess n newer older => execRestoreOlder_keeps sess n newer older s h
  | .restoreDone n blocks bad told more epoch => execRestoreDone_keeps n blocks s bad told more epoch h
  | .arbClear sess => execArbClear_keeps sess s h
  | .healthClear sess n => execHealthClear_keeps sess n s h
  | .cellarTtlEnableWrite sess v => execCellarTtlEnableWrite_keeps sess v s h
  | .attestReportRead sess => execAttestReportRead_keeps sess s h
  | .sessionOpenManager sess v => execSessionOpenManager_keeps sess v s h
  | .sessionOpenTenant sess v => execSessionOpenTenant_keeps sess v s h
  | .commission sess v => execCommission_keeps sess v s h
  | .close sess v => execClose_keeps sess v s h
  | .sessionTimeout session => execSessionTimeout_keeps session s h
  | .keyWrappedWrite sess n v => execKeyWrappedWrite_keeps sess n v s h
  | .keyOpeningDone n => execKeyOpeningDone_keeps n s h
  | .cryptoError => execCryptoError_keeps s h
  | .create sess n => execCreate_keeps sess n s h
  | .clearingCreated n => execClearingCreated_keeps n s h
  | .resize sess n => execResize_keeps sess n s h
  | .destroy sess n => execDestroy_keeps sess n s h
  | .clearingDestroyed n => execClearingDestroyed_keeps n s h
  | .microprogWrite sess entry sub v => execMicroprogWrite_keeps sess entry sub v s h
  | .mpTableWrite sess v => execMpTableWrite_keeps sess v s h
  | .microprogLoaded entry => execMicroprogLoaded_keeps entry s h
  | .quotaScrubDone n => execQuotaScrubDone_keeps n s h
  | .gwDatagram port d => execGwDatagram_keeps port d s h
  | .tileLoad g c desc => execTileLoad_keeps g c desc s h
  | .tilePick g c cls => execTilePick_keeps g c cls s h
  | .matmul g c o => execMatmul_keeps g c o s h
  | .splitSum g c o => execSplitSum_keeps g c o s h
  | .convert g c o => execConvert_keeps g c o s h
  | .rmsNorm g c o => execRmsNorm_keeps g c o s h
  | .rmsNormBwd g c o => execRmsNormBwd_keeps g c o s h
  | .softmax g c o => execSoftmax_keeps g c o s h
  | .softmaxBwd g c o => execSoftmaxBwd_keeps g c o s h
  | .rowVariance g c o => execRowVariance_keeps g c o s h
  | .funcApply g c o => execFuncApply_keeps g c o s h
  | .mask g c o => execMask_keeps g c o s h
  | .rawWords g c o => execRawWords_keeps g c o s h
  | .updateP1 g c o => execUpdateP1_keeps g c o s h
  | .updateP2 g c o => execUpdateP2_keeps g c o s h
  | .updateScalars g c o => execUpdateScalars_keeps g c o s h
  | .precondPrep g c o => execPrecondPrep_keeps g c o s h
  | .precondChol g c o => execPrecondChol_keeps g c o s h
  | .precondMm g c o => execPrecondMm_keeps g c o s h
  | .precondAffine g c o => execPrecondAffine_keeps g c o s h
  | .move g c o => execMove_keeps g c o s h
  | .pageGather g c o => execPageGather_keeps g c o s h
  | .pageAppend g c o => execPageAppend_keeps g c o s h
  | .weightRead g c o => execWeightRead_keeps g c o s h
  | .sideSave g c o => execSideSave_keeps g c o s h
  | .sideLoad g c o => execSideLoad_keeps g c o s h
  | .tierMove g c o => execTierMove_keeps g c o s h
  | .triggerPost g c o => execTriggerPost_keeps g c o s h
  | .counterSignal g c ctr src => execCounterSignal_keeps g c ctr src s h
  | .remoteReply tag lines foreign lost => execRemoteReply_keeps tag lines foreign s lost h
  | .remoteTimeout tag => execRemoteTimeout_keeps tag s h
  | .remoteReadServe f asker => execRemoteReadServe_keeps f s asker h
  | .remoteWriteServe f asker => execRemoteWriteServe_keeps f s asker h
  | .lockOverrun group unit input => execLockOverrun_keeps group unit input s h
  | .cellarLate n slot line => execCellarLate_keeps n slot line s h
  | .cellarGroupFailed group => execCellarGroupFailed_keeps group s h
  | .vatStepStart n io => execVatStepStart_keeps n s io h
  | .vatStepEnd n toks faults => execVatStepEnd_keeps n toks faults s h
  | .pressBatchTake n => execPressBatchTake_keeps n s h
  | .pauseExpired n tag => execPauseExpired_keeps n tag s h
  | .stepBoundary n ended lineOk => execStepBoundary_keeps n ended lineOk s h
  | .cultureFillDone g crcOk => execCultureFillDone_keeps g crcOk s h
  | .claimTaken n g ns => execClaimTaken_keeps n g ns s h
  | .claimHoldExpire n => execClaimHoldExpire_keeps n s h
  | .claimReleased n => execClaimReleased_keeps n s h
  | .multiplexSwitch g phys => execMultiplexSwitch_keeps g phys s h
  | .versionProduced n => execVersionProduced_keeps n s h
  | .landingReserve n => execLandingReserve_keeps n s h
  | .shardSend n unit shard dst granted again => execShardSend_keeps n unit shard s dst granted again h
  | .shardLanded n unit shard data bad => execShardLanded_keeps n unit shard data bad s h
  | .frontStart n reports => execFrontStart_keeps n reports s h
  | .unitReplace n others => execUnitReplace_keeps n s others h
  | .turnSourceCurrent n others => execTurnSourceCurrent_keeps n s others h
  | .vatLoad n version => execVatLoad_keeps n version s h
  | .loadDone n => execLoadDone_keeps n s h
  | .snapshotOpen n => execSnapshotOpen_keeps n s h
  | .blockCopied ch => execBlockCopied_keeps ch s h
  | .snapshotFailed ch cause => execSnapshotFailed_keeps ch cause s h
  | .portBringup p env => execPortBringup_keeps p env s h
  | .identReceive p id => execIdentReceive_keeps p id s h
  | .laneFailure p lane => execLaneFailure_keeps p lane s h
  | .flitReceive p f => execFlitReceive_keeps p f s h
  | .transitForward p f => execTransitForward_keeps p f s h
  | .trigPost die n d => execTrigPost_keeps die n d s h
  | .chunkArrive die l dst data asker => execChunkArrive_keeps die l dst data s asker h
  | .chunkAck die l => execChunkAck_keeps die l s h
  | .chunkRetry die l undelivered => execChunkRetry_keeps die l undelivered s h
  | .collFail n coll status opId line => execCollFail_keeps n coll status opId s line h
  | .collTimeout n coll missing => execCollTimeout_keeps n coll s missing h
  | .shardVerified n ok slot => execShardVerified_keeps n ok s slot h
  | .ckptComplete n copiesOk others told vatSteps => execCkptComplete_keeps n copiesOk others s told vatSteps h
  | .heartbeat n src epoch => execHeartbeat_keeps n src epoch s h
  | .heartbeatMiss n modNo env => execHeartbeatMiss_keeps n modNo s env h
  | .failureReport n modNo epoch env => execFailureReport_keeps n modNo epoch s env h
  | .shrink n epoch drop failed => execShrink_keeps n epoch drop s failed h
  | .shrinkResume n totals usable reports sent epoch => execShrinkResume_keeps n s totals usable reports sent epoch h
  | .shrinkLimit n env => execShrinkLimit_keeps n s env h
  | .stepTimeReport n reports env epoch => execStepTimeReport_keeps n reports s env epoch h
  | .rejoinReady n modNo rejoin epoch => execRejoinReady_keeps n modNo s rejoin epoch h
  | .rejoinDone n blocks more epoch => execRejoinDone_keeps n blocks s more epoch h
  | .understorySegment g phys o => execUnderstorySegment_keeps g phys o s h
  | .testOverdue g phys => execTestOverdue_keeps g phys s h
  | .spareIn g spareOk => execSpareIn_keeps g spareOk s h
  | .remargin g margins => execRemargin_keeps g margins s h
  | .ckptDrainEnd n => execCkptDrainEnd_keeps n s h
  | .gatewayFrame p f => execGatewayFrame_keeps p f s h
  | .pcieLinkDown => execPcieLinkDown_keeps s h

/-- The queue is the model's own: soundness says nothing of it, and a state of OFF holds any. -/
theorem State.Kept.withPending (h : s.Kept fuse) (rest : List Instr) : State.Kept fuse { s with pending := rest } := by
  obtain ⟨⟨hmem, hbounds, hoff⟩, hgrown⟩ := h
  exact ⟨⟨hmem, hbounds, fun hmode => congrArg (fun t : State => { t with pending := rest }) (hoff hmode)⟩, hgrown⟩

/-- A step is a nanosecond of an empty queue, or the command at the queue's front run on its rest. -/
theorem step_keeps (h : s.Kept fuse) : AnsKept fuse (step s) := by
  unfold step
  split
  · exact ansInv_next (State.idle_keeps s h)
  next c rest _ => exact exec_keeps c (h.withPending rest)

end Sys2Proof.Machine

namespace Sys2Proof.Proofs

open Machine State

/-- Settles O60: `step_keeps`, with the storage before the step as that from which it has grown. -/
theorem fusesAreNeverTakenBack : Obligations.FusesAreNeverTakenBack := by
  intro s t hinv hstep
  have hkept : s.Kept s.otp := ⟨hinv, Otp.grows_refl s.otp⟩
  obtain ⟨_, hgrown⟩ := step_keeps hkept t hstep
  exact hgrown

end Sys2Proof.Proofs
end

section
/-! What a tile's run leaves in memory: what it counts, charges and signals writes none (03 R53, R68; 04 R89). -/

namespace Sys2Proof.Machine.State

variable {s : State}

theorem foldl_mem {α : Type} {f : State → α → State} (hf : ∀ t x, (f t x).mem = t.mem) (l : List α) (s : State) :
    (l.foldl f s).mem = s.mem := by
  induction l generalizing s with
  | nil => rfl
  | cons x l ih => exact (ih (f s x)).trans (hf s x)

@[simp] theorem postFull_mem (name : Name) (clearing slot : Nat) (status : Name) (tag : Nat) (detail : List Byte) :
    (s.postFull name clearing slot status tag detail).mem = s.mem := by
  unfold postFull
  dsimp only
  split <;> rfl

@[simp] theorem post_mem (name : Name) (clearing : Nat) (status : Name) (tag : Nat) (detail : List Byte) :
    (s.post name clearing status tag detail).mem = s.mem := postFull_mem ..

/-! ### Counting -/

@[simp] theorem countValue_mem (n cls : Nat) (v : Nat × ConvClass) : (s.countValue n cls v).mem = s.mem := by
  unfold countValue
  exact foldl_mem (fun _ _ => by simp) _ _

@[simp] theorem countTally_mem (n cls : Nat) (y : Tally) : (s.countTally n cls y).mem = s.mem := by
  have hconv : (y.conv.foldl (fun s v => s.countValue n cls v) s).mem = s.mem :=
    foldl_mem (fun _ _ => countValue_mem ..) _ _
  unfold countTally
  dsimp only
  split <;> split <;> simp [hconv]

@[simp] theorem setPress_mem (n : Nat) (p : Press) : (s.setPress n p).mem = s.mem := rfl

@[simp] theorem setRecov_mem (n : Nat) (x : Recov) : (s.setRecov n x).mem = s.mem := rfl

@[simp] theorem chargeBeats_mem (g c n : Nat) (cls : TileClass) (beats : Nat) :
    (s.chargeBeats g c n cls beats).mem = s.mem := by
  unfold chargeBeats
  dsimp only
  split <;> rfl

/-! ### Signals -/

@[simp] theorem countBarred_mem (g : Nat) (l : List (Nat × Nat)) (n : Option Nat) (ts : List TileSlot) :
    (s.countBarred g l n ts).mem = s.mem := by
  refine foldl_mem (fun t x => ?_) _ _
  dsimp only
  split <;> rfl

@[simp] theorem refresh_mem (g c : Nat) : (s.refresh g c).mem = s.mem := countBarred_mem ..

@[simp] theorem refreshParked_mem (g c : Nat) : (s.refreshParked g c).mem = s.mem :=
  foldl_mem (fun _ _ => countBarred_mem ..) _ _

@[simp] theorem bumpCtr_mem (g c k : Nat) : (s.bumpCtr g c k).mem = s.mem := by
  unfold bumpCtr
  dsimp only
  split
  · rfl
  · split
    · rfl
    · split <;> simp

@[simp] theorem savedCtr_mem (n g c i : Nat) : (s.savedCtr n g c i).mem = s.mem := by
  unfold savedCtr
  dsimp only
  split <;> simp

@[simp] theorem signalCtr_mem (n g c i : Nat) : (s.signalCtr n g c i).mem = s.mem := by
  unfold signalCtr
  split
  · exact bumpCtr_mem ..
  · exact savedCtr_mem ..

/-! ### Completion -/

@[simp] theorem clearArray_mem (g c : Nat) (cls : TileClass) : (s.clearArray g c cls).mem = s.mem := by
  unfold clearArray
  split <;> rfl

@[simp] theorem finish_mem (g c : Nat) (cls : TileClass) : (s.finish g c cls).mem = s.mem :=
  (foldl_mem (fun _ _ => signalCtr_mem ..) _ _).trans (clearArray_mem ..)

@[simp] theorem proveSpare_mem (g c : Nat) : (s.proveSpare g c).mem = s.mem := by
  unfold proveSpare
  dsimp only
  split <;> rfl

/-- Only a trigger that is raised could write memory, by what it fires (14 R309). -/
theorem settleRun_mem {r : RunRes} (htrig : r.trig = none) (g c : Nat) (d : TileDesc) (times : Nat) :
    (s.settleRun g c d r times).mem = s.mem := by
  have hchain (t : State) :
      (r.chain.foldl (fun s p => s.countTally d.clearing p.1 p.2) t).mem = t.mem :=
    foldl_mem (fun _ _ => countTally_mem ..) _ _
  have hpress (t : State) :
      (r.press.foldl (fun s p => s.bumpLive (0x6080 + d.clearing) p.1 p.2) t).mem = t.mem :=
    foldl_mem (fun _ _ => bumpLive_mem ..) _ _
  simp only [settleRun, htrig, finish_mem, chargeBeats_mem]
  split <;> simp [hchain, hpress]

theorem complete_mem {r : RunRes} (htrig : r.trig = none) (g c : Nat) (d : TileDesc) (times : Nat) :
    (s.complete g c d r times).mem = ((s.writeScr g c (r.scr ++ r.late)).writeSide g c r.side).mem := by
  rw [complete, proveSpare_mem, settleRun_mem htrig]

@[simp] theorem healWords_mem (g c off len : Nat) : (s.healWords g c off len).mem = s.mem := by
  unfold healWords
  dsimp only
  split <;> rfl

@[simp] theorem setScr_mem (g c off : Nat) (b : List Byte) :
    (s.setScr g c off b).mem = Mem.writes s.mem (s.scrAddr g c off) b := healWords_mem ..

/-! ### A run that meets nothing -/

/-- The first compute tile that runs on a cell is `d`, in RUN, and its run meets nothing: no arbiter, no word that fails
its code, no other check that finds something, and a culture table that it may draw from. -/
structure RunsClean (s : State) (g c : Nat) (o : RunEnv) (d : TileDesc) : Prop where
  mode : s.power.mode = .run
  notWaiting : s.tileWaits g c = false
  found : o.found = .ok
  arb : o.arb = []
  table : (s.grove g).tableState ≠ 3
  head : ((s.runningSlots g c .compute).map (·.desc)).head? = some d
  inputs : s.badInput g c ((s.runningSlots g c .compute).map (·.desc)) = none

variable {g c : Nat} {o : RunEnv} {d : TileDesc} {f : State → List TileDesc → RunRes}

theorem RunsClean.outcome_eq (h : s.RunsClean g c o d) :
    s.outcome g c ((s.runningSlots g c .compute).map (·.desc)) o.found = .ok := by
  simp only [outcome, h.inputs, h.found]

/-- A clean run whose parameter line is in order completes, with its result but for the beats it was held (03 R68). -/
theorem RunsClean.runCompute_eq (h : s.RunsClean g c o d) {r : RunRes}
    (hr : f s ((s.runningSlots g c .compute).map (·.desc)) = r) (hline : r.lineOk = true) :
    s.runCompute g c d.kind o f = s.complete g c d { r with beats := s.tookBeats g d r o.held } 1 := by
  have hrunning : s.running = true := by simp [running, h.mode]
  have harb : s.arbitrateAll o.arb = s := by rw [h.arb]; rfl
  simp only [runCompute, h.head, h.notWaiting, hrunning, harb, h.outcome_eq, hr, hline]
  simp [h.table]

/-- A clean run whose result is one write of the scratchpad makes that write. -/
theorem RunsClean.exists_next_mem (h : s.RunsClean g c o d) (hwf : wfCell g c = true) {b : List Byte} {beats : Nat}
    (hr : f s ((s.runningSlots g c .compute).map (·.desc)) = { scr := [(d.outAddr, b)], beats := beats }) :
    ∃ t : State, inRange (wfCell g c) s (s.runCompute g c d.kind o f) = .next t ∧
      t.mem = Mem.writes s.mem (s.scrAddr g c d.outAddr) b := by
  have hon : s.on = true := by simp [on, h.mode]
  refine ⟨_, by rw [inRange, if_pos hwf, whenOn, if_pos hon], ?_⟩
  rw [h.runCompute_eq hr rfl, complete_mem rfl]
  exact setScr_mem ..

end Sys2Proof.Machine.State
end

section
/-! What MASK and RAW_WORDS tiles write for each draw (05 R103, R104; 08 R177). -/

namespace Sys2Proof.Machine

/-! ### Bytes read back -/

/-- A byte string written is read back piece by piece. -/
theorem Mem.reads_writes {m : Mem} (hwf : Mem.wf m = true) (a : Nat) {bs : List Byte} {off n : Nat}
    (hn : off + n ≤ bs.length) : Mem.reads (Mem.writes m a bs) (a + off) n = (bs.drop off).take n := by
  refine List.ext_getElem (by simp [Mem.reads]; omega) fun i hi hi' => ?_
  have hin : i < n := by simpa [Mem.reads] using hi
  have hrange : a ≤ a + off + i ∧ a + off + i < a + bs.length := by omega
  have hoff : a + off + i - a = off + i := by omega
  simp only [Mem.reads, List.getElem_map, List.getElem_range, List.getElem_take, List.getElem_drop]
  rw [Mem.read_writes _ _ _ hwf, if_pos hrange, hoff]
  exact ((List.getElem_eq_getD 0).symm)

/-- Of pieces of `w` bytes each, laid end to end, piece `n` lies from byte `w * n` on. -/
theorem take_drop_flatMap {α : Type} {piece : α → List Byte} {w : Nat} (hw : ∀ x, (piece x).length = w) (l : List α)
    (n : Nat) (hn : n < l.length) : ((l.flatMap piece).drop (w * n)).take w = piece l[n] := by
  induction l generalizing n with
  | nil => exact absurd hn (Nat.not_lt_zero n)
  | cons x l ih =>
    cases n with
    | zero => simp [← hw x]
    | succ n =>
      have hskip : w * (n + 1) = (piece x).length + w * n := by
        rw [hw, Nat.mul_succ, Nat.add_comm]
      rw [List.flatMap_cons, hskip, ← List.drop_drop, List.drop_left]
      exact ih n (Nat.lt_of_succ_lt_succ hn)

/-! ### Bits of a mask byte -/

/-- The number whose bit `i` below `w` says whether `bit i` holds. -/
def packedBits (bit : Nat → Prop) [DecidablePred bit] (w : Nat) : Nat :=
  ((List.range w).map fun i => (if bit i then 1 else 0) * pow2 i).foldl (· + ·) 0

section

variable (bit : Nat → Prop) [DecidablePred bit]

theorem packedBits_succ (w : Nat) : packedBits bit (w + 1) = pow2 w * (if bit w then 1 else 0) + packedBits bit w := by
  rw [packedBits, List.range_succ, List.map_append, List.foldl_append, Nat.mul_comm, Nat.add_comm]
  rfl

theorem packedBits_lt (w : Nat) : packedBits bit w < pow2 w := by
  induction w with
  | zero => exact Nat.one_pos
  | succ w ih =>
    have hdouble : pow2 (w + 1) = pow2 w * 2 := Nat.pow_succ ..
    rw [packedBits_succ, hdouble]
    split <;> omega

theorem testBit_packedBits {w i : Nat} (hi : i < w) : (packedBits bit w).testBit i = decide (bit i) := by
  induction w with
  | zero => exact absurd hi (Nat.not_lt_zero i)
  | succ w ih =>
    rw [packedBits_succ, Nat.testBit_two_pow_mul_add _ (packedBits_lt bit w)]
    by_cases hlt : i < w
    · rw [if_pos hlt, ih hlt]
    · obtain rfl : i = w := by omega
      by_cases hbit : bit i <;> simp [hbit]

end

/-! ### The results -/

namespace State

variable (s : State) (g c : Nat) (d : TileDesc)

/-- Draw bits [15:0] of element `n` of a mask tile are below the tile's probability (05 R103). -/
abbrev MaskSet (n : Nat) : Prop :=
  s.draw d.clearing g (argStream d) (indexBase d + n) % 2 ^ 16 < s.scr32 g c d.auxAddr % 2 ^ 16

/-- Byte `b` of a mask: the bits of elements `8 * b` to `8 * b + 7`. -/
def maskByte (b : Nat) : Byte := BitVec.ofNat 8 (packedBits (fun i => s.MaskSet g c d (8 * b + i)) 8)

/-- The bytes of element `n` of a raw-word tile: draw bits [31:0] (05 R104). -/
def rawWord (n : Nat) : List Byte := leBytes 4 (s.draw d.clearing g (argStream d) (indexBase d + n) % 2 ^ 32)

theorem getLsbD_maskByte (n : Nat) : (s.maskByte g c d (n / 8)).getLsbD (n % 8) = decide (s.MaskSet g c d n) := by
  have hbit : n % 8 < 8 := Nat.mod_lt n (by decide)
  rw [maskByte, BitVec.getLsbD_ofNat, testBit_packedBits _ hbit, Nat.div_add_mod]
  simp [hbit]

variable {s g c d} {ds : List TileDesc}

theorem maskRes_eq (hhead : ds.head? = some d) (hline : s.functionLineOk g c d = true) :
    maskRes g c s ds =
      { scr := [(d.outAddr, (List.range (d.k / 8)).map (s.maskByte g c d))], beats := s.worstBeats g c d } := by
  obtain ⟨rest, rfl⟩ := List.head?_eq_some_iff.mp hhead
  rw [← hline]
  rfl

theorem rawRes_eq (hhead : ds.head? = some d) (hline : s.functionLineOk g c d = true) :
    rawRes g c s ds =
      { scr := [(d.outAddr, (List.range d.k).flatMap (s.rawWord g d))], beats := s.worstBeats g c d } := by
  obtain ⟨rest, rfl⟩ := List.head?_eq_some_iff.mp hhead
  rw [← hline]
  rfl

/-! ### The tiles -/

variable {o : RunEnv}

theorem exec_mask_writes (h : s.RunsClean g c o d) (hwf : wfCell g c = true) (hkind : d.kind = 0x81)
    (hline : s.functionLineOk g c d = true) :
    ∃ t : State, exec (.mask g c o) s = .next t ∧
      t.mem = Mem.writes s.mem (s.scrAddr g c d.outAddr) ((List.range (d.k / 8)).map (s.maskByte g c d)) := by
  show ∃ t, inRange _ _ (s.runCompute g c 0x81 o (maskRes g c)) = .next t ∧ _
  rw [← hkind]
  exact h.exists_next_mem hwf (maskRes_eq h.head hline)

theorem exec_rawWords_writes (h : s.RunsClean g c o d) (hwf : wfCell g c = true) (hkind : d.kind = 0x82)
    (hline : s.functionLineOk g c d = true) :
    ∃ t : State, exec (.rawWords g c o) s = .next t ∧
      t.mem = Mem.writes s.mem (s.scrAddr g c d.outAddr) ((List.range d.k).flatMap (s.rawWord g d)) := by
  show ∃ t, inRange _ _ (s.runCompute g c 0x82 o (rawRes g c)) = .next t ∧ _
  rw [← hkind]
  exact h.exists_next_mem hwf (rawRes_eq h.head hline)

/-- Bit `n mod 8` of byte `n / 8` of a mask in memory tells of element `n`. -/
theorem getLsbD_read_mask {m : Mem} (hwf : Mem.wf m = true) (out : Nat) {n : Nat} (hn : n < d.k / 8 * 8) :
    (Mem.read (Mem.writes m out ((List.range (d.k / 8)).map (s.maskByte g c d))) (out + n / 8)).getLsbD (n % 8) =
      decide (s.MaskSet g c d n) := by
  have hbyte : n / 8 < d.k / 8 := Nat.div_lt_of_lt_mul (by omega)
  rw [Mem.read_writes _ _ _ hwf, if_pos (by simpa using hbyte), Nat.add_sub_cancel_left]
  simp [hbyte, getLsbD_maskByte]

/-- Word `n` of the raw words in memory is that of element `n`. -/
theorem reads_rawWords {m : Mem} (hwf : Mem.wf m = true) (out : Nat) {n : Nat} (hn : n < d.k) :
    Mem.reads (Mem.writes m out ((List.range d.k).flatMap (s.rawWord g d))) (out + 4 * n) 4 = s.rawWord g d n := by
  have hword (i : Nat) : (s.rawWord g d i).length = 4 := Laws.length_leBytes ..
  have hlen : ((List.range d.k).flatMap (s.rawWord g d)).length = d.k * 4 := by
    simp only [List.length_flatMap, hword, List.map_const', List.length_range, List.sum_replicate_nat]
  rw [Mem.reads_writes hwf out (by omega), take_drop_flatMap hword _ n (by simpa using hn), List.getElem_range]

end State

end Sys2Proof.Machine

namespace Sys2Proof.Proofs

open Machine State

/-- Settles O53: each kind's run is clean and makes one write (`exec_mask_writes`, `exec_rawWords_writes`), whose bits
and words are read back by `getLsbD_read_mask` and `reads_rawWords`; a sequence's sampling draw is that of element 0
where INDEX_BASE is its index. -/
theorem maskAndRawWordDraws : Obligations.MaskAndRawWordDraws := by
  intro g c o s hwf hmode hwaits hfound harb htable ⟨hmem, _⟩ ds d hhead hinputs hline out drawOf
  have hclean : s.RunsClean g c o d := ⟨hmode, hwaits, hfound, harb, htable, hhead, hinputs⟩
  constructor
  · intro hkind
    obtain ⟨t, hnext, hwrites⟩ := exec_mask_writes hclean hwf hkind hline
    refine ⟨t, hnext, fun n hn => ?_⟩
    rw [hwrites]
    exact getLsbD_read_mask hmem out hn
  · intro hkind
    obtain ⟨t, hnext, hwrites⟩ := exec_rawWords_writes hclean hwf hkind hline
    have hwords (n : Nat) (hn : n < d.k) : Mem.reads t.mem (out + 4 * n) 4 = leBytes 4 (drawOf n % 2 ^ 32) := by
      rw [hwrites]
      exact reads_rawWords hmem out hn
    refine ⟨t, hnext, hwords, fun x hk hindex => ?_⟩
    rw [sampleDraw, ← hindex]
    exact hwords 0 hk

end Sys2Proof.Proofs
end

section
/-! The micro-program store: which writes reach it, and what a validation changes (06 R128 to R130). -/

namespace Sys2Proof.Machine

/-- A row that the manager alone writes, of no clearing, with every value of its type allowed. -/
structure Entry.OfManager (row : Entry) : Prop where
  acc : row.acc = .wm
  sel : row.sel = .no
  rng : row.rng = .any

/-- The form of a write that MP_STEPS (1), MP_TABLE_BASE (2) or MP_TABLE_LEN (3) takes. -/
abbrev MicroForm (sub : Nat) (v : List Byte) : Prop :=
  sub = 1 ∧ v.length ≤ 96 ∧ stepsReserved v = false ∨ (sub = 2 ∨ sub = 3) ∧ v.length = 2

namespace State

variable {s t u : State}

/-! ### Reads after a write -/

@[simp] theorem rd_wr_same (idx sub x : Nat) : (s.wr idx sub x).rd idx sub = x := by
  simp [rd]

theorem rd_eq_of_look {idx sub : Nat} (h : look t.dict (keyOf idx sub) = look s.dict (keyOf idx sub)) :
    t.rd idx sub = s.rd idx sub := by
  rw [rd, rd, h]

theorem rd_wr_other {idx sub idx' sub' : Nat} (x : Nat) (h : keyOf idx sub ≠ keyOf idx' sub') :
    (s.wr idx sub x).rd idx' sub' = s.rd idx' sub' :=
  rd_eq_of_look (look_ins_other _ _ h)

@[simp] theorem rdBlob_wrBlob_same (idx sub : Nat) (v : List Byte) : (s.wrBlob idx sub v).rdBlob idx sub = v := by
  simp [rdBlob]

/-! ### What a validation changes -/

/-- `t` is `s` but for what a validation of the store entries `es` sets: their MP_STATE, MP_CLAMPED and MP_CRC, which
stand from sub-index 4 on (06 R128). -/
structure Revalidated (es : List Nat) (s t : State) : Prop where
  frame : t = { s with dict := t.dict }
  look_dict : ∀ k, (∀ e ∈ es, k / 256 = mpIdx e → k % 256 < 4) → look t.dict k = look s.dict k

namespace Revalidated

theorem refl (es : List Nat) (s : State) : Revalidated es s s := ⟨rfl, fun _ _ => rfl⟩

variable {es : List Nat}

theorem cons {e : Nat} (h : Revalidated [e] s t) (hrest : Revalidated es t u) : Revalidated (e :: es) s u where
  frame := by rw [hrest.frame, h.frame]
  look_dict k hk := by
    rw [hrest.look_dict k fun e' he' => hk e' (List.mem_cons_of_mem _ he'),
      h.look_dict k fun e' he' => hk e' (List.mem_singleton.mp he' ▸ List.mem_cons_self)]

theorem blobs_eq (h : Revalidated es s t) : t.blobs = s.blobs := by rw [h.frame]

theorem rdBlob_eq (h : Revalidated es s t) (idx sub : Nat) : t.rdBlob idx sub = s.rdBlob idx sub := by
  rw [rdBlob, rdBlob, h.blobs_eq]

/-- The base, the length and the steps of every entry stay. -/
theorem rd_eq (h : Revalidated es s t) (e : Nat) {sub : Nat} (hsub : sub < 4) :
    t.rd (mpIdx e) sub = s.rd (mpIdx e) sub :=
  rd_eq_of_look (h.look_dict _ fun _ _ _ => by simp only [keyOf]; omega)

theorem mpRecords_eq (h : Revalidated es s t) (e : Nat) : t.mpRecords e = s.mpRecords e := by
  simp only [mpRecords, h.rdBlob_eq, h.rd_eq e (sub := 2) (by decide), h.rd_eq e (sub := 3) (by decide)]

theorem mpValid_eq (h : Revalidated es s t) (e : Nat) : t.mpValid e = s.mpValid e := by
  simp only [mpValid, h.rdBlob_eq, h.rd_eq e (sub := 2) (by decide), h.rd_eq e (sub := 3) (by decide)]

theorem mpState_of_notMem (h : Revalidated es s t) {e : Nat} (he : e ∉ es) : t.mpState e = s.mpState e :=
  rd_eq_of_look (h.look_dict _ fun e' he' hidx => by
    have hsame : e' = e := by simp only [keyOf, mpIdx] at hidx; omega
    exact absurd (hsame ▸ he') he)

theorem setStatus {e sub : Nat} (h : Revalidated [e] s t) (x : Nat) (hlo : 4 ≤ sub) (hhi : sub < 256) :
    Revalidated [e] s (t.wr (mpIdx e) sub x) where
  frame := by
    have hframe := h.frame
    rw [wr, hframe]
  look_dict k hk := by
    have hk' := hk e List.mem_cons_self
    have hne : keyOf (mpIdx e) sub ≠ k := by simp only [keyOf]; omega
    rw [wr_dict, look_ins_other _ _ hne, h.look_dict k hk]

end Revalidated

theorem revalidated_validateMp (s : State) (e : Nat) : Revalidated [e] s (s.validateMp e).2 := by
  have hself := Revalidated.refl [e] s
  unfold validateMp
  split
  · exact ((hself.setStatus _ (by decide) (by decide)).setStatus _ (by decide) (by decide)).setStatus _ (by decide)
      (by decide)
  · exact hself.setStatus _ (by decide) (by decide)

theorem validateMp_fst (s : State) (e : Nat) :
    (s.validateMp e).1 = if s.mpValid e = true then .ok else .microprogInvalid := by
  unfold validateMp
  split <;> rfl

theorem mpState_validateMp (s : State) (e : Nat) :
    (s.validateMp e).2.mpState e = if s.mpValid e = true then 1 else 4 := by
  unfold validateMp mpState
  split
  · rw [rd_wr_other _ (by simp [keyOf]), rd_wr_other _ (by simp [keyOf]), rd_wr_same]
  · rw [rd_wr_same]

theorem mpCrc_validateMp {e : Nat} (h : s.mpValid e = true) :
    (s.validateMp e).2.rd (mpIdx e) 6 = crc32c (s.rdBlob (mpIdx e) 1 ++ s.mpRecords e) := by
  rw [validateMp, if_pos h]
  exact rd_wr_same ..

/-- Several entries validated, one after the other. -/
def validateAll (s : State) (es : List Nat) : State := es.foldl (fun s e => (s.validateMp e).2) s

theorem revalidated_validateAll (s : State) (es : List Nat) : Revalidated es s (s.validateAll es) := by
  induction es generalizing s with
  | nil => exact .refl [] s
  | cons e es ih => exact (revalidated_validateMp s e).cons (ih _)

/-- The validations of other entries do not matter, nor that an entry may stand in the list twice. -/
theorem mpState_validateAll {es : List Nat} {e : Nat} (he : e ∈ es) (s : State) :
    (s.validateAll es).mpState e = if s.mpValid e = true then 1 else 4 := by
  induction es generalizing s with
  | nil => exact absurd he List.not_mem_nil
  | cons e' es ih =>
    show ((s.validateMp e').2.validateAll es).mpState e = _
    by_cases hlater : e ∈ es
    · rw [ih hlater, (revalidated_validateMp s e').mpValid_eq]
    · obtain rfl : e = e' := (List.mem_cons.mp he).resolve_right hlater
      rw [(revalidated_validateAll _ es).mpState_of_notMem hlater, mpState_validateMp]

/-! ### A write of the table -/

/-- The entries that a write of MP_TABLE validates again (06 R129). -/
def mpHit (s : State) (v : List Byte) : List Nat :=
  (List.range 64).filter fun e => (s.mpState e == 1 || s.mpState e == 2) && s.mpTouched e v

theorem mem_mpHit_lt {e : Nat} {v : List Byte} (he : e ∈ s.mpHit v) : e < 64 :=
  List.mem_range.mp (List.mem_filter.mp he).1

theorem mem_mpHit {e : Nat} {v : List Byte} (he : e < 64) :
    e ∈ s.mpHit v ↔ (s.mpState e = 1 ∨ s.mpState e = 2) ∧ s.mpTouched e v = true := by
  simp [mpHit, he]

theorem writeMpTable_eq (s : State) (v : List Byte) :
    s.writeMpTable v = (s.wrBlob 0x3201 1 v).validateAll (s.mpHit v) := rfl

theorem revalidated_writeMpTable (s : State) (v : List Byte) :
    Revalidated (s.mpHit v) (s.wrBlob 0x3201 1 v) (s.writeMpTable v) :=
  revalidated_validateAll ..

theorem mpState_writeMpTable {e : Nat} (he : e < 64) (v : List Byte) :
    (s.writeMpTable v).mpState e =
      if (s.mpState e = 1 ∨ s.mpState e = 2) ∧ s.mpTouched e v = true then
        (if (s.writeMpTable v).mpValid e = true then 1 else 4)
      else s.mpState e := by
  have hre := revalidated_writeMpTable s v
  split
  next hhit =>
    rw [hre.mpValid_eq, writeMpTable_eq]
    exact mpState_validateAll ((mem_mpHit he).mpr hhit) _
  next hmiss => exact hre.mpState_of_notMem (mt (mem_mpHit he).mp hmiss)

/-! ### Which writes reach the store -/

section

variable {sess idx sub : Nat} {v : List Byte} {row : Entry}

theorem not_le_of_store {lo : Nat} (h : idx ≤ 0x327F) (hlo : 0x327F < lo) : ¬lo ≤ idx := by omega

theorem arbKind_of_le (h : idx ≤ 0x327F) : arbKind idx = none := by
  simp [arbKind, not_le_of_store h]

theorem fixedLen_of_le (h : idx ≤ 0x327F) : fixedLen idx sub = none := by
  have hne : idx ≠ 0x8002 := by omega
  simp [fixedLen, not_le_of_store h, hne]

theorem lengthBad_of_blob {m : Nat} (hty : row.ty = .blob m) (hlen : v.length ≤ m) (h : idx ≤ 0x327F) :
    lengthBad row idx sub v = false := by
  simp [lengthBad, hty, hlen, fixedLen_of_le h]

theorem lengthBad_of_u16 (hty : row.ty = .u16) (hlen : v.length = 2) : lengthBad row idx sub v = false := by
  simp [lengthBad, hty, hlen, Ty.width]

theorem reservedBad_of_le (hman : row.OfManager) (h : idx ≤ 0x327F)
    (hsteps : 0x3240 ≤ idx → sub = 1 → stepsReserved v = false) : reservedBad row idx sub v = false := by
  have hne : idx ≠ 0x8002 := by omega
  simpa [reservedBad, hman.rng, arbKind_of_le h, not_le_of_store h, hne] using fun hlo _ => hsteps hlo

theorem rangeBad_of_le (hman : row.OfManager) (h : idx ≤ 0x327F) : s.rangeBad row idx sub v = false := by
  simp [rangeBad, hman.rng, not_le_of_store h]

theorem checkForm_of_manager (hrow : entryAt idx sub = some row) (hman : row.OfManager) (h : idx ≤ 0x327F)
    (hlen : lengthBad row idx sub v = false) (hsteps : 0x3240 ≤ idx → sub = 1 → stepsReserved v = false) :
    s.checkForm .manager false idx sub v .any = .ok := by
  simp [checkForm, hrow, firstBad, mayWrite, absentInput, kindBad, hman.acc, arbKind_of_le h, hlen,
    reservedBad_of_le hman h hsteps, rangeBad_of_le hman h]

/-- A manager's write that passes orders 3 to 6 of 17 R359 comes to its entry's own chapter. -/
theorem applyWrite_of_manager (hrole : s.roleOf sess = some .manager) (hrow : entryAt idx sub = some row)
    (hman : row.OfManager) (h : idx ≤ 0x327F) (hlen : lengthBad row idx sub v = false)
    (hsteps : 0x3240 ≤ idx → sub = 1 → stepsReserved v = false) :
    s.applyWrite sess idx sub v .any = s.writeModule (s.store row idx sub v) sess idx sub (leNat v) v := by
  have hne : idx ≠ 0xA010 := by omega
  have hform := checkForm_of_manager (s := s) hrow hman h hlen hsteps
  have hno : row.clearing idx sub = none := by simp [Entry.clearing, hman.sel]
  simp [applyWrite, writeWith, hrole, writeAs, hrow, hform, effect, stateRefusal, hno, not_le_of_store h, hne]

end

/-! ### A write of an entry -/

/-- The rows of MP_STEPS, MP_TABLE_BASE and MP_TABLE_LEN (06 R128). -/
theorem exists_microRow {e sub : Nat} (he : e < 64) (hsub : sub ∈ [1, 2, 3]) :
    ∃ row, entryAt (mpIdx e) sub = some row ∧ row.OfManager ∧ row.ty = if sub = 1 then .blob 96 else .u16 := by
  have hrules : ∀ e < 64, ∀ sub ∈ [1, 2, 3], (entryAt (mpIdx e) sub).map (fun r => (r.acc, r.sel, r.rng, r.ty)) =
      some (.wm, .no, .any, if sub = 1 then .blob 96 else .u16) := by decide +kernel
  obtain ⟨row, hrow, hrule⟩ := Option.map_eq_some_iff.mp (hrules e he sub hsub)
  simp only [Prod.mk.injEq] at hrule
  obtain ⟨hacc, hsel, hrng, hty⟩ := hrule
  exact ⟨row, hrow, ⟨hacc, hsel, hrng⟩, hty⟩

/-- A value of an entry's MP_STEPS, MP_TABLE_BASE or MP_TABLE_LEN stored. -/
def storeMicro (s : State) (e sub : Nat) (v : List Byte) : State :=
  if sub = 1 then s.wrBlob (mpIdx e) 1 v else s.wr (mpIdx e) sub (leNat v)

section

variable {e sub : Nat} {v : List Byte}

theorem storeMicro_frame : s.storeMicro e sub v =
    { s with dict := (s.storeMicro e sub v).dict, blobs := (s.storeMicro e sub v).blobs } := by
  unfold storeMicro
  split <;> rfl

theorem rdBlob_storeMicro (hsub : sub = 1) : (s.storeMicro e sub v).rdBlob (mpIdx e) 1 = v := by
  rw [storeMicro, if_pos hsub, rdBlob_wrBlob_same]

theorem rd_storeMicro (hsub : sub ≠ 1) : (s.storeMicro e sub v).rd (mpIdx e) sub = leNat v := by
  rw [storeMicro, if_neg hsub, rd_wr_same]

theorem look_storeMicro (hsub : sub < 256) {k : Nat} (hk : k / 256 ≠ mpIdx e) :
    look (s.storeMicro e sub v).dict k = look s.dict k ∧ look (s.storeMicro e sub v).blobs k = look s.blobs k := by
  have hne : ∀ i < 256, keyOf (mpIdx e) i ≠ k := by simp only [keyOf]; omega
  unfold storeMicro
  split
  · exact ⟨rfl, look_ins_other _ _ (hne 1 (by decide))⟩
  · exact ⟨look_ins_other _ _ (hne sub hsub), rfl⟩

theorem writeModule_micro {sess x : Nat} (he : e < 64) : s.writeModule t sess (mpIdx e) sub x v = s.writeMicro t e := by
  have hidx : mpIdx e = 0x3240 + e := rfl
  have hstore : 0x3240 ≤ mpIdx e ∧ mpIdx e ≤ 0x327F := by omega
  have hentry : mpIdx e - 0x3240 = e := by omega
  unfold writeModule
  split
  case h_13 => simp [hstore, hentry]
  all_goals omega

theorem applyWrite_micro {sess : Nat} (hrole : s.roleOf sess = some .manager) (he : e < 64) (hform : MicroForm sub v) :
    s.applyWrite sess (mpIdx e) sub v .any = s.writeMicro (s.storeMicro e sub v) e := by
  have hle : mpIdx e ≤ 0x327F := by simp only [mpIdx]; omega
  have hsub : sub ∈ [1, 2, 3] := by simp; omega
  obtain ⟨row, hrow, hman, hty⟩ := exists_microRow he hsub
  rcases hform with ⟨rfl, hlen, hsteps⟩ | ⟨hscalar, hlen⟩
  · rw [applyWrite_of_manager hrole hrow hman hle (lengthBad_of_blob hty hlen hle) fun _ _ => hsteps,
      writeModule_micro he]
    simp [store, storeMicro, hty, Ty.width]
  · have hne : sub ≠ 1 := by omega
    rw [if_neg hne] at hty
    rw [applyWrite_of_manager hrole hrow hman hle (lengthBad_of_u16 hty hlen) fun _ h => absurd h hne,
      writeModule_micro he]
    simp [store, storeMicro, hty, Ty.width, hne]

end

/-! ### A write of the table -/

theorem exists_mpTableRow :
    ∃ row, entryAt 0x3201 1 = some row ∧ row.OfManager ∧ row.ty = .blob 65536 :=
  ⟨_, rfl, ⟨rfl, rfl, rfl⟩, rfl⟩

theorem applyWrite_mpTable {sess : Nat} {v : List Byte} (hrole : s.roleOf sess = some .manager)
    (hlen : v.length ≤ 65536) :
    s.applyWrite sess 0x3201 1 v .any = if s.mpTableBusy v then (.microprogBusy, s) else (.ok, s.writeMpTable v) := by
  obtain ⟨row, hrow, hman, hty⟩ := exists_mpTableRow
  rw [applyWrite_of_manager hrole hrow hman (by decide) (lengthBad_of_blob hty hlen (by decide))
    fun h => absurd h (by decide)]
  rfl

/-! ### The commands -/

section

variable {sess e sub : Nat} {v : List Byte}

theorem wfMicro_iff : wfMicro e = true ↔ e < 64 := decide_eq_true_iff

theorem whenOn_of_on (hon : s.on = true) : whenOn s t = .next t := if_pos hon

theorem inRange_of_on {ok : Bool} (hok : ok = true) (hon : s.on = true) : inRange ok s t = .next t := by
  rw [inRange, if_pos hok, whenOn_of_on hon]

theorem exec_microprogWrite_of_on (hon : s.on = true) (he : e < 64) :
    exec (.microprogWrite sess e sub v) s = .next (s.command sess (mpIdx e) sub v) :=
  inRange_of_on (wfMicro_iff.mpr he) hon

theorem exec_microprogWrite_busy (hreach : s.reachable = true) (hrole : s.roleOf sess = some .manager) (he : e < 64)
    (hform : MicroForm sub v) (hbusy : s.mpState e = 3) :
    exec (.microprogWrite sess e sub v) s = .next (s.emit (.status .microprogBusy)) := by
  have hwrite : s.applyWrite sess (mpIdx e) sub v .any = (.microprogBusy, s) := by
    rw [applyWrite_micro hrole he hform, writeMicro, hbusy]
    rfl
  rw [exec_microprogWrite_of_on (on_of_reachable hreach) he, command_of_applyWrite hreach hwrite]
  rfl

theorem exec_microprogWrite_validates (hreach : s.reachable = true) (hrole : s.roleOf sess = some .manager)
    (he : e < 64) (hform : MicroForm sub v) (hfree : s.mpState e ≠ 3) :
    let r := (s.storeMicro e sub v).validateMp e
    exec (.microprogWrite sess e sub v) s =
      .next ((if r.1 = Name.ok then r.2.touch sess else r.2).emit (.status r.1)) := by
  intro r
  have hwrite : s.applyWrite sess (mpIdx e) sub v .any = (r.1, r.2) := by
    rw [applyWrite_micro hrole he hform, writeMicro, if_neg (by simpa using hfree)]
  rw [exec_microprogWrite_of_on (on_of_reachable hreach) he, command_of_applyWrite hreach hwrite]
  simp only [beq_iff_eq]

theorem exec_mpTableWrite_of_on (hon : s.on = true) :
    exec (.mpTableWrite sess v) s = .next (s.command sess 0x3201 1 v) := whenOn_of_on hon

theorem exec_mpTableWrite (hreach : s.reachable = true) (hrole : s.roleOf sess = some .manager)
    (hlen : v.length ≤ 65536) :
    exec (.mpTableWrite sess v) s = .next (if s.mpTableBusy v = true then s.emit (.status .microprogBusy)
      else ((s.writeMpTable v).touch sess).emit (.status .ok)) := by
  have hwrite := applyWrite_mpTable hrole hlen
  rw [exec_mpTableWrite_of_on (on_of_reachable hreach)]
  split at hwrite
  next hbusy => rw [if_pos hbusy, command_of_applyWrite hreach hwrite]; rfl
  next hfree => rw [if_neg hfree, command_of_applyWrite hreach hwrite]; rfl

theorem exec_microprogLoaded (hon : s.on = true) (he : e < 64) :
    exec (.microprogLoaded e) s = .next (if s.mpState e = 1 then s.wr (mpIdx e) 4 2 else s) := by
  show inRange (wfMicro e) s (onlyIf (s.mpState e == 1) s (s.wr (mpIdx e) 4 2)) = _
  rw [inRange_of_on (wfMicro_iff.mpr he) hon]
  simp only [onlyIf, beq_iff_eq]

end

end State

end Sys2Proof.Machine

namespace Sys2Proof.Proofs

open Machine State

/-- Settles O33: a write of an entry stores and validates it, a write of the table validates the entries it hits, and
`Revalidated` says that a validation sets nothing but MP_STATE and what stands behind it. -/
theorem microProgramStore : Obligations.MicroProgramStore := by
  intro sess s hreach hrole
  refine ⟨fun e sub v hwf hform => ?_, fun v hlen => ?_, fun e hwf => ?_⟩
  · have he : e < 64 := wfMicro_iff.mp hwf
    refine ⟨exec_microprogWrite_busy hreach hrole he hform, fun hfree => ?_⟩
    have hnext := exec_microprogWrite_validates hreach hrole he hform hfree
    have hre := revalidated_validateMp (s.storeMicro e sub v) e
    refine ⟨_, ⟨_, hnext, ?_⟩, fun h => ?_, fun h => ?_, ?_, fun h => ?_, fun k hk => ?_, ?_⟩
    · rw [hre.mpValid_eq, validateMp_fst]
    · rw [hre.rdBlob_eq, rdBlob_storeMicro h]
    · rw [hre.rd_eq e (by omega), rd_storeMicro h]
    · rw [hre.mpValid_eq, mpState_validateMp]
    · rw [hre.mpValid_eq] at h
      rw [hre.rdBlob_eq, hre.mpRecords_eq, mpCrc_validateMp h]
    · obtain ⟨hdict, hblobs⟩ := look_storeMicro (s := s) (v := v) (sub := sub) (by omega) hk
      rw [hre.blobs_eq, hre.look_dict k fun e' he' hidx => absurd (List.mem_singleton.mp he' ▸ hidx) hk]
      exact ⟨hdict, hblobs⟩
    · rw [hre.frame, storeMicro_frame]
  · have hnext := exec_mpTableWrite hreach hrole hlen
    have hre := revalidated_writeMpTable s v
    refine ⟨fun hbusy => by rw [hnext, if_pos hbusy], fun hfree => ⟨_, by rw [hnext, if_neg (by simp [hfree])],
      ?_, fun e he => mpState_writeMpTable he v, fun k hk => ?_, fun k hk => ?_, ?_⟩⟩
    · rw [hre.rdBlob_eq, rdBlob_wrBlob_same]
    · refine hre.look_dict k fun e he hidx => ?_
      have hlt := mem_mpHit_lt he
      simp only [mpIdx] at hidx
      omega
    · rw [hre.blobs_eq]
      exact look_ins_other _ _ hk.symm
    · rw [hre.frame]
      rfl
  · have he : e < 64 := wfMicro_iff.mp hwf
    rw [exec_microprogLoaded (on_of_reachable hreach) he]
    exact ⟨fun h => by rw [if_pos h], fun h => by rw [if_neg h]⟩

end Sys2Proof.Proofs
end

section
/-! Why the step-end clause on the dictionary fails (07 R150; 08 R170, R176): its hypothesis speaks of the curd records that
`look` finds, and in a directory whose keys do not rise it misses those behind a larger key. A far record that is let go
uncovers them, and the step end then writes where they lie. -/

namespace Sys2Proof.Proofs

open Machine State

/-- A taster's part of a plan whose curd buffer is on module 1; it asks for nothing else. -/
def tasterPlan : PlanClearing :=
  { n := 0, role := 3, accMode := 0, spread := 0, discipline := 0, deadlines := false, stepKinds := [], gMax := [],
    gMove := [], counters := [], chain := [], claimCells := [], shares := [], picks := [], weight := 0, kvWidth := 0,
    kvFormat := 0, kvLayers := 0, kvHeads := 0, kvSlots := 0, kvBlock := 0, turnBlock := 0, spreadMods := [], chunk := 0,
    prefillTotal := 0, maxPos := 0, maxStale := 0, vatNo := 0, buckets := [], curdModule := 1, curdClearing := 1,
    curdOffset := 0, curdBytes := 0, hasTaster := true, batch := 0, units := [], unitReads := [], sources := [],
    shards := [], masks := [], ckptBlocks := [], ckptShard := 0, ckptShards := 0, replica := 0, members := [],
    collMods := [] }

/-- A curd record of 64 bytes at the start of a clearing's region on a module. -/
def curdAt (modNo home : Nat) : Curd :=
  { modNo := modNo, home := home, place := 0, reqTag := 0, writer := 0, bytes := 64, closed := true }

/-- A directory out of order: record 0, which is here and names a clearing 160 that no module has, stands behind record 1,
which is on module 1. -/
def unsortedCurds : Map Curd := [(1, curdAt 1 1), (0, curdAt 0 160)]

/-- A scoring of a curd record in a slot, in a step in which it met KV_EVICTED. -/
def faultedScoring (slot curd : Nat) : Seqn :=
  { seqOfReq (scoringReq 0 []) with slot := slot, curd := some curd, active := true, fault := [0x12] }

/-- Clearing 0 is a taster in a step, with that directory and one faulted scoring of each of its records. The entries that
the number 160 selects give it the taster's job, the role of a press, and a region and a job window of 64 bytes. -/
def tasterInStep : State :=
  { power := { mode := .run }
    dict := [(keyOf 0x2000 1, 3), (keyOf (0x2000 + 16 * 160) 1, 3), (keyOf (0x2000 + 16 * 160) 5, 1)]
    force := [(keyOf (0x4040 + 160) 3, 64), (keyOf (0x4040 + 160) 5, 64)]
    clearings := [(0, {
      plan := some tasterPlan
      inStep := true
      vat := { seqs := [faultedScoring 0 1, faultedScoring 1 0] }
      press := { curds := unsortedCurds } })] }

/-- Record 1 hides record 0: the search for a key stops at the first larger one. -/
theorem look_unsortedCurds {id : Nat} {c : Curd} (h : look unsortedCurds id = some c) : c = curdAt 1 1 := by
  rcases Nat.lt_trichotomy id 1 with hid | rfl | hid
  · have hone : ¬1 = id := by omega
    simp only [unsortedCurds, look, beq_iff_eq, if_neg hone, if_pos hid, reduceCtorEq] at h
  · exact (Option.some.inj h).symm
  · have hone : ¬1 = id := by omega
    have hzero : ¬0 = id := by omega
    have hlt : ¬id < 1 := by omega
    simp only [unsortedCurds, look, beq_iff_eq, if_neg hone, if_neg hlt, if_neg hzero, ite_self, reduceCtorEq] at h

/-- Every record that a press of the state finds, and the plan, name clearings of the module. -/
theorem tasterInStep_sound :
    (∀ p, tasterInStep.planOf 0 = some p → p.curdClearing < 64) ∧
      ∀ m id c, look (tasterInStep.press m).curds id = some c → c.home < 64 ∧ c.writer ≤ 64 := by
  refine ⟨fun p hp => ?_, fun m id c hc => ?_⟩
  · obtain rfl : tasterPlan = p := Option.some.inj hp
    decide
  · by_cases hm : m = 0
    · subst hm
      rw [look_unsortedCurds hc]
      decide
    · have hzero : ¬0 = m := fun h => hm h.symm
      have hnone : tasterInStep.clr m = {} := by
        simp only [clr, tasterInStep, look, beq_iff_eq, if_neg hzero, ite_self, Option.getD_none]
      rw [State.press, hnone] at hc
      cases hc

/-- The first scoring's end lets record 1 go, which is not of this module, and uncovers record 0. The second's end finds it,
writes its header, and charges the write to the regulator that the number 160 selects: entry 2500h, which is no clearing's. -/
theorem look_vatEnd_tasterInStep :
    look (tasterInStep.vatEnd 0 tasterPlan [] []).dict (keyOf (0x2460 + 160) 1) ≠
      look tasterInStep.dict (keyOf (0x2460 + 160) 1) := by
  decide +kernel

theorem exec_vatStepEnd_tasterInStep :
    exec (.vatStepEnd 0 [] []) tasterInStep = .next (tasterInStep.vatEnd 0 tasterPlan [] []) := rfl

/-- Refutes O57: the end of the step of `tasterInStep` writes entry 2500h, which the clause on the dictionary keeps. Its
hypothesis bounds the homes of the records that `look` finds and says nothing of the order of their directory; one whose
keys rise hides none. -/
theorem not_vatStepsStartAndEnd : ¬ Obligations.VatStepsStartAndEnd := by
  intro h
  obtain ⟨-, -, -, hend, -⟩ := h 0 tasterInStep (by decide) (by decide)
  obtain ⟨t, hnext, -, -, -, -, -, -, -, -, -, -, -, ⟨-, hdict⟩, -⟩ :=
    hend tasterPlan [] [] rfl (by decide) rfl rfl
  obtain rfl : tasterInStep.vatEnd 0 tasterPlan [] [] = t :=
    Host.Outcome.next.inj (exec_vatStepEnd_tasterInStep.symm.trans hnext)
  exact look_vatEnd_tasterInStep
    (hdict tasterInStep_sound _ (by decide) (by decide) (by decide) (by decide))

end Sys2Proof.Proofs
end

section
/-! Output rings as the host consumes them: a ring that closes, and the request of a ring consumed beyond what it holds
(08 R172, R173). -/

namespace Sys2Proof.Machine

/-- A request marked invalid if its output ring is this one (08 R173). -/
def Req.invalidIf (id : Nat) (q : Req) : Req := if q.ring == some id then { q with invalid := true } else q

theorem Req.invalidIf_eq (id : Nat) :
    Req.invalidIf id = fun q => if q.ring = some id then { q with invalid := true } else q := by
  funext q
  simp [invalidIf]

theorem Seqn.with_invalidIf (id : Nat) (x : Seqn) : { x with req := x.req.invalidIf id } =
    if x.req.ring = some id then { x with req := { x.req with invalid := true } } else x := by
  rw [Req.invalidIf_eq]
  dsimp only
  split <;> rfl

/-- A vat whose request with this output ring, waiting or admitted, is marked invalid. -/
def Vat.invalidate (v : Vat) (id : Nat) : Vat :=
  { v with
    waiting := v.waiting.map (Req.invalidIf id)
    seqs := v.seqs.map fun x => { x with req := x.req.invalidIf id } }

namespace State

variable {s : State}

/-! ### Clearings -/

@[simp] theorem clr_setVat_same (n : Nat) (v : Vat) : (s.setVat n v).clr n = { s.clr n with vat := v } := by
  simp [setVat, clr]

theorem clr_setVat_other {n m : Nat} (v : Vat) (h : m ≠ n) : (s.setVat n v).clr m = s.clr m := by
  simp [setVat, clr, look_ins_other _ _ h.symm]

@[simp] theorem vat_setVat_same (n : Nat) (v : Vat) : (s.setVat n v).vat n = v := by
  simp [vat]

/-! ### CONSUMED -/

theorem on_of_hostUp (h : s.hostUp = true) : s.on = true := by
  simp only [hostUp, Bool.and_eq_true] at h
  exact h.1.1.1

theorem exec_ringConsumedWrite_of_hostUp (h : s.hostUp = true) (off v : Nat) :
    exec (.ringConsumedWrite off v) s = .next (s.consumeRing off v) := by
  show whenOn s (onlyIf s.hostUp s (s.consumeRing off v)) = _
  rw [whenOn_of_on (on_of_hostUp h), onlyIf, if_pos h]

variable {off v id : Nat} {r : Ring}

theorem consumeRing_of_no_ring (h : s.hub.rings.find? (fun r => r.2.offset == off) = none) :
    s.consumeRing off v = s := by
  rw [consumeRing, h]

section

variable (h : s.hub.rings.find? (fun r => r.2.offset == off) = some (id, r))
include h

/-- Consumed to its end, an ended ring closes. -/
theorem consumeRing_closes (hended : r.ended = true) (hall : v = r.produced) :
    s.consumeRing off v = { s with hub := { s.hub with rings := del s.hub.rings id } } := by
  simp [consumeRing, h, hended, hall]

/-- CONSUMED up to PRODUCED, or of an ended ring that it does not close, is stored and no more. -/
theorem consumeRing_stores (hopen : ¬(r.ended = true ∧ v = r.produced)) (hv : v ≤ r.produced ∨ r.ended = true) :
    s.consumeRing off v = s.setRing id { r with consumed := v } := by
  have hrunning : ¬(r.produced < v ∧ r.ended = false) := by
    rcases hv with hle | hended
    · omega
    · simp [hended]
  simp [consumeRing, h, hopen, hrunning]

/-- CONSUMED beyond PRODUCED while the request runs is stored and makes the request invalid. -/
theorem consumeRing_invalidates (hv : r.produced < v) (hrunning : r.ended = false) :
    s.consumeRing off v =
      (s.setRing id { r with consumed := v }).setVat r.clearing ((s.vat r.clearing).invalidate id) := by
  have hopen : ¬((r.ended && v == r.produced) = true) := by simp [hrunning]
  rw [consumeRing, h]
  dsimp only
  rw [if_neg hopen, if_pos (by simp [hv, hrunning])]
  rfl

end

end State

end Sys2Proof.Machine

namespace Sys2Proof.Proofs

open Machine State

/-- Settles O16: a host write of CONSUMED closes the ring, stores the value, or also makes the request invalid. -/
theorem ringConsumedCloses : Obligations.RingConsumedCloses := by
  intro off v s _ hup
  rw [exec_ringConsumedWrite_of_hostUp hup]
  refine ⟨fun h => by rw [consumeRing_of_no_ring h], fun id r h => ⟨_, rfl, ?_⟩⟩
  by_cases hcloses : r.ended = true ∧ v = r.produced
  · obtain ⟨hended, hall⟩ := hcloses
    rw [consumeRing_closes h hended hall]
    exact ⟨fun _ _ => rfl, fun hopen => absurd ⟨hended, hall⟩ hopen, fun _ => rfl,
      fun hv => absurd hall (Nat.ne_of_gt hv), rfl⟩
  by_cases hbeyond : r.produced < v ∧ r.ended = false
  · obtain ⟨hv, hrunning⟩ := hbeyond
    rw [consumeRing_invalidates h hv hrunning]
    refine ⟨fun hended hall => absurd ⟨hended, hall⟩ hcloses,
      fun _ => ⟨look_ins_same .., fun k hk => look_ins_other _ _ hk.symm⟩, fun hstays => ?_,
      fun _ _ => ⟨?_, ?_, fun m hm => clr_setVat_other _ hm⟩, rfl⟩
    · rcases hstays with hle | hended
      · omega
      · simp [hrunning] at hended
    · rw [vat_setVat_same, Vat.invalidate, Req.invalidIf_eq]
    · rw [vat_setVat_same, Vat.invalidate]
      exact List.map_congr_left fun x _ => Seqn.with_invalidIf id x
  · have hstays : v ≤ r.produced ∨ r.ended = true := by
      by_cases hended : r.ended = true
      · exact .inr hended
      · exact .inl (Nat.le_of_not_lt fun hv => hbeyond ⟨hv, by simpa using hended⟩)
    rw [consumeRing_stores h hcloses hstays]
    exact ⟨fun hended hall => absurd ⟨hended, hall⟩ hcloses,
      fun _ => ⟨look_ins_same .., fun k hk => look_ins_other _ _ hk.symm⟩, fun _ => rfl,
      fun hv hrunning => absurd ⟨hv, hrunning⟩ hbeyond, rfl⟩

end Sys2Proof.Proofs
end

section
/-! How a slot that a sweep took ends (17 R371, R372, R376). -/

namespace Sys2Proof.Machine.State

variable {s t : State}

/-! ### Events -/

/-- `t` is `s` but for dictionary, hub SRAM and sessions. -/
def HostPathOnly (s t : State) : Prop := t = { s with dict := t.dict, hub := t.hub, sec := t.sec }

theorem HostPathOnly.trans {u : State} (h : s.HostPathOnly t) (k : t.HostPathOnly u) : s.HostPathOnly u := by
  unfold HostPathOnly at h k ⊢
  rw [k, h]

theorem HostPathOnly.clearings_eq (h : s.HostPathOnly t) : t.clearings = s.clearings := by
  rw [h]

theorem HostPathOnly.clr_eq (h : s.HostPathOnly t) (n : Nat) : t.clr n = s.clr n := by
  rw [clr, clr, h.clearings_eq]

theorem HostPathOnly.live_eq (h : s.HostPathOnly t) : t.live = s.live := by
  rw [h]

/-- A change of running counts followed by one of the host path. -/
theorem HostPathOnly.frame_of_live {k : State} (hk : k = { s with live := k.live }) (h : k.HostPathOnly t) :
    t = { s with dict := t.dict, hub := t.hub, sec := t.sec, live := t.live } := by
  rw [h.live_eq]
  unfold HostPathOnly at h
  rw [hk] at h
  exact h

/-- A change of clearings and hub SRAM followed by one of the host path. -/
theorem HostPathOnly.frame_of_clearings {k : State} (hk : k = { s with clearings := k.clearings, hub := k.hub })
    (h : k.HostPathOnly t) :
    t = { s with clearings := t.clearings, dict := t.dict, hub := t.hub, sec := t.sec } := by
  rw [h.clearings_eq]
  unfold HostPathOnly at h
  rw [hk] at h
  exact h

theorem postFull_hostPathOnly (name : Name) (n slot : Nat) (why : Name) (tag : Nat) (detail : List Byte) :
    s.HostPathOnly (s.postFull name n slot why tag detail) := by
  unfold postFull HostPathOnly
  dsimp only
  split <;> rfl

theorem recordReply_hostPathOnly (num : Nat) (reply : List Byte) (ev : Option Ev) :
    s.HostPathOnly (s.recordReply num reply ev) := by
  unfold recordReply HostPathOnly
  split <;> rfl

theorem postFull_posts (name : Name) (n slot : Nat) (why : Name) (tag : Nat) (detail : List Byte) :
    s.posts (s.postFull name n slot why tag detail) name n why := by
  unfold postFull
  dsimp only
  split <;> exact ⟨_, rfl, rfl, rfl, rfl, rfl, rfl, rfl⟩

@[simp] theorem postFull_taken (name : Name) (n slot : Nat) (why : Name) (tag : Nat) (detail : List Byte) :
    (s.postFull name n slot why tag detail).hub.taken = s.hub.taken := by
  unfold postFull
  dsimp only
  split <;> rfl

@[simp] theorem postFull_rings (name : Name) (n slot : Nat) (why : Name) (tag : Nat) (detail : List Byte) :
    (s.postFull name n slot why tag detail).hub.rings = s.hub.rings := by
  unfold postFull
  dsimp only
  split <;> rfl

@[simp] theorem recordReply_hub (num : Nat) (reply : List Byte) (ev : Option Ev) :
    (s.recordReply num reply ev).hub = s.hub := by
  unfold recordReply
  split <;> rfl

/-! ### Slots -/

@[simp] theorem field_overwrite_zero (b : List Byte) : field (overwrite b 0 (leBytes 1 0)) 0 1 = 0 := by
  simp [field, overwrite, slice, zeros, leBytes, leNat]

@[simp] theorem sstate_setSstate_empty (k : Nat) : (s.setSstate k 0).sstate k = 0 := by
  show field ((look (ins s.hub.slots k (overwrite (s.slotBytes k) 0 (leBytes 1 0))) k).getD []) 0 1 = 0
  rw [look_ins_same, Option.getD_some, field_overwrite_zero]

/-- In `t` the slot of `x` has ended as `s` processed it: with this event, EMPTY, and out of the queue of taken slots. -/
structure EndsSlot (s : State) (x : Taken) (name why : Name) (t : State) : Prop where
  posts : s.posts t name (slotClearing x.bytes) why
  taken : t.hub.taken = s.hub.taken.drop 1
  rings : t.hub.rings = s.hub.rings
  sstate : t.sstate x.slot = 0
  frame : s.HostPathOnly t

theorem slotEvent_hub (x : Taken) (name why : Name) (detail reply : List Byte) (kept : Bool) :
    (s.slotEvent x name why detail reply kept).hub =
      (s.postFull name (slotClearing x.bytes) x.slot why (slotTag x.bytes) detail).hub := by
  unfold slotEvent
  dsimp only
  split
  · exact recordReply_hub ..
  · rfl

theorem slotEvent_hostPathOnly (x : Taken) (name why : Name) (detail reply : List Byte) (kept : Bool) :
    s.HostPathOnly (s.slotEvent x name why detail reply kept) := by
  unfold slotEvent
  dsimp only
  split
  · exact (postFull_hostPathOnly ..).trans (recordReply_hostPathOnly ..)
  · exact postFull_hostPathOnly ..

/-- Whatever leads to it, the event ends the slot that is then EMPTY and taken off the queue. -/
theorem endsSlot_of_event {x : Taken} {name why : Name} {tag : Nat} {detail : List Byte}
    (hhub : t.hub = (s.postFull name (slotClearing x.bytes) x.slot why tag detail).hub) (hframe : s.HostPathOnly t) :
    s.EndsSlot x name why (t.setSstate x.slot 0).popTaken where
  posts := by
    show s.posts t name (slotClearing x.bytes) why
    unfold State.posts
    rw [hhub]
    exact postFull_posts ..
  taken := by
    show t.hub.taken.drop 1 = _
    rw [hhub, postFull_taken]
  rings := by
    show t.hub.rings = _
    rw [hhub, postFull_rings]
  sstate := sstate_setSstate_empty x.slot
  frame := hframe.trans rfl

theorem refuseSlot_endsSlot (x : Taken) (why : Name) (kept : Bool) :
    s.EndsSlot x .slotRefused why (s.refuseSlot x why kept) :=
  endsSlot_of_event (slotEvent_hub x .slotRefused why [] [] kept) ((slotEvent_hostPathOnly ..).trans rfl)

theorem endSlot_endsSlot (x : Taken) (name : Name) (detail : List Byte) :
    s.EndsSlot x name .ok (s.endSlot x name detail) :=
  endsSlot_of_event (slotEvent_hub x name .ok detail [] true) (slotEvent_hostPathOnly ..)

theorem thenNext_of_taken_nil (h : s.hub.taken = []) : s.thenNext = s := by
  simp [thenNext, advance, h]

/-- The slot taken last ends refused, with nothing behind it to process. -/
theorem finishSlot_refused {x : Taken} (hlast : s.hub.taken = [x]) {why : Name} (hwhy : why ≠ .ok) (name : Name)
    (detail : List Byte) : s.EndsSlot x .slotRefused why (s.finishSlot x why name detail) := by
  have hends := s.refuseSlot_endsSlot x why true
  have hnil : (s.refuseSlot x why).hub.taken = [] := by rw [hends.taken, hlast, List.drop_one, List.tail_cons]
  rwa [finishSlot, if_neg (by simpa using hwhy), thenNext_of_taken_nil hnil]

/-- The slot taken last ends accepted, with nothing behind it to process. -/
theorem finishSlot_ok {x : Taken} (hlast : s.hub.taken = [x]) (name : Name) (detail : List Byte) :
    s.EndsSlot x name .ok (s.finishSlot x .ok name detail) := by
  have hends := s.endSlot_endsSlot x name detail
  have hnil : (s.endSlot x name detail).hub.taken = [] := by rw [hends.taken, hlast, List.drop_one, List.tail_cons]
  rwa [finishSlot, if_pos (by simp), thenNext_of_taken_nil hnil]

end Sys2Proof.Machine.State
end

section
/-! What a vat request is refused with, and what it becomes where it is accepted (08 R167, R168, R172, R179). -/

namespace Sys2Proof.Machine.State

variable {s : State} {n : Nat}

/-! ### The checks -/

/-- An unclaimed image of the tag is held, which, where this module judges it, had not expired when the sweep read the
slot (08 R179, R180). -/
def resumable (s : State) (n readAt tag : Nat) : Bool :=
  ((s.vat n).paused.find? fun i => i.tag == tag).any fun i =>
    !(i.claimed || (s.judgesExpiry n && s.rd 0x4C10 1 == 1 && i.expires ≤ readAt))

theorem resumable_iff {readAt tag : Nat} : s.resumable n readAt tag = true ↔
    ∃ i, ((s.vat n).paused.find? fun i => i.tag == tag) = some i ∧ i.claimed = false ∧
      (s.judgesExpiry n = true → s.rd 0x4C10 1 = 1 → readAt < i.expires) := by
  simp [resumable, Option.any_eq_true, Decidable.imp_iff_not_or, or_assoc]

/-- Where the request's ring is placed; one that asks for none needs no place (17 R369). -/
def ringPlace (s : State) (q : Req) : Option Nat :=
  if q.toRing then poolAlloc s.hub (64 + 16 * q.ringEntries) else some 0

/-- The ring that a request of clearing `n` is given at its place, empty. -/
def newRing (n : Nat) (q : Req) (off : Nat) : Ring :=
  { clearing := n, reqTag := q.tag, offset := off, entries := q.ringEntries, produced := 0, consumed := 0, ended := false,
    status := 0, stopIndex := 0xFF, notify := q.notify, data := [] }

/-- The request as it joins the acceptance order: its ring numbered, its prompt blocks hashed, the tokens of the image it
resumes before it. -/
def acceptedReq (s : State) (n : Nat) (q : Req) : Req :=
  { q with
    ring := if q.toRing then some s.hub.ringNext else none
    hashes := blockHashes n (s.rd (0x6040 + n) 4) (q.prompt.length / 256) [] q.prompt
    resumed := match (s.vat n).paused.find? fun i => i.tag == q.resumeTag with
      | some i => if q.resumeTag == 0 then [] else s.imageTokens n i
      | none => []
    epochs := if q.deadline == 0 then [] else (s.clr n).floorEpochs }

/-- The images with those of a tag claimed; tag 0 resumes none. -/
def claimImages (tag : Nat) (l : List Paused) : List Paused :=
  l.map fun i => if tag != 0 && i.tag == tag then { i with claimed := true } else i

/-- The state with a request's ring, if it asks for one. -/
def withRing (s : State) (n : Nat) (q : Req) (off : Nat) : State :=
  if q.toRing then
    { s with hub := { s.hub with
      rings := ins s.hub.rings s.hub.ringNext (newRing n q off), ringNext := s.hub.ringNext + 1 } }
  else s

/-- The state in which a request is accepted. -/
def accept (s : State) (n : Nat) (q : Req) (off : Nat) : State :=
  (s.withRing n q off).setVat n { s.vat n with
    waiting := (s.vat n).waiting ++ [s.acceptedReq n q], paused := claimImages q.resumeTag (s.vat n).paused }

variable {slot tag readAt : Nat} {b : List Byte} {p : PlanClearing}

theorem acceptRequest_of_planOf_none (hp : s.planOf n = none) :
    s.acceptRequest n slot tag readAt b = .error .reqInvalid := by
  rw [acceptRequest, hp]

/-- The checks of 08 R168 in their order. -/
theorem acceptRequest_of_planOf {q : Req} (hp : s.planOf n = some p) (hq : parseReq b slot tag = q) :
    s.acceptRequest n slot tag readAt b =
      if s.clearState n ≠ 3 ∨ p.role = 1 then .error .reqInvalid
      else if requestReserved b = true then .error .reservedSet
      else if s.requestBad n p b = true then .error .reqInvalid
      else if q.deadline ≠ 0 ∧ q.deadline ≤ s.time then .error .deadlineMissed
      else if s.deadlineFits n p q = false then .error .deadlineUnreachable
      else if q.resumeTag ≠ 0 ∧ s.resumable n readAt q.resumeTag = false then .error .pauseExpired
      else match s.ringPlace q with
        | none => .error .ringShort
        | some off => .ok (s.accept n q off, off) := by
  subst hq
  unfold acceptRequest
  rw [hp]
  refine ite_congr (by simp) (fun _ => rfl) fun _ => ite_congr rfl (fun _ => rfl) fun _ =>
    ite_congr rfl (fun _ => rfl) fun _ => ite_congr (by simp) (fun _ => rfl) fun _ =>
    ite_congr (by simp) (fun _ => rfl) fun _ => ite_congr ?resume (fun _ => rfl) fun _ => ?rest
  case resume =>
    rw [resumable]
    cases (s.vat n).paused.find? fun i => i.tag == (parseReq b slot tag).resumeTag with
    | none => simp
    | some i => cases hclaimed : i.claimed <;> simp [hclaimed]
  case rest =>
    unfold ringPlace accept withRing acceptedReq
    cases (parseReq b slot tag).toRing with
    | false => rfl
    | true => cases poolAlloc s.hub (64 + 16 * (parseReq b slot tag).ringEntries) <;> rfl

/-! ### What acceptance changes -/

@[simp] theorem claimImages_zero (l : List Paused) : claimImages 0 l = l := by
  simp [claimImages]

theorem claimed_of_mem_claimImages {l : List Paused} {tag : Nat} (htag : tag ≠ 0) {j : Paused}
    (hmem : j ∈ claimImages tag l) (hj : j.tag = tag) : j.claimed = true := by
  obtain ⟨i, -, rfl⟩ := List.mem_map.mp hmem
  by_cases hi : i.tag = tag
  · simp [hi, htag]
  · simp [hi] at hj

theorem acceptedReq_resumed_of_resumeTag_zero {q : Req} (h : q.resumeTag = 0) : (s.acceptedReq n q).resumed = [] := by
  simp only [acceptedReq, h]
  split <;> rfl

theorem acceptedReq_resumed_of_image {q : Req} {i : Paused} (htag : q.resumeTag ≠ 0)
    (hi : ((s.vat n).paused.find? fun i => i.tag == q.resumeTag) = some i) :
    (s.acceptedReq n q).resumed = s.imageTokens n i := by
  simp [acceptedReq, hi, htag]

theorem withRing_frame (q : Req) (off : Nat) : s.withRing n q off = { s with hub := (s.withRing n q off).hub } := by
  unfold withRing
  split <;> rfl

theorem taken_withRing (q : Req) (off : Nat) : (s.withRing n q off).hub.taken = s.hub.taken := by
  unfold withRing
  split <;> rfl

theorem look_withRing {q : Req} (h : q.toRing = true) (off : Nat) :
    look (s.withRing n q off).hub.rings s.hub.ringNext = some (newRing n q off) := by
  rw [withRing, if_pos h]
  exact look_ins_same ..

theorem accept_hub (q : Req) (off : Nat) : (s.accept n q off).hub = (s.withRing n q off).hub := rfl

theorem accept_frame (q : Req) (off : Nat) : s.accept n q off =
    { s with clearings := (s.accept n q off).clearings, hub := (s.accept n q off).hub } := by
  rw [accept_hub]
  unfold accept
  rw [withRing_frame]
  rfl

theorem vat_accept (q : Req) (off : Nat) : (s.accept n q off).vat n = { s.vat n with
    waiting := (s.vat n).waiting ++ [s.acceptedReq n q], paused := claimImages q.resumeTag (s.vat n).paused } :=
  vat_setVat_same ..

theorem clr_accept_other {m : Nat} (hm : m ≠ n) (q : Req) (off : Nat) : (s.accept n q off).clr m = s.clr m := by
  rw [accept, clr_setVat_other _ hm, withRing_frame]
  rfl

/-! ### The command -/

/-- An unreachable deadline is counted in DEADLINE_REFUSED, another refusal in nothing (12 R271). -/
def countRefused (s : State) (n : Nat) (why : Name) : State :=
  if why == .deadlineUnreachable then s.bumpLive 0x6026 n 1 else s

theorem countRefused_frame (why : Name) : s.countRefused n why = { s with live := (s.countRefused n why).live } := by
  unfold countRefused
  split <;> rfl

@[simp] theorem countRefused_hub (why : Name) : (s.countRefused n why).hub = s.hub := by rw [countRefused_frame]

@[simp] theorem countRefused_time (why : Name) : (s.countRefused n why).time = s.time := by rw [countRefused_frame]

theorem countRefused_live (why : Name) : (s.countRefused n why).live =
    if why = .deadlineUnreachable then (s.bumpLive 0x6026 n 1).live else s.live := by
  rw [countRefused, apply_ite State.live]
  simp only [beq_iff_eq]

/-- `x` is the vat request in the slot processed now, the last that the sweep took. -/
structure AtLastRequest (s : State) (slot : Nat) (x : Taken) : Prop where
  mode : s.power.mode ≠ .off
  wf : wfSlot slot = true
  taken : s.hub.taken = [x]
  checked : x.checked = true
  slot_eq : x.slot = slot
  kind : slotKind x.bytes = 2

section

variable {x : Taken} (h : s.AtLastRequest slot x)
include h

theorem AtLastRequest.current_eq : s.current slot 2 = some x := by
  simp [current, h.taken, h.checked, h.slot_eq, h.kind]

theorem AtLastRequest.on : s.on = true := by
  simp [State.on, h.mode]

theorem exec_vatRequest_refused {why : Name}
    (hacc : s.acceptRequest (slotClearing x.bytes) slot (slotTag x.bytes) x.readAt (slotPayload x.bytes) = .error why) :
    exec (.vatRequest slot) s =
      .next ((s.countRefused (slotClearing x.bytes) why).finishSlot x why .reqAccepted []) := by
  show execVatRequest slot s = _
  simp only [execVatRequest, inRange, h.wf, whenOn_of_on h.on, h.current_eq, hacc, if_true, countRefused]

theorem exec_vatRequest_accepted {k : State} {off : Nat}
    (hacc : s.acceptRequest (slotClearing x.bytes) slot (slotTag x.bytes) x.readAt (slotPayload x.bytes) = .ok (k, off)) :
    exec (.vatRequest slot) s = .next (k.finishSlot x .ok .reqAccepted (leBytes 8 off)) := by
  show execVatRequest slot s = _
  simp only [execVatRequest, inRange, h.wf, whenOn_of_on h.on, h.current_eq, hacc, if_true]

/-- A refused request ends its slot, and only an unreachable deadline is counted (12 R271). -/
theorem vatRequest_refused {why : Name} (hwhy : why ≠ .ok)
    (hacc : s.acceptRequest (slotClearing x.bytes) slot (slotTag x.bytes) x.readAt (slotPayload x.bytes) = .error why) :
    ∃ t : State, exec (.vatRequest slot) s = .next t ∧ s.posts t .slotRefused (slotClearing x.bytes) why ∧
      t.hub.taken = [] ∧ t.sstate slot = 0 ∧
      t.live = (if why = .deadlineUnreachable then (s.bumpLive 0x6026 (slotClearing x.bytes) 1).live else s.live) ∧
      t = { s with dict := t.dict, hub := t.hub, sec := t.sec, live := t.live } := by
  have hlast : (s.countRefused (slotClearing x.bytes) why).hub.taken = [x] := by
    rw [countRefused_hub, h.taken]
  obtain ⟨hposts, htaken, -, hslot, hhost⟩ := finishSlot_refused hlast hwhy .reqAccepted []
  rw [h.slot_eq] at hslot
  rw [hlast] at htaken
  refine ⟨_, exec_vatRequest_refused h hacc, ?_, htaken, hslot, hhost.live_eq.trans (countRefused_live why),
    hhost.frame_of_live (countRefused_frame why)⟩
  simpa only [State.posts, countRefused_hub, countRefused_time] using hposts

/-- An accepted request ends its slot in the state that `accept` gives. -/
theorem vatRequest_accepted {q : Req} {off : Nat}
    (hacc : s.acceptRequest (slotClearing x.bytes) slot (slotTag x.bytes) x.readAt (slotPayload x.bytes) =
      .ok (s.accept n q off, off)) :
    ∃ t : State, exec (.vatRequest slot) s = .next t ∧ (s.accept n q off).EndsSlot x .reqAccepted .ok t := by
  have hlast : (s.accept n q off).hub.taken = [x] := by rw [accept_hub, taken_withRing, h.taken]
  exact ⟨_, exec_vatRequest_accepted h hacc, finishSlot_ok hlast .reqAccepted (leBytes 8 off)⟩

end

end Sys2Proof.Machine.State

namespace Sys2Proof.Proofs

open Machine State

/-- Settles O35: `acceptRequest_of_planOf` gives the checks in their order, each clause takes its own, and what is left
where all pass is `accept`, which `vatRequest_accepted` carries through the end of the slot. -/
theorem vatRequestAcceptance : Obligations.VatRequestAcceptance := by
  intro slot x s hmode hwf htaken hchecked hslot hkind n b q img resumes refused
  have h : s.AtLastRequest slot x := ⟨hmode, hwf, htaken, hchecked, hslot, hkind⟩
  have hrefused {why : Name} (hacc : s.acceptRequest n slot (slotTag x.bytes) x.readAt b = .error why)
      (hwhy : why ≠ .ok) : refused why := vatRequest_refused h hwhy hacc
  refine ⟨fun hp => hrefused (acceptRequest_of_planOf_none hp) (by decide), fun p hp => ?_⟩
  have hacc : s.acceptRequest n slot (slotTag x.bytes) x.readAt b = _ := acceptRequest_of_planOf (q := q) hp rfl
  refine ⟨fun hno => hrefused (hacc.trans (if_pos hno)) (by decide), fun hstate hrole => ?_⟩
  rw [if_neg (by simp [hstate, hrole])] at hacc
  refine ⟨fun hres => hrefused (hacc.trans (if_pos hres)) (by decide), fun hres hbad => ?_, fun hres hbad => ?_⟩
  all_goals rw [if_neg (by simp [hres])] at hacc
  · exact hrefused (hacc.trans (if_pos hbad)) (by decide)
  rw [if_neg (by simp [hbad])] at hacc
  refine ⟨fun hset hmissed => hrefused (hacc.trans (if_pos ⟨hset, hmissed⟩)) (by decide), fun htime => ?_⟩
  rw [if_neg (by omega)] at hacc
  refine ⟨fun hlate => hrefused (hacc.trans (if_pos hlate)) (by decide), fun hfits => ?_⟩
  rw [if_neg (by simp [hfits])] at hacc
  have hresumes : s.resumable n x.readAt q.resumeTag = true ↔ resumes := resumable_iff
  rw [← hresumes]
  refine ⟨fun hset hgone => hrefused (hacc.trans (if_pos ⟨hset, by simpa using hgone⟩)) (by decide), fun himg => ?_⟩
  have hkept : ¬(q.resumeTag ≠ 0 ∧ s.resumable n x.readAt q.resumeTag = false) := by
    rcases himg with hnone | hheld
    · simp [hnone]
    · simp [hheld]
  rw [if_neg hkept] at hacc
  refine ⟨fun hring hshort => ?_, fun off hoff => ?_⟩
  · rw [ringPlace, if_pos hring, hshort] at hacc
    exact hrefused hacc (by decide)
  · have hplace : s.ringPlace q = some off := hoff
    rw [hplace] at hacc
    obtain ⟨t, hnext, hends⟩ := vatRequest_accepted h hacc
    have hvat : t.vat n = _ := (congrArg Clearing.vat (hends.frame.clr_eq n)).trans (vat_accept q off)
    obtain ⟨e, hhead, hname, hclearing, -⟩ := hends.posts
    refine ⟨t, s.acceptedReq n q, hnext, by rw [hvat], rfl, rfl, ?_, rfl, fun hnone => ?_, fun i hset hi => ?_,
      fun hring => ?_, fun m hm => ?_, ⟨e, hhead, hname, hclearing⟩, hslot ▸ hends.sstate, ?_⟩
    · simp [acceptedReq]
    · exact ⟨acceptedReq_resumed_of_resumeTag_zero hnone, by rw [hvat, hnone, claimImages_zero]⟩
    · rw [hvat]
      exact ⟨acceptedReq_resumed_of_image hset hi, fun j hj hjtag => claimed_of_mem_claimImages hset hj hjtag⟩
    · rw [hends.rings, accept_hub]
      exact ⟨_, look_withRing hring off, rfl, rfl, rfl, rfl, rfl, rfl, rfl⟩
    · rw [hends.frame.clr_eq, clr_accept_other hm]
    · exact hends.frame.frame_of_clearings (accept_frame q off)

end Sys2Proof.Proofs
end

section
/-! A clearing's command: which writes of CLEAR_CMD are refused, and what an accepted one leaves (12 R255, R257; 17 R359). -/

namespace Sys2Proof.Machine

/-- The index of CLEAR_CMD of clearing `n` (12 R255). -/
abbrev clearCmdIdx (n : Nat) : Nat := 0x200F + 16 * n

/-- A row that is clearing `n`'s CLEAR_CMD: the manager writes 1, 2 or 3. -/
structure Entry.OfClearCmd (row : Entry) (n : Nat) : Prop where
  acc : row.acc = .wm
  ty : row.ty = .enum8
  rng : row.rng = .codes [1, 2, 3]
  clearing : row.clearing (clearCmdIdx n) 1 = some n

theorem exists_clearCmdRow {n : Nat} (hn : n < 64) :
    ∃ row, entryAt (clearCmdIdx n) 1 = some row ∧ row.OfClearCmd n := by
  have hrules : ∀ n < 64, (entryAt (clearCmdIdx n) 1).map (fun r => (r.acc, r.ty, r.rng)) =
      some (.wm, .enum8, .codes [1, 2, 3]) := by decide +kernel
  have howner : ∀ n < 64, ((entryAt (clearCmdIdx n) 1).bind fun r => r.clearing (clearCmdIdx n) 1) = some n := by
    decide +kernel
  obtain ⟨row, hrow, hrule⟩ := Option.map_eq_some_iff.mp (hrules n hn)
  have hclearing := howner n hn
  simp only [Prod.mk.injEq] at hrule
  obtain ⟨hacc, hty, hrng⟩ := hrule
  rw [hrow, Option.bind_some] at hclearing
  exact ⟨row, hrow, hacc, hty, hrng, hclearing⟩

theorem wfClearing_iff {n : Nat} : wfClearing n = true ↔ n < 64 := decide_eq_true_iff

theorem firstBad_cons_of_bad {bad : Bool} {name : Name} {l : List (Bool × Name)} (h : bad = true) :
    firstBad ((bad, name) :: l) = name := if_pos h

theorem firstBad_cons_of_good {bad : Bool} {name : Name} {l : List (Bool × Name)} (h : bad = false) :
    firstBad ((bad, name) :: l) = firstBad l := if_neg (by simp [h])

/-- A check whose status is a refusal has not failed where the checks answer OK. -/
theorem good_of_firstBad_cons {bad : Bool} {name : Name} {l : List (Bool × Name)}
    (h : firstBad ((bad, name) :: l) = .ok) (hname : name ≠ .ok) : bad = false := by
  cases bad with
  | false => rfl
  | true => exact absurd ((firstBad_cons_of_bad rfl).symm.trans h) hname

namespace State

variable {s t k : State} {sess n : Nat}

/-- What a CLEAR_CMD asks for by its code (12 R257, R259, R260). -/
def clearCmd (s : State) (n x : Nat) : Except Name State :=
  match x with
  | 1 => s.createCmd n
  | 2 => s.resizeCmd n
  | _ => s.destroyCmd n

/-- A RESIZE is accepted where none of its checks fails (12 R259). -/
theorem clearCmd_resize_of_ok (h : firstBad ([(s.busy n, Name.clearingBusy), (!s.exists? n, .clearingAbsent)] ++
    s.assignChecks n ++ [(s.clearState n == 3 && s.removesCells n, .clearingInUse)]) = .ok) :
    s.clearCmd n 2 = .ok (s.acceptResize n) := by
  show s.resizeCmd n = _
  rw [resizeCmd, h]
  rfl

theorem writeBlock_clearCmd (x : Nat) : s.writeBlock t (clearCmdIdx n) 1 x =
    s.answerCmd (clearCmdIdx n) 1 x (s.clearCmd n x) := by
  have hcol : (0x200F + 16 * n) % 16 = 0xF := by omega
  have hrow : (0x200F + 16 * n - 0x2000) / 16 = n := by omega
  simp only [writeBlock, clearCmdIdx, hcol, hrow]
  rfl

section

variable {row : Entry} {x : Byte} (hn : n < 64) (hrow : entryAt (clearCmdIdx n) 1 = some row) (hcmd : row.OfClearCmd n)
  (hx : x ∈ [(1 : Byte), 2, 3])

include hn

theorem clearCmdIdx_le : clearCmdIdx n ≤ 0x327F := by
  simp only [clearCmdIdx]; omega

theorem not_le_clearCmdIdx {lo : Nat} (hlo : 0x2400 ≤ lo) : ¬lo ≤ clearCmdIdx n := by
  simp only [clearCmdIdx]; omega

include hrow hcmd hx

theorem checkForm_clearCmd : s.checkForm .manager false (clearCmdIdx n) 1 [x] .any = .ok := by
  have hle := clearCmdIdx_le hn
  have hlow {lo : Nat} (hlo : 0x2400 ≤ lo) := not_le_clearCmdIdx hn hlo
  have hne : clearCmdIdx n ≠ 0x8002 := by omega
  have hcode : leNat [x] ∈ [1, 2, 3] := by
    simp only [List.mem_cons, List.not_mem_nil, or_false] at hx
    rcases hx with rfl | rfl | rfl <;> decide
  simp only [List.mem_cons, List.not_mem_nil, or_false] at hcode
  simp [checkForm, hrow, firstBad, mayWrite, absentInput, arbKind_of_le hle, kindBad, hcmd.acc, lengthBad, hcmd.ty,
    Ty.width, reservedBad, hcmd.rng, hcode, hlow, hne, rangeBad]

variable (hrole : s.roleOf sess = some .manager)
include hrole

/-- A CLEAR_CMD of a clearing that is created or destroyed is refused by its state (18 R387). -/
theorem applyWrite_clearCmd_busy (hbusy : s.clearState n = 1 ∨ s.clearState n = 4) :
    s.applyWrite sess (clearCmdIdx n) 1 [x] .any = (.clearingBusy, s) := by
  have hlow {lo : Nat} (hlo : 0x2400 ≤ lo) := not_le_clearCmdIdx hn hlo
  have hno : isIdentity (clearCmdIdx n) 1 = false := by simp [isIdentity]
  have hform := checkForm_clearCmd (s := s) hn hrow hcmd hx
  simp [applyWrite, writeWith, hrole, writeAs, hrow, hform, effect, stateRefusal, hcmd.clearing, hcmd.acc, hlow, hno,
    firstBad, hbusy]

/-- Any other is answered by its own checks; an accepted one settles a clearing that is IDLE (12 R255). -/
theorem applyWrite_clearCmd (hfree : ¬(s.clearState n = 1 ∨ s.clearState n = 4)) :
    s.applyWrite sess (clearCmdIdx n) 1 [x] .any =
      let r := s.answerCmd (clearCmdIdx n) 1 (leNat [x]) (s.clearCmd n (leNat [x]))
      if r.1 = .ok then (.ok, r.2.settle n) else r := by
  have hlow {lo : Nat} (hlo : 0x2400 ≤ lo) := not_le_clearCmdIdx hn hlo
  have hlt : clearCmdIdx n < 0x2400 := Nat.lt_of_not_le (hlow (Nat.le_refl _))
  have hno : isIdentity (clearCmdIdx n) 1 = false := by simp [isIdentity]
  have hform := checkForm_clearCmd (s := s) hn hrow hcmd hx
  simp [applyWrite, writeWith, hrole, writeAs, hrow, hform, effect, stateRefusal, hcmd.clearing, hcmd.acc, hlow, hno,
    firstBad, hfree, writeClearing, hlt, writeBlock_clearCmd]

end

/-- The command as a whole: a refusal changes nothing, an accepted one lets its session's time begin anew (19 R408). -/
structure ClearCmdOutcome (s : State) (sess n x : Nat) (t : State) : Prop where
  refused : ∀ why, s.clearCmd n x = .error why → why ≠ .ok → (s.busy n = true → why = .clearingBusy) →
    t = s.emit (.status why)
  accepted : ∀ k, s.clearCmd n x = .ok k → s.busy n = false →
    t = (((k.wr (clearCmdIdx n) 1 x).settle n).touch sess).emit (.status .ok)

theorem busy_of_clearState (h : s.clearState n = 1 ∨ s.clearState n = 4) : s.busy n = true := by
  rcases h with h | h <;> simp [busy, h]

theorem clearCmdOutcome_command (hn : n < 64) {x : Byte} (hx : x ∈ [(1 : Byte), 2, 3]) (hreach : s.reachable = true)
    (hrole : s.roleOf sess = some .manager) :
    s.ClearCmdOutcome sess n (leNat [x]) (s.command sess (clearCmdIdx n) 1 [x]) := by
  obtain ⟨row, hrow, hcmd⟩ := exists_clearCmdRow hn
  by_cases hstate : s.clearState n = 1 ∨ s.clearState n = 4
  · have hbusy := busy_of_clearState hstate
    have hwrite := applyWrite_clearCmd_busy hn hrow hcmd hx hrole hstate
    refine ⟨fun why _ _ hwhy => ?_, fun k _ hfree => ?_⟩
    · rw [hwhy hbusy, command_of_applyWrite hreach hwrite]
      rfl
    · simp [hbusy] at hfree
  · have hwrite := applyWrite_clearCmd hn hrow hcmd hx hrole hstate
    refine ⟨fun why hr hwhy _ => ?_, fun k hr _ => ?_⟩
    · rw [hr] at hwrite
      rw [command_of_applyWrite hreach (hwrite.trans (if_neg hwhy)), if_neg (by simpa using hwhy)]
    · rw [hr] at hwrite
      rw [command_of_applyWrite hreach (hwrite.trans (if_pos rfl))]
      rfl

section

variable (hn : n < 64) (hreach : s.reachable = true) (hrole : s.roleOf sess = some .manager)
include hn hreach hrole

theorem exec_create : ∃ t, exec (.create sess n) s = .next t ∧ s.ClearCmdOutcome sess n 1 t :=
  ⟨_, inRange_of_on (wfClearing_iff.mpr hn) (on_of_reachable hreach),
    clearCmdOutcome_command hn (x := 1) (by simp) hreach hrole⟩

theorem exec_resize : ∃ t, exec (.resize sess n) s = .next t ∧ s.ClearCmdOutcome sess n 2 t :=
  ⟨_, inRange_of_on (wfClearing_iff.mpr hn) (on_of_reachable hreach),
    clearCmdOutcome_command hn (x := 2) (by simp) hreach hrole⟩

end

end State

end Sys2Proof.Machine
end

section
/-! Why the RESIZE clause on an ACTIVE clearing's memory fails (12 R259, R276): CLEARING_IN_USE guards the cells of the cell
map and of the claim map in force, and an accepted RESIZE gives up every claim that the new claim map does not name. A cell
held by a claim that the claim map in force does not name either is given up unguarded, and its granules are zeroed. -/

namespace Sys2Proof.Proofs

open Machine State

/-- A manager's open session 1. -/
def managerSession : Session :=
  { num := 1, role := .manager, sk := [], counter := 0, lastReq := [], lastReply := [], lastEv := none, lastAt := 0,
    evSelect := 0, nonce := [] }

/-- Clearing 0 is ACTIVE with empty cell and claim maps and holds cell 0 of grove 0 by a claim. It owns the cell's first
scratchpad granule, whose first byte is 1. -/
def claimOffMap : State :=
  { power := { mode := .run }
    sec := { sessions := [managerSession] }
    dict := [(keyOf 0x2000 1, 3)]
    mem := [(0, 1)]
    cells := [(0, { scratchOwn := [(0, 0)], claimed := some 0 })] }

/-- What RESIZE checks of clearing 0: no check fails, CLEARING_IN_USE among them. -/
theorem resizeChecks_claimOffMap :
    firstBad ([(claimOffMap.busy 0, Name.clearingBusy), (!claimOffMap.exists? 0, .clearingAbsent)] ++
      claimOffMap.assignChecks 0 ++
      [(claimOffMap.clearState 0 == 3 && claimOffMap.removesCells 0, .clearingInUse)]) = .ok := by
  decide +kernel

/-- No granule lies in a spill slot. -/
theorem spilled_claimOffMap (g c : Nat) : claimOffMap.spilled 0 g c = false := by
  have hparked : (claimOffMap.cell g c).parked = [] := by
    simp only [cell, claimOffMap, look]
    split
    · rfl
    · split <;> rfl
  have hout : claimOffMap.spilledOut g c = false := rfl
  simp only [spilled, hparked, hout, List.any_nil, Bool.or_self]

/-- The resize zeroes the granule of the cell it gives up. -/
theorem mem_resized_claimOffMap :
    (((claimOffMap.acceptResize 0).wr (clearCmdIdx 0) 1 2).settle 0).mem = [] := by
  decide +kernel

theorem touch_mem (s : State) (sess : Nat) : (s.touch sess).mem = s.mem := by
  unfold touch
  split <;> rfl

theorem exec_resize_claimOffMap : ∃ t, exec (.resize 1 0) claimOffMap = .next t ∧ t.mem = [] := by
  obtain ⟨t, hnext, houtcome⟩ := exec_resize (s := claimOffMap) (sess := 1) (n := 0) (by decide) (by decide) (by decide)
  have hcmd : claimOffMap.clearCmd 0 2 = .ok (claimOffMap.acceptResize 0) :=
    clearCmd_resize_of_ok resizeChecks_claimOffMap
  refine ⟨t, hnext, ?_⟩
  rw [houtcome.accepted _ hcmd (by decide), emit_mem, touch_mem, mem_resized_claimOffMap]

/-- Refutes O44: the RESIZE of `claimOffMap` is accepted, none of its granules is spilled, and yet memory changes. The
clause says nothing of cells that an ACTIVE clearing holds by a claim outside its claim map in force. -/
theorem not_clearingsChangeAndEnd : ¬ Obligations.ClearingsChangeAndEnd := by
  intro h
  obtain ⟨hmanager, -⟩ := h 1 0 claimOffMap (by decide)
  obtain ⟨-, hresize, -⟩ := hmanager (by decide) (by decide)
  obtain ⟨t, hnext, -, -, -, hactive, -⟩ := hresize resizeChecks_claimOffMap
  obtain ⟨-, -, hmem⟩ := hactive (by decide)
  obtain ⟨u, hnext', hzero⟩ := exec_resize_claimOffMap
  obtain rfl : t = u := Host.Outcome.next.inj (hnext.symm.trans hnext')
  exact absurd (hzero.symm.trans (hmem spilled_claimOffMap)) (by decide)

end Sys2Proof.Proofs
end

section
/-! The cells a clearing joins, and the granules it is given there (12 R258, R261; 03 R55). -/

namespace Sys2Proof.Machine

/-- An ownership map `b` that is `a` with free granules given to clearing `n`. -/
def OwnGains (n : Nat) (a b : Map Nat) : Prop :=
  (∀ i m, look a i = some m → look b i = some m) ∧ ∀ i m, look a i = none → look b i = some m → m = n

theorem OwnGains.refl (n : Nat) (a : Map Nat) : OwnGains n a a :=
  ⟨fun _ _ h => h, fun _ _ hnone hsome => by simp [hnone] at hsome⟩

theorem OwnGains.trans {n : Nat} {a b c : Map Nat} (h : OwnGains n a b) (k : OwnGains n b c) : OwnGains n a c := by
  obtain ⟨hkept, hnew⟩ := h
  obtain ⟨kkept, knew⟩ := k
  refine ⟨fun i m hi => kkept i m (hkept i m hi), fun i m hi hm => ?_⟩
  cases hb : look b i with
  | none => exact knew i m hb hm
  | some m' =>
    obtain rfl : m' = m := Option.some.inj ((kkept i m' hb).symm.trans hm)
    exact hnew i m' hi hb

theorem look_foldl_ins (n j : Nat) (l : List Nat) (a : Map Nat) :
    look (l.foldl (fun m i => ins m i n) a) j = if j ∈ l then some n else look a j := by
  induction l generalizing a with
  | nil => simp
  | cons i l ih =>
    rw [List.foldl_cons, ih, look_ins]
    by_cases hj : j ∈ l <;> by_cases hi : i = j <;> simp [hj, hi, eq_comm (a := j)]

theorem ownGains_foldl_ins {n : Nat} {a : Map Nat} {l : List Nat} (hfree : ∀ i ∈ l, look a i = none) :
    OwnGains n a (l.foldl (fun m i => ins m i n) a) := by
  refine ⟨fun i m hi => ?_, fun i m hi hm => ?_⟩
  · rw [look_foldl_ins, if_neg, hi]
    intro hmem
    simp [hfree i hmem] at hi
  · rw [look_foldl_ins] at hm
    split at hm
    · exact (Option.some.inj hm).symm
    · simp [hi] at hm

/-- Clearing `n` has a place in the cell's rings. -/
def Cell.InRing (x : Cell) (n : Nat) : Prop := ∃ y ∈ x.ring, y.clearing = n

/-- The cell `y` is `x` with clearing `n` in its rings or not, and with free granules given to it. -/
structure Cell.Gains (n : Nat) (x y : Cell) : Prop where
  slots : y.slots = x.slots
  scratch : OwnGains n x.scratchOwn y.scratchOwn
  side : OwnGains n x.sideOwn y.sideOwn
  ring : x.InRing n → y.InRing n

theorem Cell.Gains.refl (n : Nat) (x : Cell) : x.Gains n x := ⟨rfl, .refl .., .refl .., id⟩

theorem Cell.Gains.trans {n : Nat} {x y z : Cell} (h : x.Gains n y) (k : y.Gains n z) : x.Gains n z :=
  ⟨k.slots.trans h.slots, h.scratch.trans k.scratch, h.side.trans k.side, k.ring ∘ h.ring⟩

/-- The number of a cell on the module. -/
def cellKey (p : Nat × Nat) : Nat := p.1 * 256 + p.2

namespace State

variable {s t u : State} {n g c : Nat} {l : List (Nat × Nat)}

theorem cell_setCell (x : Cell) (g' c' : Nat) :
    (s.setCell g c x).cell g' c' = if g * 256 + c = g' * 256 + c' then x else s.cell g' c' := by
  simp only [cell, setCell_cells, look_ins]
  split <;> rfl

/-- `t` is `s` but for cells of `l`, each of which may have gained clearing `n` and granules for it. -/
structure CellsGain (n : Nat) (l : List (Nat × Nat)) (s t : State) : Prop where
  frame : t = { s with cells := t.cells }
  outside : ∀ g c, g * 256 + c ∉ l.map cellKey → t.cell g c = s.cell g c
  gains : ∀ g c, (s.cell g c).Gains n (t.cell g c)

namespace CellsGain

theorem refl (n : Nat) (l : List (Nat × Nat)) (s : State) : CellsGain n l s s :=
  ⟨rfl, fun _ _ _ => rfl, fun _ _ => .refl ..⟩

theorem trans (h : CellsGain n l s t) (k : CellsGain n l t u) : CellsGain n l s u where
  frame := by rw [k.frame, h.frame]
  outside g c hout := (k.outside g c hout).trans (h.outside g c hout)
  gains g c := (h.gains g c).trans (k.gains g c)

theorem mono {l' : List (Nat × Nat)} (h : CellsGain n l s t) (hsub : l ⊆ l') : CellsGain n l' s t where
  frame := h.frame
  outside g c hout := h.outside g c fun hmem => hout (List.map_subset cellKey hsub hmem)
  gains := h.gains

theorem dict_eq (h : CellsGain n l s t) : t.dict = s.dict := by rw [h.frame]

theorem foldl {f : State → Nat × Nat → State} (hf : ∀ s p, CellsGain n [p] s (f s p)) (l : List (Nat × Nat))
    (s : State) : CellsGain n l s (l.foldl f s) := by
  induction l generalizing s with
  | nil => exact .refl ..
  | cons p l ih => exact ((hf s p).mono (by simp)).trans ((ih (f s p)).mono (by simp))

end CellsGain

theorem cellsGain_setCell {x : Cell} (h : (s.cell g c).Gains n x) : CellsGain n [(g, c)] s (s.setCell g c x) where
  frame := rfl
  outside g' c' hout := by
    rw [cell_setCell, if_neg]
    simpa [cellKey, eq_comm] using hout
  gains g' c' := by
    rw [cell_setCell]
    split
    next hkey =>
      have hsame : s.cell g c = s.cell g' c' := by simp only [cell, hkey]
      exact hsame ▸ h
    · exact .refl ..

theorem mem_ringPut (l : List RingPlace) (x : RingPlace) : x ∈ ringPut l x := by
  simp [ringPut]

theorem joinCell_cellsGain (s : State) (n g c : Nat) : CellsGain n [(g, c)] s (s.joinCell n g c) := by
  unfold joinCell
  dsimp only
  split
  · exact .refl ..
  split
  · exact cellsGain_setCell ⟨rfl, .refl .., .refl .., fun _ => ⟨_, List.mem_singleton_self _, rfl⟩⟩
  · exact cellsGain_setCell ⟨rfl, .refl .., .refl .., fun _ => ⟨_, mem_ringPut .., rfl⟩⟩

theorem inRing_joinCell (s : State) (n g c : Nat) : ((s.joinCell n g c).cell g c).InRing n := by
  unfold joinCell
  dsimp only
  split
  next hin =>
    obtain ⟨y, hy, hn⟩ := List.any_eq_true.mp hin
    exact ⟨y, hy, beq_iff_eq.mp hn⟩
  split
  · rw [cell_setCell, if_pos rfl]
    exact ⟨_, List.mem_singleton_self _, rfl⟩
  · rw [cell_setCell, if_pos rfl]
    exact ⟨_, mem_ringPut .., rfl⟩

theorem assignGranules_cellsGain (s : State) (n g c : Nat) : CellsGain n [(g, c)] s (s.assignGranules n g c) := by
  have hscratch (k : Nat) : ∀ i ∈ (freeScratch (s.cell g c)).take k, look (s.cell g c).scratchOwn i = none := by
    intro i hi
    simpa [freeScratch] using (List.mem_filter.mp (List.mem_of_mem_take hi)).2
  have hside (k : Nat) : ∀ i ∈ (freeSide (s.cell g c)).take k, look (s.cell g c).sideOwn i = none := by
    intro i hi
    simpa [freeSide] using (List.mem_filter.mp (List.mem_of_mem_take hi)).2
  unfold assignGranules
  dsimp only
  split
  · exact .refl ..
  · exact cellsGain_setCell ⟨rfl, ownGains_foldl_ins (hscratch _), ownGains_foldl_ins (hside _), id⟩

/-- A clearing enters a cell as it is created (12 R258, step 3). -/
def enterCell (n : Nat) (s : State) (p : Nat × Nat) : State := (s.joinCell n p.1 p.2).assignGranules n p.1 p.2

theorem enterCell_cellsGain (n : Nat) (s : State) (p : Nat × Nat) : CellsGain n [p] s (enterCell n s p) :=
  (joinCell_cellsGain s n p.1 p.2).trans (assignGranules_cellsGain _ n p.1 p.2)

theorem inRing_foldl_enterCell {p : Nat × Nat} (hp : p ∈ l) (s : State) :
    ((l.foldl (enterCell n) s).cell p.1 p.2).InRing n := by
  induction l generalizing s with
  | nil => exact absurd hp List.not_mem_nil
  | cons q l ih =>
    rw [List.foldl_cons]
    rcases List.mem_cons.mp hp with rfl | hlater
    · have hrest := CellsGain.foldl (enterCell_cellsGain n) l (enterCell n s p)
      have hgranted := (assignGranules_cellsGain (s.joinCell n p.1 p.2) n p.1 p.2).gains p.1 p.2
      exact (hrest.gains p.1 p.2).ring (hgranted.ring (inRing_joinCell s n p.1 p.2))
    · exact ih hlater _

/-! ### The cells a clearing holds -/

theorem mem_cellsOf : (g, c) ∈ s.cellsOf n ↔ g < 16 ∧ c < 256 ∧ s.holds n g c = true := by
  simp [cellsOf, cellsOn, mapCells, holds]

theorem notMem_cellsOf_map (hc : c < 256) (h : s.holds n g c = false) : g * 256 + c ∉ (s.cellsOf n).map cellKey := by
  intro hmem
  obtain ⟨⟨g', c'⟩, hp, hkey⟩ := List.mem_map.mp hmem
  obtain ⟨-, hc', hholds⟩ := mem_cellsOf.mp hp
  simp only [cellKey] at hkey
  obtain rfl : g' = g := by omega
  obtain rfl : c' = c := by omega
  simp [h] at hholds

end State

end Sys2Proof.Machine
end

section
/-! A clearing as CREATE leaves it: maps, boundary values and key in force, and its cells entered (12 R257, R258; 19 R403). -/

namespace Sys2Proof.Machine

theorem keyOf_eq_iff {i j a b : Nat} (ha : a < 256) (hb : b < 256) : keyOf i a = keyOf j b ↔ i = j ∧ a = b := by
  unfold keyOf
  omega

namespace State

variable {s t : State} {n : Nat}

/-! ### Values in force -/

theorem enforce_frame (s : State) (l : List (Nat × Nat)) : s.enforce l = { s with force := (s.enforce l).force } := by
  unfold enforce
  induction l generalizing s with
  | nil => rfl
  | cons p l ih => rw [List.foldl_cons, ih]; rfl

@[simp] theorem rd_enforce (s : State) (l : List (Nat × Nat)) (idx sub : Nat) :
    (s.enforce l).rd idx sub = s.rd idx sub := by
  rw [enforce_frame]
  rfl

@[simp] theorem frcBlob_enforce (s : State) (l : List (Nat × Nat)) (idx sub : Nat) :
    (s.enforce l).frcBlob idx sub = s.frcBlob idx sub := by
  rw [enforce_frame]
  rfl

/-- A value put in force, or in force already, is in force behind the rest of the list. -/
theorem frc_enforce {l : List (Nat × Nat)} (hsub : ∀ q ∈ l, q.2 < 256) {p : Nat × Nat} (hp : p.2 < 256)
    (h : p ∈ l ∨ s.frc p.1 p.2 = s.rd p.1 p.2) : (s.enforce l).frc p.1 p.2 = s.rd p.1 p.2 := by
  induction l generalizing s with
  | nil => exact h.resolve_left List.not_mem_nil
  | cons q l ih =>
    have hq := hsub q List.mem_cons_self
    refine ih (s := s.setFrc q.1 q.2 (s.rd q.1 q.2)) (fun x hx => hsub x (List.mem_cons_of_mem q hx)) ?_
    by_cases hkey : keyOf q.1 q.2 = keyOf p.1 p.2
    · obtain rfl : q = p := Prod.ext_iff.mpr ((keyOf_eq_iff hq hp).mp hkey)
      right
      simp [frc, rd]
    · rcases h with hmem | hforced
      · left
        exact (List.mem_cons.mp hmem).resolve_left fun hsame => hkey (by rw [hsame])
      · right
        show (look (ins s.force (keyOf q.1 q.2) _) _).getD _ = _
        rw [look_ins_other _ _ hkey]
        exact hforced

/-- The maps of a clearing on some groves put in force (12 R259). -/
def enforceMapsOn (s : State) (n : Nat) (l : List Nat) : State :=
  l.foldl (fun s g =>
    (s.setFrcBlob (0x2001 + 16 * n) (g + 1) (s.newMap n g)).setFrcBlob (0x2002 + 16 * n) (g + 1) (s.newClaim n g)) s

/-- SPILL_BYTES under the maps that a clearing asks for (11 R242). -/
def newSpill (s : State) (n : Nat) : Nat := ((List.range 16).map fun g => spillOn (s.newMap n g)).foldl (· + ·) 0

theorem enforceMaps_eq (s : State) (n : Nat) :
    s.enforceMaps n = (s.enforceMapsOn n (List.range 16)).wr (0x4040 + n) 7 (s.newSpill n) := rfl

@[simp] theorem frcBlob_wr (s : State) (idx sub v idx' sub' : Nat) :
    (s.wr idx sub v).frcBlob idx' sub' = s.frcBlob idx' sub' := rfl

theorem enforceMapsOn_frame (s : State) (n : Nat) (l : List Nat) :
    s.enforceMapsOn n l = { s with blobForce := (s.enforceMapsOn n l).blobForce } := by
  unfold enforceMapsOn
  induction l generalizing s with
  | nil => rfl
  | cons g l ih => rw [List.foldl_cons, ih]; rfl

/-- The maps a clearing asks for on a grove are in force. -/
def MapsInForce (s t : State) (n g : Nat) : Prop :=
  t.frcBlob (0x2001 + 16 * n) (g + 1) = s.newMap n g ∧ t.frcBlob (0x2002 + 16 * n) (g + 1) = s.newClaim n g

theorem frcBlob_setFrcBlob (idx sub idx' sub' : Nat) (v : List Byte) : (s.setFrcBlob idx sub v).frcBlob idx' sub' =
    if keyOf idx sub = keyOf idx' sub' then v else s.frcBlob idx' sub' := by
  simp only [frcBlob, setFrcBlob_blobForce, look_ins]
  split <;> rfl

theorem mapsInForce_enforceMapsOn {l : List Nat} (hl : ∀ x ∈ l, x < 16) {g : Nat} (hg : g < 16)
    (hblobs : t.blobs = s.blobs) (h : g ∈ l ∨ s.MapsInForce t n g) : s.MapsInForce (t.enforceMapsOn n l) n g := by
  induction l generalizing t with
  | nil => exact h.resolve_left List.not_mem_nil
  | cons x l ih =>
    have hx := hl x List.mem_cons_self
    have hmap : t.newMap n x = s.newMap n x := by simp only [newMap, rdBlob, hblobs]
    have hclaim : t.newClaim n x = s.newClaim n x := by simp only [newClaim, rdBlob, hblobs]
    have hstep : (t.enforceMapsOn n (x :: l)) = ((t.setFrcBlob (0x2001 + 16 * n) (x + 1) (s.newMap n x)).setFrcBlob
        (0x2002 + 16 * n) (x + 1) (s.newClaim n x)).enforceMapsOn n l := by
      rw [← hmap, ← hclaim]
      rfl
    rw [hstep]
    refine ih (fun y hy => hl y (List.mem_cons_of_mem x hy)) hblobs ?_
    by_cases hxg : x = g
    · subst hxg
      right
      have hne : ¬keyOf (0x2002 + 16 * n) (x + 1) = keyOf (0x2001 + 16 * n) (x + 1) := by
        rw [keyOf_eq_iff (by omega) (by omega)]
        omega
      simp only [MapsInForce, frcBlob_setFrcBlob, if_neg hne, if_true, and_self]
    · refine h.imp (fun hmem => (List.mem_cons.mp hmem).resolve_left fun e => hxg e.symm) fun hforced => ?_
      have hkey {i j : Nat} (hne : ¬(i = j ∧ x + 1 = g + 1)) : ¬keyOf i (x + 1) = keyOf j (g + 1) := by
        rwa [keyOf_eq_iff (by omega) (by omega)]
      simpa only [MapsInForce, frcBlob_setFrcBlob, if_neg (hkey (i := 0x2001 + 16 * n) (j := 0x2001 + 16 * n) (by omega)),
        if_neg (hkey (i := 0x2002 + 16 * n) (j := 0x2001 + 16 * n) (by omega)),
        if_neg (hkey (i := 0x2001 + 16 * n) (j := 0x2002 + 16 * n) (by omega)),
        if_neg (hkey (i := 0x2002 + 16 * n) (j := 0x2002 + 16 * n) (by omega))] using hforced

theorem holds_eq_of_mapsInForce {g : Nat} (h : s.MapsInForce t n g) (c : Nat) :
    t.holds n g c = mapBit (s.newMap n g) c := by
  rw [holds, h.1]

/-! ### Keys -/

/-- The draws of a salt advance the DRBG and no more (19 R404). -/
theorem clearingKey_snd (tries : Nat) (s : State) (n : Nat) (kt : List Byte) : (s.clearingKey tries n kt).2 =
    { s with sec := { s.sec with drbgCount := (s.clearingKey tries n kt).2.sec.drbgCount } } := by
  induction tries generalizing s with
  | zero => rfl
  | succ tries ih =>
    unfold clearingKey
    dsimp only
    split
    · rw [ih]; rfl
    · rfl

/-- `t` is `s` with the key delivered to clearing `n` installed (19 R403). -/
structure KeyInstalled (s t : State) (n : Nat) (k : List Byte) : Prop where
  frame : t = { s with dict := ins s.dict (keyOf (0x8040 + n) 2) 2, sec := t.sec }
  tenant : look t.sec.tenantKeys (s.tenantOf n) = some k
  clearing : (look t.sec.clearingKeys n).isSome = true
  sessions : t.sec.sessions = s.sec.sessions

theorem installKey_of_none (h : look s.sec.delivered n = none) : s.installKey n = s := by
  rw [installKey, h]

theorem keyInstalled_installKey {k : List Byte} (h : look s.sec.delivered n = some k) :
    s.KeyInstalled (s.installKey n) n k := by
  rw [installKey, h]
  dsimp only
  rw [clearingKey_snd]
  exact ⟨rfl, look_ins_same .., by rw [wr_sec, look_ins_same]; rfl, rfl⟩

end State

end Sys2Proof.Machine
end

section
/-! The accepted CREATE (12 R257, R258; 19 R403, R408). -/

namespace Sys2Proof.Machine.State

variable {s t k : State} {n sess : Nat}

/-- CREATING, and the clearing's record as it then is (12 R258, step 1). -/
def createRecord (s : State) (n : Nat) : State :=
  (s.setClr n { s.clr n with heldCreate := false, idleSince := s.time }).setClearState n 1

/-- CREATING, with the maps and boundary values asked for in force. -/
def createValues (s : State) (n : Nat) : State := ((s.createRecord n).enforceMaps n).enforce (forcePositions n)

/-- The entries that the boundary values of a CREATE leave: CLEAR_STATE and SPILL_BYTES set. -/
def createDict (s : State) (n : Nat) : Map Nat :=
  ins (ins s.dict (keyOf (0x2000 + 16 * n) 1) 1) (keyOf (0x4040 + n) 7) (s.newSpill n)

theorem newSpill_congr (h : t.blobs = s.blobs) : t.newSpill n = s.newSpill n := by
  simp only [newSpill, newMap, rdBlob, h]

theorem enforceMaps_frame (s : State) (n : Nat) : s.enforceMaps n =
    { s with
      dict := ins s.dict (keyOf (0x4040 + n) 7) (s.newSpill n), blobForce := (s.enforceMaps n).blobForce } := by
  have hmaps := enforceMapsOn_frame s n (List.range 16)
  rw [enforceMaps_eq]
  generalize s.enforceMapsOn n (List.range 16) = t at *
  rw [hmaps, wr]

theorem createValues_frame (s : State) (n : Nat) : s.createValues n =
    { s with
      dict := s.createDict n, force := (s.createValues n).force, blobForce := (s.createValues n).blobForce,
      clearings := ins s.clearings n { s.clr n with heldCreate := false, idleSince := s.time } } := by
  have hspill : (s.createRecord n).newSpill n = s.newSpill n := newSpill_congr rfl
  have hmaps := enforceMaps_frame (s.createRecord n) n
  have hvalues := enforce_frame ((s.createRecord n).enforceMaps n) (forcePositions n)
  rw [hspill] at hmaps
  rw [createDict, createValues]
  generalize ((s.createRecord n).enforceMaps n).enforce (forcePositions n) = u at *
  generalize (s.createRecord n).enforceMaps n = t at *
  rw [hvalues, hmaps]
  rfl

theorem createValues_sec (s : State) (n : Nat) : (s.createValues n).sec = s.sec := by
  have hframe := createValues_frame s n
  generalize s.createValues n = t at *
  rw [hframe]

theorem createValues_dict (s : State) (n : Nat) : (s.createValues n).dict = s.createDict n := by
  have hframe := createValues_frame s n
  generalize s.createValues n = t at *
  rw [hframe]

theorem look_createValues_dict {key : Nat} (hstate : keyOf (0x2000 + 16 * n) 1 ≠ key)
    (hspill : keyOf (0x4040 + n) 7 ≠ key) : look (s.createValues n).dict key = look s.dict key := by
  rw [createValues_dict, createDict, look_ins_other _ _ hspill, look_ins_other _ _ hstate]

/-- No position that CREATE puts in force is CLEAR_STATE or SPILL_BYTES. -/
theorem forcePositions_keys (hn : n < 64) : ∀ p ∈ forcePositions n,
    p.2 < 256 ∧ keyOf (0x2000 + 16 * n) 1 ≠ keyOf p.1 p.2 ∧ keyOf (0x4040 + n) 7 ≠ keyOf p.1 p.2 := by
  have hall : ∀ n < 64, ∀ p ∈ forcePositions n,
    p.2 < 256 ∧ keyOf (0x2000 + 16 * n) 1 ≠ keyOf p.1 p.2 ∧ keyOf (0x4040 + n) 7 ≠ keyOf p.1 p.2 := by decide +kernel
  exact hall n hn

theorem frc_createValues (hn : n < 64) {p : Nat × Nat} (hp : p ∈ forcePositions n) :
    (s.createValues n).frc p.1 p.2 = s.rd p.1 p.2 := by
  obtain ⟨hsub, hstate, hspill⟩ := forcePositions_keys hn p hp
  have hsubs : ∀ q ∈ forcePositions n, q.2 < 256 := fun q hq => (forcePositions_keys hn q hq).1
  have hrd : (s.createValues n).rd p.1 p.2 = s.rd p.1 p.2 := rd_eq_of_look (look_createValues_dict hstate hspill)
  rw [← hrd, createValues, frc_enforce hsubs hsub (.inl hp), rd_enforce]

theorem mapsInForce_createValues {g : Nat} (hg : g < 16) : s.MapsInForce (s.createValues n) n g := by
  rw [MapsInForce, createValues, frcBlob_enforce, frcBlob_enforce, enforceMaps_eq, frcBlob_wr, frcBlob_wr]
  exact mapsInForce_enforceMapsOn (t := s.createRecord n) (fun x hx => List.mem_range.mp hx) hg rfl
    (.inl (List.mem_range.mpr hg))

theorem tenantOf_createValues (hn : n < 64) : (s.createValues n).tenantOf n = s.tenantOf n :=
  rd_eq_of_look (look_createValues_dict (by unfold keyOf; omega) (by unfold keyOf; omega))

/-- The module as an accepted CREATE leaves it but for the clearing's cells. -/
def creating (s : State) (n : Nat) : State := (s.createValues n).installKey n

theorem acceptCreate_eq (s : State) (n : Nat) :
    s.acceptCreate n = ((s.creating n).cellsOf n).foldl (enterCell n) (s.creating n) := rfl

/-- `t` is `s` with clearing `n` CREATING and its maps and values in force, whatever was done about its key; no cell is
entered. -/
structure Creating (s t : State) (n : Nat) : Prop where
  frame : t = { s with
    dict := t.dict, force := t.force, blobForce := t.blobForce, sec := t.sec,
    clearings := ins s.clearings n { s.clr n with heldCreate := false, idleSince := s.time } }
  state : t.clearState n = 1
  spill : t.rd (0x4040 + n) 7 = s.newSpill n
  maps : ∀ g < 16, s.MapsInForce t n g
  values : ∀ p ∈ forcePositions n, t.frc p.1 p.2 = s.rd p.1 p.2
  entries : s.sameEntriesBut t [keyOf (0x2000 + 16 * n) 1, keyOf (0x4040 + n) 7, keyOf (0x8040 + n) 2]
  sessions : t.sec.sessions = s.sec.sessions

theorem creating_createValues (hn : n < 64) : s.Creating (s.createValues n) n where
  frame := by
    have hframe := createValues_frame s n
    generalize s.createValues n = t at *
    rw [hframe]
  state := by
    rw [clearState, rd, createValues_dict, createDict, look_ins_other _ _ (by unfold keyOf; omega), look_ins_same,
      Option.getD_some]
  spill := by rw [rd, createValues_dict, createDict, look_ins_same, Option.getD_some]
  maps g hg := mapsInForce_createValues hg
  values p hp := frc_createValues hn hp
  entries key hkey := by
    simp only [List.mem_cons, List.not_mem_nil, or_false, not_or] at hkey
    obtain ⟨hstate, hspill, -⟩ := hkey
    exact look_createValues_dict (Ne.symm hstate) (Ne.symm hspill)
  sessions := by rw [createValues_sec]

theorem Creating.withKey {u : State} {kt : List Byte} (hn : n < 64) (h : s.Creating u n) (hkey : u.KeyInstalled t n kt) :
    s.Creating t n := by
  have hdict : t.dict = ins u.dict (keyOf (0x8040 + n) 2) 2 := by rw [hkey.frame]
  have hforce : t.force = u.force := by rw [hkey.frame]
  have hblobs : t.blobForce = u.blobForce := by rw [hkey.frame]
  have hother {key : Nat} (hne : keyOf (0x8040 + n) 2 ≠ key) : look t.dict key = look u.dict key := by
    rw [hdict, look_ins_other _ _ hne]
  constructor
  case frame => rw [hkey.frame, h.frame]
  case state => exact (rd_eq_of_look (hother (by unfold keyOf; omega))).trans h.state
  case spill => exact (rd_eq_of_look (hother (by unfold keyOf; omega))).trans h.spill
  case maps =>
    intro g hg
    simpa only [MapsInForce, frcBlob, hblobs] using h.maps g hg
  case values =>
    intro p hp
    simpa only [frc, hforce] using h.values p hp
  case entries =>
    intro key hout
    rw [hother fun he => hout (by simp [he]), h.entries key hout]
  case sessions => rw [hkey.sessions, h.sessions]

theorem creating_creating (hn : n < 64) (s : State) : s.Creating (s.creating n) n := by
  have hvalued : s.Creating (s.createValues n) n := creating_createValues hn
  cases hkey : look (s.createValues n).sec.delivered n with
  | none => rwa [creating, installKey_of_none hkey]
  | some kt => exact hvalued.withKey hn (keyInstalled_installKey hkey)

/-- The key delivered to the clearing is installed under its tenant. -/
theorem creating_key (hn : n < 64) {kt : List Byte} (h : look s.sec.delivered n = some kt) :
    (s.creating n).rd (0x8040 + n) 2 = 2 ∧ look (s.creating n).sec.tenantKeys (s.tenantOf n) = some kt ∧
      (look (s.creating n).sec.clearingKeys n).isSome = true := by
  have hkey := keyInstalled_installKey (s := s.createValues n) (n := n) (k := kt) (by rwa [createValues_sec])
  refine ⟨?_, ?_, hkey.clearing⟩
  · have hdict : (s.creating n).dict = ins (s.createValues n).dict (keyOf (0x8040 + n) 2) 2 := by
      rw [creating, hkey.frame]
    rw [rd, hdict, look_ins_same, Option.getD_some]
  · rw [← tenantOf_createValues hn]
    exact hkey.tenant

theorem creating_sec_of_none (h : look s.sec.delivered n = none) : (s.creating n).sec = s.sec := by
  rw [creating, installKey_of_none (by rwa [createValues_sec]), createValues_sec]

end Sys2Proof.Machine.State
end

section
/-! CREATE from its checks to its answer (12 R257, R258; 19 R403, R408). -/

namespace Sys2Proof.Machine.State

variable {s t k : State} {n sess : Nat}

/-! ### What the command comes to -/

/-- The first check of CREATE that fails (12 R257). -/
def createBad (s : State) (n : Nat) : Name :=
  firstBad ([(s.busy n, Name.clearingBusy), (s.exists? n, .clearingExists), (s.incomplete n, .clearingIncomplete)] ++
    s.assignChecks n)

theorem busy_of_createBad_ok (h : s.createBad n = .ok) : s.busy n = false := good_of_firstBad_cons h (by decide)

theorem clearState_of_createBad_ok (h : s.createBad n = .ok) : s.clearState n = 0 := by
  have hrest := h
  rw [createBad, List.cons_append, firstBad_cons_of_good (busy_of_createBad_ok h)] at hrest
  simpa [exists?] using good_of_firstBad_cons hrest (by decide)

theorem createBad_of_busy (h : s.busy n = true) : s.createBad n = .clearingBusy := firstBad_cons_of_bad h

theorem clearCmd_create_of_bad (h : s.createBad n ≠ .ok) : s.clearCmd n 1 = .error (s.createBad n) := by
  show s.createCmd n = _
  exact if_pos (bne_iff_ne.mpr h)

section

variable (h : s.createBad n = .ok)
include h

theorem clearCmd_create_of_opening (hopening : (look s.sec.opening n).isSome = true) :
    s.clearCmd n 1 = .ok (s.setClr n { s.clr n with heldCreate := true }) := by
  show s.createCmd n = _
  have hgood : ¬(s.createBad n != .ok) = true := by simp [h]
  exact (if_neg hgood).trans (if_pos hopening)

theorem clearCmd_create_of_keyMissing (hopening : look s.sec.opening n = none) (hkey : s.keyMissing n = true) :
    s.clearCmd n 1 = .error .keyAbsent := by
  show s.createCmd n = _
  have hgood : ¬(s.createBad n != .ok) = true := by simp [h]
  exact (if_neg hgood).trans ((if_neg (by simp [hopening])).trans (if_pos hkey))

theorem clearCmd_create_of_key (hopening : look s.sec.opening n = none) (hkey : s.keyMissing n = false) :
    s.clearCmd n 1 = .ok (s.acceptCreate n) := by
  show s.createCmd n = _
  have hgood : ¬(s.createBad n != .ok) = true := by simp [h]
  exact (if_neg hgood).trans ((if_neg (by simp [hopening])).trans (if_neg (by simp [hkey])))

end

/-! ### The session's time -/

theorem settle_of_clearState_ne (h : s.clearState n ≠ 2) : s.settle n = s := by
  rw [settle, if_neg (by simpa using h)]

/-- What an accepted request leaves of a state with the sessions of `s` at the time of `s` (19 R408). -/
theorem touch_eq (hsessions : k.sec.sessions = s.sec.sessions) (htime : k.time = s.time) (sess : Nat) :
    k.touch sess = { k with sec := { k.sec with sessions := (s.touch sess).sec.sessions } } := by
  have hsession : k.session sess = s.session sess := by rw [session, session, hsessions]
  rw [touch, touch, hsession]
  cases s.session sess with
  | none => rw [← hsessions]
  | some x => simp only [setSession, ← hsessions, ← htime]

/-! ### The accepted command -/

/-- The answer to an accepted CREATE. -/
def createAnswer (s : State) (sess n : Nat) : State :=
  (((s.acceptCreate n).wr (clearCmdIdx n) 1 1).touch sess).emit (.status .ok)

theorem acceptCreate_cellsGain (s : State) (n : Nat) :
    CellsGain n ((s.creating n).cellsOf n) (s.creating n) (s.acceptCreate n) := by
  rw [acceptCreate_eq]
  exact CellsGain.foldl (enterCell_cellsGain n) _ _

theorem clearState_acceptCreate (hn : n < 64) : (s.acceptCreate n).clearState n = 1 := by
  have hdict := (acceptCreate_cellsGain s n).dict_eq
  rw [← (creating_creating hn s).state]
  exact rd_eq_of_look (by rw [hdict])

/-- The entries the clearing's cells leave are those of `creating`; the answer adds CLEAR_CMD, the session and itself. -/
theorem createAnswer_eq (hn : n < 64) (sess : Nat) : s.createAnswer sess n =
    { s.creating n with
      cells := (s.acceptCreate n).cells, dict := ins (s.creating n).dict (keyOf (clearCmdIdx n) 1) 1,
      sec := { (s.creating n).sec with sessions := (s.touch sess).sec.sessions }, outbox := s.outbox ++ [.status .ok] } := by
  have hcreating := creating_creating hn s
  have hcells := (acceptCreate_cellsGain s n).frame
  rw [createAnswer]
  generalize s.acceptCreate n = a at *
  have htime : (s.creating n).time = s.time := by rw [hcreating.frame]
  have houtbox : (s.creating n).outbox = s.outbox := by rw [hcreating.frame]
  have hsessions := hcreating.sessions
  generalize s.creating n = u at *
  rw [touch_eq (s := s) (by rw [hcells]; exact hsessions) (by rw [hcells]; exact htime), hcells]
  rw [emit, wr, houtbox]

theorem exec_create_accepted (hn : n < 64) (hreach : s.reachable = true) (hrole : s.roleOf sess = some .manager)
    (h : s.createBad n = .ok) (hopening : look s.sec.opening n = none) (hkey : s.keyMissing n = false) :
    exec (.create sess n) s = .next (s.createAnswer sess n) := by
  obtain ⟨t, hnext, houtcome⟩ := exec_create hn hreach hrole
  rw [hnext, houtcome.accepted _ (clearCmd_create_of_key h hopening hkey) (busy_of_createBad_ok h),
    settle_of_clearState_ne]
  · rfl
  · rw [clearState, rd_wr_other _ (by unfold keyOf clearCmdIdx; omega)]
    show (s.acceptCreate n).clearState n ≠ 2
    rw [clearState_acceptCreate hn]
    decide

/-! ### The other outcomes -/

section

variable (hn : n < 64) (hreach : s.reachable = true) (hrole : s.roleOf sess = some .manager)
include hn hreach hrole

theorem exec_create_of_bad (h : s.createBad n ≠ .ok) :
    exec (.create sess n) s = .next (s.emit (.status (s.createBad n))) := by
  obtain ⟨t, hnext, houtcome⟩ := exec_create hn hreach hrole
  rw [hnext, houtcome.refused _ (clearCmd_create_of_bad h) h createBad_of_busy]

variable (h : s.createBad n = .ok)
include h

/-- With a key opening under way the command is held (19 R403). -/
theorem exec_create_of_opening (hopening : (look s.sec.opening n).isSome = true) :
    exec (.create sess n) s = .next
      ((((s.setClr n { s.clr n with heldCreate := true }).wr (clearCmdIdx n) 1 1).touch sess).emit (.status .ok)) := by
  obtain ⟨t, hnext, houtcome⟩ := exec_create hn hreach hrole
  rw [hnext, houtcome.accepted _ (clearCmd_create_of_opening h hopening) (busy_of_createBad_ok h),
    settle_of_clearState_ne]
  rw [clearState, rd_wr_other _ (by unfold keyOf clearCmdIdx; omega)]
  show s.clearState n ≠ 2
  simp [clearState_of_createBad_ok h]

theorem exec_create_of_keyMissing (hopening : look s.sec.opening n = none) (hkey : s.keyMissing n = true) :
    exec (.create sess n) s = .next (s.emit (.status .keyAbsent)) := by
  obtain ⟨t, hnext, houtcome⟩ := exec_create hn hreach hrole
  rw [hnext, houtcome.refused _ (clearCmd_create_of_keyMissing h hopening hkey) (by decide)]
  simp [busy_of_createBad_ok h]

end

/-! ### What the accepted command leaves -/

/-- The cells of a clearing's new map gain it, and no other cell changes. -/
theorem cell_acceptCreate (hn : n < 64) {g c : Nat} (hg : g < 16) (hc : c < 256) :
    (mapBit (s.newMap n g) c = true →
      ((s.acceptCreate n).cell g c).InRing n ∧ (s.cell g c).Gains n ((s.acceptCreate n).cell g c)) ∧
    (mapBit (s.newMap n g) c = false → (s.acceptCreate n).cell g c = s.cell g c) := by
  have hcreating := creating_creating hn s
  have hgain := acceptCreate_cellsGain s n
  have hcells : (s.creating n).cells = s.cells := by rw [hcreating.frame]
  have hcell : (s.creating n).cell g c = s.cell g c := by rw [cell, cell, hcells]
  have hholds := holds_eq_of_mapsInForce (hcreating.maps g hg) c
  refine ⟨fun hin => ⟨?_, hcell ▸ hgain.gains g c⟩, fun hout => ?_⟩
  · rw [acceptCreate_eq]
    exact inRing_foldl_enterCell (mem_cellsOf.mpr ⟨hg, hc, hholds.trans hin⟩) _
  · rw [hgain.outside g c (notMem_cellsOf_map hc (hholds.trans hout)), hcell]

/-- The clearing's record is CREATE's, and no other clearing's changes. -/
theorem Creating.clr_eq (h : s.Creating t n) (m : Nat) :
    t.clr m = if n = m then { s.clr n with heldCreate := false, idleSince := s.time } else s.clr m := by
  have hclearings : t.clearings = ins s.clearings n { s.clr n with heldCreate := false, idleSince := s.time } := by
    rw [h.frame]
  rw [clr, hclearings, look_ins]
  split <;> rfl

end Sys2Proof.Machine.State
end

section
/-! What a map keeps when a few of its keys are written, and bytes that are nowhere listed (log entry 3). -/

namespace Sys2Proof.Machine

variable {α : Type} {a : Nat} {x : α}

theorem mem_ins_iff {m : Map α} {p : Nat × α} (hp : p.1 ≠ a) : p ∈ ins m a x ↔ p ∈ m := by
  have hnew : p ≠ (a, x) := fun e => hp (congrArg Prod.fst e)
  induction m with
  | nil => simp [ins, hnew]
  | cons q m ih =>
    by_cases hlt : a < q.1
    · simp [ins, hlt, hnew]
    · by_cases heq : q.1 = a
      · have hold : p ≠ q := fun e => hp (e ▸ heq)
        simp [ins, heq, hnew, hold]
      · simp [ins, hlt, heq, ih]

theorem mem_del_iff {m : Map α} {p : Nat × α} (hp : p.1 ≠ a) : p ∈ del m a ↔ p ∈ m := by
  induction m with
  | nil => simp [del]
  | cons q m ih =>
    by_cases heq : q.1 = a
    · have hold : p ≠ q := fun e => hp (e ▸ heq)
      simp [del, heq, hold]
    · by_cases hlt : a < q.1
      · simp [del, hlt, heq]
      · simp [del, hlt, heq, ih]

namespace State

variable {m o q : Map α} {keys : List Nat}

theorem sameListedBut_trans (h : sameListedBut m o keys) (k : sameListedBut o q keys) : sameListedBut m q keys :=
  fun p hp => (k p hp).trans (h p hp)

theorem sameListedBut_mono {keys' : List Nat} (h : sameListedBut m o keys) (hsub : keys ⊆ keys') :
    sameListedBut m o keys' := fun p hp => h p fun hmem => hp (hsub hmem)

theorem sameListedBut_ins (ha : a ∈ keys) (x : α) : sameListedBut m (ins m a x) keys :=
  fun _ hp => mem_ins_iff fun e => hp (e ▸ ha)

theorem sameListedBut_foldl_del {β : Type} {f : β → Nat} {l : List β} (hl : ∀ b ∈ l, f b ∈ keys) :
    sameListedBut m (l.foldl (fun m b => del m (f b)) m) keys := by
  induction l generalizing m with
  | nil => exact fun _ _ => Iff.rfl
  | cons b l ih =>
    refine sameListedBut_trans (fun p hp => ?_) (ih fun c hc => hl c (List.mem_cons_of_mem b hc))
    exact mem_del_iff fun e => hp (e ▸ hl b List.mem_cons_self)

end State

/-- No byte is listed at an address; whatever the order of the list, the byte then reads zero. -/
def Mem.Clear (m : Mem) (a : Nat) : Prop := ∀ p ∈ m, p.1 ≠ a

theorem look_of_notListed {m : Map α} (h : ∀ p ∈ m, p.1 ≠ a) : look m a = none := by
  induction m with
  | nil => rfl
  | cons q m ih =>
    have hq := h q List.mem_cons_self
    have hrest := ih fun p hp => h p (List.mem_cons_of_mem q hp)
    simp [look, hq, hrest]

theorem Mem.Clear.read {m : Mem} (h : m.Clear a) : Mem.read m a = 0 := by
  rw [Mem.read, look_of_notListed h, Option.getD_none]

theorem Mem.clear_zero (m : Mem) {lo len : Nat} (hlo : lo ≤ a) (hhi : a < lo + len) : (Mem.zero m lo len).Clear a := by
  intro p hp e
  have hout := (List.mem_filter.mp hp).2
  simp only [Bool.or_eq_true, decide_eq_true_eq] at hout
  omega

theorem Mem.Clear.zero {m : Mem} (h : m.Clear a) (lo len : Nat) : (Mem.zero m lo len).Clear a :=
  fun p hp => h p (List.mem_filter.mp hp).1

end Sys2Proof.Machine
end

section
/-! What charges to the regulators and a posted event change (12 R265, R269; 17 R376). -/

namespace Sys2Proof.Machine.State

variable {s t u : State} {n r : Nat}

/-! ### Charges -/

theorem charge_buckets (s : State) (n r d b : Nat) : (s.charge n r d b).buckets =
    ins s.buckets (bucketKey n r d) (s.bucket n r d + s.borrowed n r d b - b) := by
  unfold charge
  dsimp only
  split <;> rfl

/-- A strict clearing never draws from a lending pool (12 R269). -/
theorem borrowed_of_strict (h : s.frc 0x2450 n ≠ 1) (r d b : Nat) : s.borrowed n r d b = 0 := by
  rw [borrowed, if_neg (by simpa using h)]

theorem charge_pools_of_strict (h : s.frc 0x2450 n ≠ 1) (r d b : Nat) : (s.charge n r d b).pools = s.pools := by
  simp [charge, borrowed_of_strict h]

/-- `t` is `s` but for charges to regulators of clearing `n` on the resources of `rs`. -/
structure Charged (n : Nat) (rs : List Nat) (s t : State) : Prop where
  frame : t = { s with dict := t.dict, buckets := t.buckets, pools := t.pools, lastDraw := t.lastDraw }
  bucket : ∀ m r d, (∀ q ∈ rs, bucketKey n q 0 ≠ bucketKey m r d) → t.bucket m r d = s.bucket m r d
  listed : sameListedBut s.dict t.dict (rs.flatMap fun r => [keyOf (0x2460 + n) r, keyOf (0x24A0 + n) r])
  pools : s.frc 0x2450 n ≠ 1 → t.pools = s.pools

namespace Charged

variable {rs : List Nat}

theorem refl (n : Nat) (rs : List Nat) (s : State) : Charged n rs s s :=
  ⟨rfl, fun _ _ _ _ => rfl, fun _ _ => Iff.rfl, fun _ => rfl⟩

theorem force_eq (h : Charged n rs s t) : t.force = s.force := by rw [h.frame]

theorem frc_eq (h : Charged n rs s t) (idx sub : Nat) : t.frc idx sub = s.frc idx sub := by
  rw [frc, frc, h.force_eq]

theorem trans (h : Charged n rs s t) (k : Charged n rs t u) : Charged n rs s u where
  frame := by rw [k.frame, h.frame]
  bucket m r d hout := (k.bucket m r d hout).trans (h.bucket m r d hout)
  listed := sameListedBut_trans h.listed k.listed
  pools hstrict := (k.pools (by rwa [h.frc_eq])).trans (h.pools hstrict)

theorem mono {rs' : List Nat} (h : Charged n rs s t) (hsub : rs ⊆ rs') : Charged n rs' s t where
  frame := h.frame
  bucket m r d hout := h.bucket m r d fun q hq => hout q (hsub hq)
  listed := sameListedBut_mono h.listed fun _ hkey =>
    let ⟨r, hr, hmem⟩ := List.mem_flatMap.mp hkey
    List.mem_flatMap.mpr ⟨r, hsub hr, hmem⟩
  pools := h.pools

theorem foldl {f : State → Nat → State} (hf : ∀ s r, Charged n [r] s (f s r)) (rs : List Nat) (s : State) :
    Charged n rs s (rs.foldl f s) := by
  induction rs generalizing s with
  | nil => exact .refl ..
  | cons r rs ih => exact ((hf s r).mono (by simp)).trans ((ih (f s r)).mono (by simp))

end Charged

theorem charge_charged (s : State) (n r b : Nat) : Charged n [r] s (s.charge n r 0 b) where
  frame := by
    unfold charge
    dsimp only
    split <;> rfl
  bucket m q d hout := by
    rw [State.bucket, charge_buckets, look_ins_other _ _ (hout r List.mem_cons_self)]
    rfl
  listed := by
    unfold charge
    dsimp only
    split
    · exact sameListedBut_ins (by simp) _
    · exact sameListedBut_trans (sameListedBut_ins (by simp) _) (sameListedBut_ins (by simp) _)
  pools hstrict := charge_pools_of_strict hstrict ..

theorem bucket_charge_of_strict (h : s.frc 0x2450 n ≠ 1) (r b : Nat) :
    (s.charge n r 0 b).bucket n r 0 = s.bucket n r 0 - (b : Nat) := by
  rw [bucket, charge_buckets, look_ins_same, Option.getD_some, borrowed_of_strict h]
  simp

/-- One stack group's part of a scrub of tier 1 charged. -/
def chargeGroup (n : Nat) (s : State) (r : Nat) : State := s.charge n r 0 (s.frc (0x4040 + n) 3 / 4)

theorem bucket_foldl_chargeGroup (hstrict : s.frc 0x2450 n ≠ 1) {l : List Nat} (hl : l.Nodup) (hr : r ∈ l) :
    (l.foldl (chargeGroup n) s).bucket n r 0 = s.bucket n r 0 - (s.frc (0x4040 + n) 3 / 4 : Nat) := by
  induction l generalizing s with
  | nil => exact absurd hr List.not_mem_nil
  | cons q l ih =>
    obtain ⟨hq, hl⟩ := List.nodup_cons.mp hl
    have hhead : Charged n [q] s (chargeGroup n s q) := charge_charged ..
    rw [List.foldl_cons]
    rcases List.mem_cons.mp hr with rfl | hlater
    · have hrest := Charged.foldl (f := chargeGroup n) (fun s r => charge_charged ..) l (chargeGroup n s r)
      rw [hrest.bucket n r 0 fun p hp e => hq (by obtain rfl : p = r := (by unfold bucketKey at e; omega); exact hp)]
      exact bucket_charge_of_strict hstrict ..
    · rw [ih (by rwa [hhead.frc_eq]) hl hlater, hhead.frc_eq, hhead.bucket n r 0]
      intro p hp e
      obtain rfl := List.mem_singleton.mp hp
      exact hq ((by unfold bucketKey at e; omega : p = r) ▸ hlater)

/-! ### A posted event -/

theorem post_frame (s : State) (name : Name) (n : Nat) : s.post name n =
    { s with dict := (s.post name n).dict, hub := (s.post name n).hub } := by
  unfold post postFull
  dsimp only
  split <;> rfl

theorem post_posts (s : State) (name : Name) (n : Nat) : s.posts (s.post name n) name n .ok := postFull_posts ..

theorem post_listed (s : State) (name : Name) (n : Nat) : sameListedBut s.dict (s.post name n).dict eventKeys := by
  have hwrites (m : Map Nat) (v w : Nat) :
      sameListedBut m (ins (ins m (keyOf 0x7100 2) v) (keyOf 0xA002 3) w) eventKeys :=
    sameListedBut_trans (sameListedBut_ins (by decide) v) (sameListedBut_ins (by decide) w)
  unfold post postFull
  dsimp only
  split
  · exact hwrites _ _ _
  · exact sameListedBut_trans (sameListedBut_ins (by decide) _) (hwrites _ _ _)

theorem look_post_dict (s : State) (name : Name) (n : Nat) {key : Nat} (hkey : key ∉ eventKeys) :
    look (s.post name n).dict key = look s.dict key := by
  simp only [eventKeys, List.mem_cons, List.not_mem_nil, or_false, not_or] at hkey
  obtain ⟨hnewest, hlost, hrb⟩ := hkey
  have hwrites (m : Map Nat) (v w : Nat) :
      look (ins (ins m (keyOf 0x7100 2) v) (keyOf 0xA002 3) w) key = look m key := by
    rw [look_ins_other _ _ (Ne.symm hrb), look_ins_other _ _ (Ne.symm hnewest)]
  unfold post postFull
  dsimp only
  split
  · exact hwrites ..
  · exact (hwrites ..).trans (look_ins_other _ _ (Ne.symm hlost))

end Sys2Proof.Machine.State
end

section
/-! The end of a creation (12 R258). -/

namespace Sys2Proof.Machine.State

variable {s t u : State} {n : Nat}

/-! ### The scrub -/

/-- Whether an address lies in a region or in the spill area of a clearing. -/
def Scrubbed (n a : Nat) : Prop := ∃ off < 2 ^ 52, a = regionAddr 1 n off ∨ a = regionAddr 2 n off ∨ a = spillArea n off

theorem scrubRegions_frame (s : State) (n : Nat) : s.scrubRegions n =
    { s with mem := (s.scrubRegions n).mem, poison := (s.scrubRegions n).poison } := rfl

theorem scrubRegions_mem (s : State) (n : Nat) : (s.scrubRegions n).mem =
    Mem.zero (Mem.zero (Mem.zero s.mem (regionAddr 1 n 0) (2 ^ 52)) (regionAddr 2 n 0) (2 ^ 52)) (spillArea n 0) (2 ^ 52) :=
  rfl

theorem read_scrubRegions_of_scrubbed {a : Nat} (h : Scrubbed n a) : Mem.read (s.scrubRegions n).mem a = 0 := by
  obtain ⟨off, hoff, rfl | rfl | rfl⟩ := h <;> rw [scrubRegions_mem] <;> refine Mem.Clear.read ?_
  · exact ((Mem.clear_zero _ (by simp [regionAddr]) (by unfold regionAddr; omega)).zero _ _).zero _ _
  · exact (Mem.clear_zero _ (by simp [regionAddr]) (by unfold regionAddr; omega)).zero _ _
  · exact Mem.clear_zero _ (by simp [spillArea]) (by unfold spillArea; omega)

theorem read_scrubRegions_of_not (hwf : s.memoryWf) {a : Nat} (h : ¬Scrubbed n a) :
    Mem.read (s.scrubRegions n).mem a = Mem.read s.mem a := by
  obtain ⟨hmem, -, -⟩ := hwf
  have hout {lo : Nat} (hlo : ∀ off < 2 ^ 52, a ≠ lo + off) : ¬(lo ≤ a ∧ a < lo + 2 ^ 52) := fun ⟨hle, hlt⟩ =>
    hlo (a - lo) (by omega) (by omega)
  have hnone := fun off hoff => not_or.mp fun hin => h ⟨off, hoff, hin⟩
  have hfirst : ¬(regionAddr 1 n 0 ≤ a ∧ a < regionAddr 1 n 0 + 2 ^ 52) := hout fun off hoff => (hnone off hoff).1
  have hsecond : ¬(regionAddr 2 n 0 ≤ a ∧ a < regionAddr 2 n 0 + 2 ^ 52) := hout fun off hoff =>
    (not_or.mp (hnone off hoff).2).1
  have hspill : ¬(spillArea n 0 ≤ a ∧ a < spillArea n 0 + 2 ^ 52) := hout fun off hoff => (not_or.mp (hnone off hoff).2).2
  rw [scrubRegions_mem, Mem.read_zero _ _ _ (Mem.wf_zero _ _ (Mem.wf_zero _ _ hmem)), if_neg hspill,
    Mem.read_zero _ _ _ (Mem.wf_zero _ _ hmem), if_neg hsecond, Mem.read_zero _ _ _ hmem, if_neg hfirst]

/-! ### Its stages -/

/-- The clearing's memory scrubbed, and free granules given to it (12 R258, steps 2 and 3). -/
def scrubGiven (s : State) (n : Nat) : State :=
  (s.cellsOf n).foldl (fun s p => s.assignGranules n p.1 p.2) (s.scrubRegions n)

/-- The scrub charged to its regulators (12 R258, step 4). -/
def scrubCharged (s : State) (n : Nat) : State :=
  ([1, 2, 3, 4].foldl (chargeGroup n) (s.scrubGiven n)).charge n 5 0 (s.frc (0x4040 + n) 4)

/-- The clearing IDLE, with the counters at `l` zero and its beats dropped. -/
def idleWithZero (s : State) (n : Nat) (l : List (Nat × Nat)) : State :=
  ((s.zeroKeys l).dropBeats n).setClearState n 2

/-- Its counters zero, and the clearing IDLE (12 R258, step 5). -/
def scrubEnded (s : State) (n : Nat) : State := (s.scrubCharged n).idleWithZero n (counterKeys n)

theorem endCreate_eq (s : State) (n : Nat) : s.endCreate n = (s.scrubEnded n).post .clearingCreated n := rfl

theorem scrubGiven_cellsGain (s : State) (n : Nat) :
    CellsGain n (s.cellsOf n) (s.scrubRegions n) (s.scrubGiven n) :=
  CellsGain.foldl (fun s p => assignGranules_cellsGain s n p.1 p.2) _ _

theorem scrubGiven_frame (s : State) (n : Nat) : s.scrubGiven n =
    { s with
      mem := (s.scrubRegions n).mem, poison := (s.scrubRegions n).poison, cells := (s.scrubGiven n).cells } := by
  have hgain := (scrubGiven_cellsGain s n).frame
  generalize s.scrubGiven n = t at *
  rw [hgain, scrubRegions_frame]

theorem scrubGiven_frc (s : State) (n idx sub : Nat) : (s.scrubGiven n).frc idx sub = s.frc idx sub := by
  have hframe := scrubGiven_frame s n
  generalize s.scrubGiven n = t at *
  rw [hframe]
  rfl

theorem scrubGiven_bucket (s : State) (n m r d : Nat) : (s.scrubGiven n).bucket m r d = s.bucket m r d := by
  have hframe := scrubGiven_frame s n
  generalize s.scrubGiven n = t at *
  rw [hframe]
  rfl

theorem groups_charged (s : State) (n : Nat) : Charged n [1, 2, 3, 4] s ([1, 2, 3, 4].foldl (chargeGroup n) s) :=
  Charged.foldl (f := chargeGroup n) (fun s r => charge_charged s n r _) _ s

theorem scrubCharged_charged (s : State) (n : Nat) : Charged n [1, 2, 3, 4, 5] (s.scrubGiven n) (s.scrubCharged n) :=
  ((groups_charged (s.scrubGiven n) n).mono (by simp)).trans ((charge_charged _ n 5 _).mono (by simp))

theorem idleWithZero_frame (s : State) (n : Nat) (l : List (Nat × Nat)) : s.idleWithZero n l =
    { s with
      dict := (s.idleWithZero n l).dict, live := (s.idleWithZero n l).live, blobs := (s.idleWithZero n l).blobs } := rfl

theorem idleWithZero_listed {l : List (Nat × Nat)} {keys : List Nat} (hstate : keyOf (0x2000 + 16 * n) 1 ∈ keys)
    (hl : ∀ p ∈ l, keyOf p.1 p.2 ∈ keys) : sameListedBut s.dict (s.idleWithZero n l).dict keys :=
  sameListedBut_trans (sameListedBut_foldl_del hl) (sameListedBut_ins hstate 2)

theorem clearState_idleWithZero (s : State) (n : Nat) (l : List (Nat × Nat)) : (s.idleWithZero n l).clearState n = 2 :=
  rd_wr_same ..

/-- All that the end of a creation changes before its event. -/
theorem scrubEnded_frame_all (s : State) (n : Nat) : s.scrubEnded n =
    { s with
      dict := (s.scrubEnded n).dict, live := (s.scrubEnded n).live, blobs := (s.scrubEnded n).blobs,
      mem := (s.scrubRegions n).mem, poison := (s.scrubRegions n).poison, cells := (s.scrubGiven n).cells,
      buckets := (s.scrubCharged n).buckets, pools := (s.scrubCharged n).pools,
      lastDraw := (s.scrubCharged n).lastDraw } := by
  have hgiven := scrubGiven_frame s n
  have hcharged := (scrubCharged_charged s n).frame
  have hended := idleWithZero_frame (s.scrubCharged n) n (counterKeys n)
  rw [scrubEnded]
  generalize (s.scrubCharged n).idleWithZero n (counterKeys n) = u at *
  generalize s.scrubCharged n = t at *
  generalize s.scrubGiven n = v at *
  rw [hended, hcharged, hgiven]

/-! ### What is charged -/

section

variable (hstrict : s.frc 0x2450 n ≠ 1)
include hstrict

theorem bucket_scrubCharged_group {r : Nat} (hlo : 1 ≤ r) (hhi : r ≤ 4) :
    (s.scrubCharged n).bucket n r 0 = s.bucket n r 0 - (s.frc (0x4040 + n) 3 / 4 : Nat) := by
  have hgroups := bucket_foldl_chargeGroup (s := s.scrubGiven n) (n := n) (r := r) (l := [1, 2, 3, 4])
    (by rwa [scrubGiven_frc]) (by decide) (by simp; omega)
  have hlast := charge_charged ([1, 2, 3, 4].foldl (chargeGroup n) (s.scrubGiven n)) n 5 (s.frc (0x4040 + n) 4)
  rw [scrubCharged, hlast.bucket n r 0 (by unfold bucketKey; simp; omega), hgroups, scrubGiven_frc, scrubGiven_bucket]

theorem bucket_scrubCharged_five :
    (s.scrubCharged n).bucket n 5 0 = s.bucket n 5 0 - (s.frc (0x4040 + n) 4 : Nat) := by
  have hgroups := groups_charged (s.scrubGiven n) n
  rw [scrubCharged, bucket_charge_of_strict (by rwa [hgroups.frc_eq, scrubGiven_frc]),
    hgroups.bucket n 5 0 (by unfold bucketKey; simp), scrubGiven_bucket]

theorem scrubCharged_pools : (s.scrubCharged n).pools = s.pools := by
  rw [(scrubCharged_charged s n).pools (by rwa [scrubGiven_frc])]
  have hframe := scrubGiven_frame s n
  generalize s.scrubGiven n = t at *
  rw [hframe]

end

theorem bucket_scrubCharged_other {m r d : Nat} (h : m ≠ n ∨ r = 0 ∨ 5 < r ∨ d = 1) (hr : r < 64) (hd : d < 2) :
    (s.scrubCharged n).bucket m r d = s.bucket m r d := by
  rw [(scrubCharged_charged s n).bucket m r d, scrubGiven_bucket]
  intro q hq
  have hle : 1 ≤ q ∧ q ≤ 5 := by simp at hq; omega
  unfold bucketKey
  omega

/-! ### What is written -/

/-- The entries that the end of a creation may write. -/
def createdKeys (n : Nat) : List Nat :=
  keyOf (0x2000 + 16 * n) 1 :: eventKeys ++ (counterKeys n).map fun p => keyOf p.1 p.2

theorem counterKeys_subset (n : Nat) {p : Nat × Nat} (h : p ∈ counterKeys n) : keyOf p.1 p.2 ∈ createdKeys n :=
  List.mem_append_right _ (List.mem_map_of_mem h)

theorem regKeys_subset (n : Nat) {r : Nat} (hr : r ∈ [1, 2, 3, 4, 5]) {p : Nat × Nat}
    (hp : p ∈ [(0x2460 + n, r), (0x24A0 + n, r)]) : p ∈ counterKeys n := by
  have hreg : p ∈ resources.flatMap fun r => [(0x2460 + n, r), (0x24A0 + n, r)] :=
    List.mem_flatMap.mpr ⟨r, List.mem_append_left _ hr, hp⟩
  unfold counterKeys
  iterate 10 refine List.mem_append_left _ ?_
  exact List.mem_append_right _ hreg

theorem chargeKeys_subset (n : Nat) :
    ([1, 2, 3, 4, 5].flatMap fun r => [keyOf (0x2460 + n) r, keyOf (0x24A0 + n) r]) ⊆ createdKeys n := by
  intro key hkey
  obtain ⟨r, hr, hin⟩ := List.mem_flatMap.mp hkey
  rcases List.mem_cons.mp hin with rfl | hin
  · exact counterKeys_subset n (p := (0x2460 + n, r)) (regKeys_subset n hr (by simp))
  · obtain rfl := List.mem_singleton.mp hin
    exact counterKeys_subset n (p := (0x24A0 + n, r)) (regKeys_subset n hr (by simp))

theorem scrubEnded_listed (s : State) (n : Nat) : sameListedBut s.dict (s.scrubEnded n).dict (createdKeys n) := by
  have hgiven : (s.scrubGiven n).dict = s.dict := by
    rw [(scrubGiven_cellsGain s n).dict_eq]
    rfl
  have hcharged := sameListedBut_mono (scrubCharged_charged s n).listed (chargeKeys_subset n)
  rw [hgiven] at hcharged
  exact sameListedBut_trans hcharged (idleWithZero_listed List.mem_cons_self fun p => counterKeys_subset n)

/-! ### The end of the creation -/

theorem endCreate_listed (s : State) (n : Nat) : sameListedBut s.dict (s.endCreate n).dict (createdKeys n) := by
  rw [endCreate_eq]
  refine sameListedBut_trans (scrubEnded_listed s n) (sameListedBut_mono (post_listed _ _ _) ?_)
  exact fun key hkey => List.mem_append_left _ (List.mem_cons_of_mem _ hkey)

theorem clearState_endCreate (s : State) (n : Nat) : (s.endCreate n).clearState n = 2 := by
  rw [endCreate_eq, ← clearState_idleWithZero (s.scrubCharged n) n (counterKeys n), ← scrubEnded]
  refine rd_eq_of_look (look_post_dict _ _ _ ?_)
  simp only [eventKeys, List.mem_cons, List.not_mem_nil, or_false, keyOf]
  omega

theorem endCreate_posts (s : State) (n : Nat) : s.posts (s.endCreate n) .clearingCreated n .ok := by
  have hposts := post_posts (s.scrubEnded n) .clearingCreated n
  rw [← endCreate_eq] at hposts
  have hframe := scrubEnded_frame_all s n
  have hhub : (s.scrubEnded n).hub = s.hub := by
    generalize s.scrubEnded n = t at *
    rw [hframe]
  have htime : (s.scrubEnded n).time = s.time := by
    generalize s.scrubEnded n = t at *
    rw [hframe]
  simpa only [posts, hhub, htime] using hposts

theorem endCreate_post_frame (s : State) (n : Nat) : s.endCreate n =
    { s.scrubEnded n with dict := (s.endCreate n).dict, hub := (s.endCreate n).hub } := by
  rw [endCreate_eq]
  exact post_frame ..

theorem endCreate_frame (s : State) (n : Nat) : s.endCreate n =
    { s with
      dict := (s.endCreate n).dict, hub := (s.endCreate n).hub, live := (s.scrubEnded n).live,
      blobs := (s.scrubEnded n).blobs, mem := (s.scrubRegions n).mem, poison := (s.scrubRegions n).poison,
      cells := (s.scrubGiven n).cells, buckets := (s.scrubCharged n).buckets, pools := (s.scrubCharged n).pools,
      lastDraw := (s.scrubCharged n).lastDraw } := by
  have hpost := endCreate_post_frame s n
  have hframe := scrubEnded_frame_all s n
  generalize s.endCreate n = t at *
  refine hpost.trans ?_
  generalize s.scrubEnded n = u at *
  rw [hframe]

/-- Fields of any origin are those of the state they make up. -/
theorem frame_of_fields {dict live pools lastDraw : Map Nat} {blobs : Map (List Byte)} {mem : Mem}
    {poison : List Nat} {cells : Map Cell} {buckets : Map Int} {hub : Hub}
    (h : t = { s with
      dict := dict, hub := hub, live := live, blobs := blobs, mem := mem, poison := poison, cells := cells,
      buckets := buckets, pools := pools, lastDraw := lastDraw }) :
    t = { s with
      dict := t.dict, live := t.live, blobs := t.blobs, mem := t.mem, poison := t.poison, cells := t.cells,
      buckets := t.buckets, pools := t.pools, lastDraw := t.lastDraw, hub := t.hub } := by
  rw [h]

theorem endCreate_mem (s : State) (n : Nat) : (s.endCreate n).mem = (s.scrubRegions n).mem := by
  rw [congrArg State.mem (endCreate_frame s n)]

theorem endCreate_pools (s : State) (n : Nat) : (s.endCreate n).pools = (s.scrubCharged n).pools := by
  rw [congrArg State.pools (endCreate_frame s n)]

theorem endCreate_cell (s : State) (n g c : Nat) : (s.endCreate n).cell g c = (s.scrubGiven n).cell g c := by
  rw [cell, cell, congrArg State.cells (endCreate_frame s n)]

theorem endCreate_bucket (s : State) (n m r d : Nat) : (s.endCreate n).bucket m r d = (s.scrubCharged n).bucket m r d := by
  rw [bucket, bucket, congrArg State.buckets (endCreate_frame s n)]

/-- Cells the clearing does not hold stay as they are; those it holds gain granules for it. -/
theorem cell_scrubGiven (s : State) (n : Nat) {g c : Nat} (hc : c < 256) :
    (s.holds n g c = false → (s.scrubGiven n).cell g c = s.cell g c) ∧
      (s.cell g c).Gains n ((s.scrubGiven n).cell g c) :=
  ⟨fun h => (scrubGiven_cellsGain s n).outside g c (notMem_cellsOf_map hc h), (scrubGiven_cellsGain s n).gains g c⟩

/-! ### The command -/

theorem exec_clearingCreated (hn : n < 64) (hpower : s.power.mode ≠ .off) :
    exec (.clearingCreated n) s = .next (onlyIf (s.clearState n == 1) s (s.endCreate n)) :=
  inRange_of_on (wfClearing_iff.mpr hn) (by simp [on, hpower])

theorem exec_clearingCreated_of_creating (hn : n < 64) (hpower : s.power.mode ≠ .off) (h : s.clearState n = 1) :
    exec (.clearingCreated n) s = .next (s.endCreate n) := by
  rw [exec_clearingCreated hn hpower, onlyIf, if_pos (by simp [h])]

theorem exec_clearingCreated_of_not (hn : n < 64) (hpower : s.power.mode ≠ .off) (h : s.clearState n ≠ 1) :
    exec (.clearingCreated n) s = .next s := by
  rw [exec_clearingCreated hn hpower, onlyIf, if_neg (by simp [h])]

end Sys2Proof.Machine.State
end

section
/-! CREATE and CLEARING_CREATED, settled. -/

namespace Sys2Proof.Proofs

open Machine State

/-- Settles O43. A CREATE comes to its first failing check, to a held command or to the cells of `creating` entered; the
end of the creation is scrub, grants, charges and cleared counters in turn, each with its own frame. -/
theorem clearingsAreCreated : Obligations.ClearingsAreCreated := by
  intro sess n s hwf
  have hn := wfClearing_iff.mp hwf
  refine ⟨fun hreach hrole => ⟨fun hbad => exec_create_of_bad hn hreach hrole hbad,
    fun hok hopening => exec_create_of_opening hn hreach hrole hok hopening,
    fun hok hopening hkey => exec_create_of_keyMissing hn hreach hrole hok hopening hkey,
    fun hok hopening hkey => ?accepted⟩, fun hpower hstate => ?created,
    fun hpower hstate => exec_clearingCreated_of_not hn hpower hstate⟩
  case accepted =>
    have hexec := exec_create_accepted hn hreach hrole hok hopening hkey
    rw [createAnswer_eq hn sess] at hexec
    have hcreating := creating_creating hn s
    have hkeyed := fun kt => creating_key (s := s) (kt := kt) hn
    have hunkeyed := creating_sec_of_none (s := s) (n := n)
    have hcell := fun g hg c hc => cell_acceptCreate (s := s) (n := n) hn (g := g) (c := c) hg hc
    have htouch := touch_eq (s := s) (k := s) rfl rfl sess
    refine ⟨_, hexec, ?_⟩
    generalize s.creating n = u at *
    generalize s.acceptCreate n = a at *
    have hlook {key : Nat} (hne : keyOf (clearCmdIdx n) 1 ≠ key) :
        look (ins u.dict (keyOf (clearCmdIdx n) 1) 1) key = look u.dict key := look_ins_other _ _ hne
    refine ⟨rfl, ?_, ?_, hcreating.maps, hcreating.values, fun g hg c hc => ?_, ?_, fun m hm => ?_, fun kt hkt => ?_,
      fun hnone => ?_, rfl, fun key hout => ?_, ?_⟩
    · exact (rd_eq_of_look (hlook (by unfold keyOf clearCmdIdx; omega))).trans hcreating.state
    · exact (rd_eq_of_look (hlook (by unfold keyOf clearCmdIdx; omega))).trans hcreating.spill
    · obtain ⟨hin, hout⟩ := hcell g hg c hc
      refine ⟨fun hmap => ?_, hout⟩
      obtain ⟨hring, hgains⟩ := hin hmap
      obtain ⟨hkept, hnew⟩ := hgains.scratch
      obtain ⟨hside, -⟩ := hgains.side
      exact ⟨hring, hkept, hnew, hside, hgains.slots⟩
    · exact (hcreating.clr_eq n).trans (if_pos rfl)
    · exact (hcreating.clr_eq m).trans (if_neg (Ne.symm hm))
    · obtain ⟨hrd, htenant, hclearing⟩ := hkeyed kt hkt
      exact ⟨(rd_eq_of_look (hlook (by unfold keyOf clearCmdIdx; omega))).trans hrd, htenant, hclearing⟩
    · rw [htouch, hunkeyed hnone]
    · simp only [List.mem_cons, List.not_mem_nil, or_false, not_or] at hout
      obtain ⟨hstate, hcmd, hspill, hkeyed⟩ := hout
      exact (hlook (Ne.symm hcmd)).trans (hcreating.entries key (by simp [hstate, hspill, hkeyed]))
    · rw [hcreating.frame]
  case created =>
    refine ⟨s.endCreate n, exec_clearingCreated_of_creating hn hpower hstate, clearState_endCreate s n,
      endCreate_posts s n, fun off hoff => ?_, fun hmem a hout => ?_, fun hstrict => ⟨fun r hlo hhi => ?_, ?_, ?_⟩,
      fun m r d hother hr hd => ?_, endCreate_listed s n, fun g _ c hc => ?_, ?_⟩
    · rw [endCreate_mem]
      exact ⟨read_scrubRegions_of_scrubbed ⟨off, hoff, .inl rfl⟩,
        read_scrubRegions_of_scrubbed ⟨off, hoff, .inr (.inl rfl)⟩,
        read_scrubRegions_of_scrubbed ⟨off, hoff, .inr (.inr rfl)⟩⟩
    · rw [endCreate_mem]
      refine read_scrubRegions_of_not hmem fun ⟨off, hoff, hin⟩ => ?_
      obtain ⟨hfirst, hsecond, hspill⟩ := hout off hoff
      exact hin.elim hfirst (Or.rec hsecond hspill)
    · rw [endCreate_bucket, bucket_scrubCharged_group hstrict hlo hhi]
    · rw [endCreate_bucket, bucket_scrubCharged_five hstrict]
    · rw [endCreate_pools, scrubCharged_pools hstrict]
    · rw [endCreate_bucket, bucket_scrubCharged_other hother hr hd]
    · rw [endCreate_cell]
      obtain ⟨hunheld, hgains⟩ := cell_scrubGiven s n (g := g) hc
      obtain ⟨hkept, hnew⟩ := hgains.scratch
      exact ⟨hunheld, hgains.slots, hkept, hnew⟩
    · exact frame_of_fields (endCreate_frame s n)

end Sys2Proof.Proofs
end
